-- ==== Sys2Proof/Word.lean ====
section
/-! DEFINITION. The plain number types of the CKV318: instants, sign-and-magnitude quantities (00 "Numeric formats", "Minus zero"), wire cells (R138), and one structural map over a vector. -/

namespace Sys2Proof

/-- An instant or a length of time, in ticks of 0.1 µs (assumption 1). -/
abbrev Instant := Nat

/-- `n` microseconds in ticks. -/
abbrev us (n : Nat) : Instant := n * 10

/-- `n` milliseconds in ticks. -/
abbrev ms (n : Nat) : Instant := n * 10000

/-- One cell time of the Station Link, 6 µs (R138). -/
abbrev cellTime : Instant := us 6

/-- What a node does with the line for one bit (R138): it drives the line low, or leaves it to rise. -/
inductive LineLevel where
  | dominant | recessive
  deriving DecidableEq, Repr

/-- The twelve data bits of one cell of the Station Link (R138). -/
abbrev Cell := BitVec 12

/-- A deviation, TCR or other signed pair: sign and 23-bit magnitude, ±8,388,607; −0 and +0 are distinct values (00 "Minus zero", R153). -/
structure Dev where
  neg : Bool
  mag : BitVec 23
  deriving DecidableEq, Repr

/-- The value +0. -/
def Dev.zero : Dev := ⟨false, 0⟩

/-- The sign-and-magnitude value read as a signed integer, both zeros as 0 (R65). -/
def Dev.toInt (d : Dev) : Int := if d.neg then -(d.mag.toNat : Int) else (d.mag.toNat : Int)

/-- A coarse value: sign and 11-bit magnitude, ±2047 in 0.01 % (00 "Numeric formats"). -/
structure Coarse where
  neg : Bool
  mag : BitVec 11
  deriving DecidableEq, Repr

/-- Apply `f` to every element of a vector, by structural recursion on its list. -/
def vmap {α β : Type} {n : Nat} (f : α → β) (v : Vector α n) : Vector β n :=
  ⟨⟨v.toList.map f⟩, by simp⟩

end Sys2Proof
end

