-- ==== Sys2Proof/Syntax.lean ====
section
/-! DEFINITION. The commands of the CKV318: one constructor of `Instr` for each row of spec/opcode_table.json. Every command carries the instant `t` at which the part takes it (assumption 1). Commands that are frames carry what the frame's header, count cells and body hold (R139, R144, R154 to R156), each field as wide as its layout makes it, so that codes the part does not define can arrive (R151). -/

namespace Sys2Proof

/-- Header sender and count cells of a frame taken from the line (R139, R144). -/
structure FrameHead where
  sender : BitVec 4
  count : BitVec 16
  state : BitVec 4
  activity : BitVec 2
  deriving DecidableEq, Repr

/-- Header, count cells and target field of a console-kind frame (R153, R156). -/
structure ConsoleHead where
  frame : FrameHead
  target : BitVec 4
  deriving DecidableEq, Repr

/-- The cause of a hard reset: the supply coming up, or RESET alone (R172). -/
inductive HardCause where
  | powerUp
  | resetPin
  deriving DecidableEq, Repr

/-- The body of an ENTRY frame (R154). -/
structure EntryBody where
  tag : BitVec 16
  page : BitVec 2
  cls : BitVec 3
  digest : BitVec 12
  coarse : Option Coarse
  deriving DecidableEq, Repr

/-- The flags cell of a VALUE (R20, R154), bit 0 first. -/
structure ValueFlags where
  suspect : Bool
  drift : Bool
  driftStale : Bool
  tempAbsent : Bool
  saturated : Bool
  near : Bool
  assumedPage : Bool
  tcrAbsent : Bool
  deriving DecidableEq, Repr

/-- The body of a VALUE frame (R154). -/
structure ValueBody where
  tag : BitVec 16
  quality : BitVec 4
  flags : ValueFlags
  deviation : Option Dev
  temperature : Option (BitVec 12)
  tcr : Option Dev
  deriving DecidableEq, Repr

/-- The body of a VERDICT frame (R154). -/
structure VerdictBody where
  tag : BitVec 16
  reason : BitVec 4
  gate : BitVec 12
  bin : Option (BitVec 12)
  deriving DecidableEq, Repr

/-- The body of a HAIL frame (R155). -/
structure HailBody where
  role : BitVec 3
  position : BitVec 5
  cause : BitVec 2
  page : BitVec 2
  inUse : BitVec 4
  digest0 : BitVec 12
  digest1 : BitVec 12
  digest2 : BitVec 12
  digest3 : BitVec 12
  deriving DecidableEq, Repr

/-- The mode of a RUN/HALT frame under the HALT row: HALT, or the mode code 3 that the part does not define (R177; assumption 14). -/
inductive HaltMode where
  | halt
  | undefinedMode
  deriving DecidableEq, Repr

/-- What a CLEAR under the CLEAR_ALERT_FLAGS row carries: form 1 with the flags named, position p at bit 32 − p (R153), or one of the undefined forms 2 to 15 (R156, R183; assumption 14). -/
inductive ClearForm where
  | flags (named : BitVec 32)
  | undefinedForm (form : Fin 14)
  deriving DecidableEq, Repr

/-- The item of a QUERY under the QUERY_STATE row: item 0, or one of the items 7 to 15 that the part does not define (R186; assumption 14). -/
inductive StateItem where
  | state
  | undefinedItem (item : Fin 9)
  deriving DecidableEq, Repr

/-- The commands. The name of a constructor is its row's mnemonic in camel case. -/
inductive Instr where
  /-- R1: a rising edge on INDEX, with the level of PAGE[1:0] at that instant (R14). -/
  | indexEvent (t : Instant) (pagePins : BitVec 2)
  /-- R172: RESET goes low. -/
  | resetAssert (t : Instant)
  /-- R172: the supply comes up or RESET returns high, with the strap levels read. -/
  | hardReset (t : Instant) (cause : HardCause) (node : BitVec 3) (role : BitVec 3) (page : BitVec 2)
  /-- R49: the SETTLE timer expires. -/
  | settleExpiry (t : Instant)
  /-- R50: the contact test of one side ends, with the resistance measured (milliohms; assumption 6). -/
  | contactTestEnd (t : Instant) (milliohms : Nat)
  /-- R57: the off interval ends. -/
  | offIntervalExpiry (t : Instant)
  /-- R41: a conversion ends with one X code and one S code. -/
  | conversionEnd (t : Instant) (x : BitVec 24) (std : BitVec 24)
  /-- R52: the GAP timer expires. -/
  | gapExpiry (t : Instant)
  /-- R53, R54: the TSENS conversion ends with its reading. -/
  | temperatureSampleEnd (t : Instant) (reading : BitVec 12)
  /-- R59: MEAS_LIMIT expires. -/
  | measLimitExpiry (t : Instant)
  /-- R129: the FIRE_DELAY timer of output GATE(gate+1) expires. -/
  | fireDelayExpiry (t : Instant) (gate : Fin 16)
  /-- R130: PULL_IN of output GATE(gate+1) ends. -/
  | pullInEnd (t : Instant) (gate : Fin 16)
  /-- R130: PULSE_WIDTH of output GATE(gate+1) has elapsed. -/
  | pulseEnd (t : Instant) (gate : Fin 16)
  /-- R169: the hail timer expires. -/
  | hailTimerExpiry (t : Instant)
  /-- R173: the LISTEN timer expires. -/
  | listenExpiry (t : Instant)
  /-- R161: the silence timer of a peer reaches 1000 ms. -/
  | peerSilence (t : Instant) (node : Fin 8)
  /-- R140: the line becomes idle. -/
  | lineIdle (t : Instant)
  /-- R143: a deferral wait ends. -/
  | deferralWaitExpiry (t : Instant)
  /-- R141: the own header reads a dominant bit over a recessive one. -/
  | claimLost (t : Instant)
  /-- R142: a read-back mismatch that is a collision. -/
  | collision (t : Instant)
  /-- R148: the own frame reaches the end of its check cell. -/
  | frameSent (t : Instant)
  /-- R150: a frame on the line is discarded; the sender is the header's when the header cell arrived with correct parity. -/
  | frameDiscard (t : Instant) (sender : Option (BitVec 4))
  /-- R25: an ENTRY is taken. -/
  | entryReceived (t : Instant) (head : FrameHead) (body : EntryBody)
  /-- R32: a VALUE is taken. -/
  | valueReceived (t : Instant) (head : FrameHead) (body : ValueBody)
  /-- R22: a VERDICT is taken. -/
  | verdictReceived (t : Instant) (head : FrameHead) (body : VerdictBody)
  /-- R159: a HAIL is taken. -/
  | hailReceived (t : Instant) (head : FrameHead) (body : HailBody)
  /-- R185: an ALERT frame is taken, with the alert word it carries. -/
  | alertFrameReceived (t : Instant) (head : FrameHead) (word : BitVec 32)
  /-- R151: a STATUS frame is taken, with its body cells. -/
  | statusReceived (t : Instant) (head : FrameHead) (body : List Cell)
  /-- R177: a RUN/HALT frame of mode RUN. -/
  | run (t : Instant) (head : ConsoleHead)
  /-- R177: a RUN/HALT frame of mode HALT, or of the undefined mode 3. -/
  | halt (t : Instant) (head : ConsoleHead) (mode : HaltMode)
  /-- R178: a RUN/HALT frame of mode DRAIN. -/
  | drain (t : Instant) (head : ConsoleHead)
  /-- R175: a SETUP frame naming an item by identifier. -/
  | setup (t : Instant) (head : ConsoleHead) (item : BitVec 8) (value : Dev)
  /-- R4, R175: a SETUP frame of POSITION. -/
  | setupPosition (t : Instant) (head : ConsoleHead) (value : Dev)
  /-- R5, R175: a SETUP frame of GATE_POS[gate+1]. -/
  | setupGatePos (t : Instant) (head : ConsoleHead) (gate : Fin 16) (value : Dev)
  /-- R176: the SETUP item DONE. -/
  | done (t : Instant) (head : ConsoleHead) (value : Dev)
  /-- R103: a LOAD of one page parameter. -/
  | loadParameter (t : Instant) (head : ConsoleHead) (page : BitVec 4) (field : BitVec 12) (value : Dev)
  /-- R104: a LOAD of one bin, with none, one or both of its TCR limits. -/
  | loadBin (t : Instant) (head : ConsoleHead) (page : BitVec 4) (bin : BitVec 12) (lower upper : Dev) (gate : BitVec 12) (capacity : BitVec 16) (tcrLo tcrHi : Option Dev)
  /-- R104: a bin LOAD without limit fields. -/
  | loadBinRemove (t : Instant) (head : ConsoleHead) (page : BitVec 4) (bin : BitVec 12)
  /-- R107: a LOCK with its expected digest. -/
  | lock (t : Instant) (head : ConsoleHead) (page : BitVec 4) (digest : BitVec 12)
  /-- R109: an ERASE. -/
  | erase (t : Instant) (head : ConsoleHead) (page : BitVec 4)
  /-- R134: a CLEAR of form 0. -/
  | binClear (t : Instant) (head : ConsoleHead) (page : BitVec 4) (bin : BitVec 8)
  /-- R183: a CLEAR of form 1, or of an undefined form. -/
  | clearAlertFlags (t : Instant) (head : ConsoleHead) (form : ClearForm)
  /-- R184: a MASK with its mask word (position p at bit 32 − p) and master enable. -/
  | mask (t : Instant) (head : ConsoleHead) (word : BitVec 32) (master : Bool)
  /-- R168, R181: a MUTE frame calling for mute. -/
  | mute (t : Instant) (head : ConsoleHead)
  /-- R168, R181: a MUTE frame calling for unmute. -/
  | unmute (t : Instant) (head : ConsoleHead)
  /-- R179: a RESTART. -/
  | restart (t : Instant) (head : ConsoleHead)
  /-- R186: a QUERY of item 0, or of an undefined item. -/
  | queryState (t : Instant) (head : ConsoleHead) (item : StateItem) (arg : BitVec 4)
  /-- R186: a QUERY of item 1. -/
  | queryAlertWord (t : Instant) (head : ConsoleHead) (arg : BitVec 4)
  /-- R186: a QUERY of item 2; the argument is the node. -/
  | queryPeerRow (t : Instant) (head : ConsoleHead) (arg : BitVec 4)
  /-- R186: a QUERY of item 3. -/
  | queryBinTally (t : Instant) (head : ConsoleHead) (arg : BitVec 4) (page : BitVec 4) (bin : BitVec 8)
  /-- R186: a QUERY of item 4; the argument is the reason code. -/
  | queryReasonTally (t : Instant) (head : ConsoleHead) (arg : BitVec 4)
  /-- R187: a QUERY of item 5. -/
  | queryEntry (t : Instant) (head : ConsoleHead) (arg : BitVec 4) (tag : BitVec 16)
  /-- R99, R186: a QUERY of item 6; the argument is the slot. -/
  | queryDriftSlot (t : Instant) (head : ConsoleHead) (arg : BitVec 4)
  /-- R8: the start mark of another node's header cell. -/
  | frameStart (t : Instant)
  deriving DecidableEq, Repr

end Sys2Proof
end

