-- ==== Sys2Proof/Decode.lean ====
section
/-! DEFINITION. The decoder. The rows of spec/opcode_table.json carry no bits, so `decodeTableWord` reads none. What this block does decode is a frame of the Station Link: cells and parity (R138), the frame (R139, R149), the bodies of every kind (R153 to R156), and so which command a frame on the line is. The encoder that lays the same bodies out stands after it. -/

namespace Sys2Proof

/-- The command a word spells by the table's bits: the table gives no row any bits. -/
def decodeTableWord (_nbits _w : Nat) : Option Instr := none

/-! ### Cells (R138) -/

/-- R138: the parity bit that makes the number of ones odd. -/
def parityBit (c : Cell) : Bool := (List.range 12).foldl (fun b k => b ^^ c.getLsbD k) true

/-- R138: a cell as sent, twelve data bits and then the parity bit. -/
def wireCell (c : Cell) : BitVec 13 := c ++ BitVec.ofBool (parityBit c)

/-- R138: the data bits of a cell as received. -/
def cellData (w : BitVec 13) : Cell := w.extractLsb' 1 12

/-- R138: a received cell has correct parity. -/
def parityOk (w : BitVec 13) : Bool := w.getLsbD 0 == parityBit (cellData w)

/-- R138: a bit on the line: a 0 is dominant, a 1 recessive. -/
def bitLevel (b : Bool) : LineLevel := if b then .recessive else .dominant

/-- R138: a cell as the line carries it: the start mark, driven low, then the bits, most significant first, the parity bit last. -/
def lineCell (c : Cell) : List LineLevel := .dominant :: ((List.range 13).map (fun k => bitLevel ((wireCell c).getMsbD k)))

/-- R138: bits in the order of the line as one number, the first the most significant. -/
def bitsRead (bits : List LineLevel) : BitVec 13 := bits.foldl (fun w b => w.shiftConcat (b == .recessive)) 0

/-- R138: a cell as a receiver reads it at its end: its data bits, or none for a parity error. A cell cut off before its parity bit counts as one. -/
def readCell : List LineLevel → Option Cell
  | .dominant :: bits => if bits.length = 13 ∧ parityOk (bitsRead bits) then some (cellData (bitsRead bits)) else none
  | _ => none

/-! ### Field forms (R153) -/

/-- R153: the first cell of a tag pair. -/
def tagHigh (tag : BitVec 16) : Cell := tag.extractLsb' 4 12

/-- R153: the second cell of a tag pair, with the eight bits the frame gives. -/
def tagLow (tag : BitVec 16) (rest : BitVec 8) : Cell := tag.extractLsb' 0 4 ++ rest

/-- R153: the tag of a tag pair. -/
def tagOf (a b : Cell) : BitVec 16 := a ++ b.extractLsb' 8 4

/-- R153: a signed pair. -/
def signedPair (d : Dev) : List Cell := [BitVec.ofBool d.neg ++ d.mag.extractLsb' 12 11, d.mag.extractLsb' 0 12]

/-- R153: the value of a signed pair. -/
def signedOf (a b : Cell) : Dev := { neg := a.getLsbD 11, mag := a.extractLsb' 0 11 ++ b }

/-- R153: a count pair. -/
def countPair (v : BitVec 16) : List Cell := [0#8 ++ v.extractLsb' 12 4, v.extractLsb' 0 12]

/-- R153: the value of a count pair; bits 11 to 4 of the first cell are ignored. -/
def countOf (a b : Cell) : BitVec 16 := a.extractLsb' 0 4 ++ b

/-- R153: an alert or mask word in three cells, position p at bit 32 − p. -/
def wordCells (w : BitVec 32) : List Cell := [w.extractLsb' 20 12, w.extractLsb' 8 12, w.extractLsb' 0 8 ++ 0#4]

/-- R153: the word of three cells. -/
def wordOf (a b c : Cell) : BitVec 32 := a ++ b ++ c.extractLsb' 4 8

/-- R153: an optional signed pair at the front of the cells, taken when its presence bit is set. -/
def takeSigned (present : Bool) (cs : List Cell) : Option (Option Dev × List Cell) :=
  if present then (match cs with | a :: b :: rest => some (some (signedOf a b), rest) | _ => none) else some (none, cs)

/-- R153: an optional single cell at the front of the cells. -/
def takeCell (present : Bool) (cs : List Cell) : Option (Option Cell × List Cell) :=
  if present then (match cs with | a :: rest => some (some a, rest) | _ => none) else some (none, cs)

/-- The cells of an optional signed pair. -/
def optSigned (d : Option Dev) : List Cell := match d with | some d => signedPair d | none => []

/-- The cells of an optional single cell. -/
def optCell (c : Option Cell) : List Cell := match c with | some c => [c] | none => []

/-- R154: the flags cell of a VALUE. -/
def flagsCell (f : ValueFlags) : Cell :=
  0#4 ++ BitVec.ofBool f.tcrAbsent ++ BitVec.ofBool f.assumedPage ++ BitVec.ofBool f.near ++ BitVec.ofBool f.saturated
    ++ BitVec.ofBool f.tempAbsent ++ BitVec.ofBool f.driftStale ++ BitVec.ofBool f.drift ++ BitVec.ofBool f.suspect

/-- R154: the flags of a flags cell. -/
def flagsOf (c : Cell) : ValueFlags :=
  { suspect := c.getLsbD 0, drift := c.getLsbD 1, driftStale := c.getLsbD 2, tempAbsent := c.getLsbD 3, saturated := c.getLsbD 4,
    near := c.getLsbD 5, assumedPage := c.getLsbD 6, tcrAbsent := c.getLsbD 7 }

/-- A coarse value in one cell (R154). -/
def coarseCell (c : Coarse) : Cell := BitVec.ofBool c.neg ++ c.mag

/-- The coarse value of a cell (R154). -/
def coarseOf (c : Cell) : Coarse := { neg := c.getLsbD 11, mag := c.extractLsb' 0 11 }

/-- The first body cell of a console frame: target and eight bits (R153). -/
def targetCell (h : ConsoleHead) (rest : BitVec 8) : Cell := h.target ++ rest

/-! ### Frames (R139, R144) -/

/-- A frame read whole: kind, header sender and count cells, body. -/
structure RawFrame where
  kind : BitVec 4
  head : FrameHead
  body : List Cell
  deriving DecidableEq, Repr

/-- R139: the check cell, the sum of the preceding cells modulo 4096. -/
def checkCell (cs : List Cell) : Cell := cs.foldl (· + ·) 0

/-- R139: the header cell. -/
def headerCell (kind sender : BitVec 4) (len : Nat) : Cell := kind ++ sender ++ BitVec.ofNat 4 len

/-- R144: the first count cell. -/
def countCell1 (h : FrameHead) : Cell := h.count.extractLsb' 4 12

/-- R144: the second count cell. -/
def countCell2 (h : FrameHead) : Cell := h.count.extractLsb' 0 4 ++ h.state ++ h.activity ++ 0#2

/-- R139: the cells of a frame, header to check cell. -/
def frameCells (f : RawFrame) : List Cell :=
  let cs := headerCell f.kind f.head.sender f.body.length :: countCell1 f.head :: countCell2 f.head :: f.body
  cs ++ [checkCell cs]

/-- R139, R149: the frame of a run of cells, when the run is as long as its header calls for and its check cell agrees. -/
def parseFrame (cs : List Cell) : Option RawFrame :=
  match cs with
  | h :: c1 :: c2 :: rest =>
    let len := (h.extractLsb' 0 4).toNat
    let body := rest.take len
    if rest.length = len + 1 ∧ rest.drop len = [checkCell (h :: c1 :: c2 :: body)] then
      some
        { kind := h.extractLsb' 8 4
          head :=
            { sender := h.extractLsb' 4 4, count := c1 ++ c2.extractLsb' 8 4, state := c2.extractLsb' 4 4, activity := c2.extractLsb' 2 2 }
          body := body }
    else none
  | _ => none

/-! ### Body lengths of STATUS (R157) -/

/-- The number of set bits among the lowest `n` of a cell. -/
def bitsSet (c : Cell) (n : Nat) : Nat := (List.range n).countP (fun k => c.getLsbD k)

/-- R149, R157: the body length agrees with the item, part and presence cell of a STATUS frame. For an echo that names item 7 to 15, part 4 to 15 of item 5, or more than 4 samples of item 6 the spec gives no length: here none agrees, and the frame is discarded (assumption 39). -/
def statusLengthOk (body : List Cell) : Bool :=
  match body with
  | [] => false
  | echo :: rest =>
    match (echo.extractLsb' 8 4).toNat with
    | 0 => body.length == 3
    | 1 => body.length == 8
    | 2 => body.length == 10
    | 3 => body.length == 4
    | 4 => body.length == 3
    | 5 =>
      match (echo.extractLsb' 4 4).toNat with
      | 0 =>
        (match rest with
          | _ :: _ :: p :: _ :: _ =>
            decide (p.toNat < 32)
              && body.length == 5 + (p.getLsbD 0).toNat + (p.getLsbD 2).toNat + (p.getLsbD 3).toNat + (p.getLsbD 4).toNat
          | _ => false)
      | 1 | 2 | 3 =>
        (match rest with
          | _ :: _ :: c :: more =>
            if c.getLsbD 11 then
              (match more with
                | _ :: p :: _ =>
                  decide (p.toNat < 8) && body.length == 6 + 2 * (p.getLsbD 0).toNat + (p.getLsbD 1).toNat + 2 * (p.getLsbD 2).toNat
                | _ => false)
            else body.length == 4
          | _ => false)
      | _ => false
    | 6 =>
      (match rest with
        | c :: _ :: _ =>
          decide ((c.extractLsb' 9 3).toNat ≤ 4)
            && body.length == 3 + 2 * (c.getLsbD 8).toNat + 2 * (c.getLsbD 7).toNat + 2 * (c.extractLsb' 9 3).toNat
        | _ => false)
    | _ => false

/-! ### The command of a frame (R151, R154 to R156) -/

/-- R154: an ENTRY body. -/
def entryOfBody (body : List Cell) : Option EntryBody :=
  match body with
  | a :: b :: d :: p :: rest =>
    if p.toNat < 2 then
      match takeCell (p.getLsbD 0) rest with
      | some (c, []) =>
        some { tag := tagOf a b, page := b.extractLsb' 6 2, cls := b.extractLsb' 3 3, digest := d, coarse := c.map coarseOf }
      | _ => none
    else none
  | _ => none

/-- R154: a VALUE body. -/
def valueOfBody (body : List Cell) : Option ValueBody :=
  match body with
  | a :: b :: f :: p :: rest =>
    if p.toNat < 8 then
      match takeSigned (p.getLsbD 0) rest with
      | some (dev, r1) =>
        match takeCell (p.getLsbD 1) r1 with
        | some (temp, r2) =>
          match takeSigned (p.getLsbD 2) r2 with
          | some (tcr, []) =>
            some { tag := tagOf a b, quality := b.extractLsb' 4 4, flags := flagsOf f, deviation := dev, temperature := temp, tcr := tcr }
          | _ => none
        | none => none
      | none => none
    else none
  | _ => none

/-- R154: a VERDICT body. -/
def verdictOfBody (body : List Cell) : Option VerdictBody :=
  match body with
  | a :: b :: g :: p :: rest =>
    if p.toNat < 2 then
      match takeCell (p.getLsbD 0) rest with
      | some (c, []) => some { tag := tagOf a b, reason := b.extractLsb' 4 4, gate := g, bin := c }
      | _ => none
    else none
  | _ => none

/-- R155: a HAIL body. -/
def hailOfBody (body : List Cell) : Option HailBody :=
  match body with
  | [a, b, d0, d1, d2, d3] =>
    some
      { role := a.extractLsb' 9 3, position := a.extractLsb' 4 5, cause := a.extractLsb' 2 2, page := a.extractLsb' 0 2,
        inUse := b.extractLsb' 0 4, digest0 := d0, digest1 := d1, digest2 := d2, digest3 := d3 }
  | _ => none

/-- R156: the SETUP command of an item identifier. -/
def setupCommand (t : Instant) (h : ConsoleHead) (item : BitVec 8) (v : Dev) : Instr :=
  if item.toNat = 1 then .setupPosition t h v
  else if item.toNat = 255 then .done t h v
  else if g : 19 ≤ item.toNat ∧ item.toNat ≤ 34 then .setupGatePos t h ⟨item.toNat - 19, by omega⟩ v
  else .setup t h item v

/-- R156: a bin LOAD; its presence cell shows limits, TCR_LO and TCR_HI in bits 0 to 2. -/
def loadBinCommand (t : Instant) (h : ConsoleHead) (page : BitVec 4) (body : List Cell) : Option Instr :=
  match body with
  | [bin, p] => if p.toNat = 0 then some (.loadBinRemove t h page bin) else none
  | bin :: p :: l1 :: l2 :: u1 :: u2 :: gate :: c1 :: c2 :: rest =>
    if p.toNat < 8 ∧ p.getLsbD 0 then
      match takeSigned (p.getLsbD 1) rest with
      | some (lo, r1) =>
        match takeSigned (p.getLsbD 2) r1 with
        | some (hi, []) => some (.loadBin t h page bin (signedOf l1 l2) (signedOf u1 u2) gate (countOf c1 c2) lo hi)
        | _ => none
      | none => none
    else none
  | _ => none

/-- R156: a CLEAR. -/
def clearCommand (t : Instant) (h : ConsoleHead) (form : BitVec 4) (rest : List Cell) : Option Instr :=
  if form.toNat = 0 then
    match rest with
    | [c] => some (.binClear t h (c.extractLsb' 8 4) (c.extractLsb' 0 8))
    | _ => none
  else if form.toNat = 1 then
    match rest with
    | [a, b, c] => some (.clearAlertFlags t h (.flags (wordOf a b c)))
    | _ => none
  else
    match rest with
    | [_] => some (.clearAlertFlags t h (.undefinedForm ⟨(form.toNat - 2), by omega⟩))
    | _ => none

/-- R156, R186: a QUERY. -/
def queryCommand (t : Instant) (h : ConsoleHead) (item arg : BitVec 4) (rest : List Cell) : Option Instr :=
  match item.toNat, rest with
  | 0, [] => some (.queryState t h .state arg)
  | 1, [] => some (.queryAlertWord t h arg)
  | 2, [] => some (.queryPeerRow t h arg)
  | 3, [c] => some (.queryBinTally t h arg (c.extractLsb' 8 4) (c.extractLsb' 0 8))
  | 4, [] => some (.queryReasonTally t h arg)
  | 5, [a, b] => some (.queryEntry t h arg (tagOf a b))
  | 6, [] => some (.queryDriftSlot t h arg)
  | n, [] => if n < 7 then none else some (.queryState t h (.undefinedItem ⟨(n - 7) % 9, by omega⟩) arg)
  | _, _ => none

/-- R156: the command of a console-kind frame from its first body cell and the cells after it. -/
def consoleCommand (t : Instant) (kind : Nat) (head : FrameHead) (c : Cell) (rest : List Cell) : Option Instr :=
  let h : ConsoleHead := { frame := head, target := c.extractLsb' 8 4 }
  match kind, rest with
  | 2, [] =>
    match (c.extractLsb' 0 2).toNat with
    | 0 => some (.run t h)
    | 1 => some (.halt t h .halt)
    | 2 => some (.drain t h)
    | _ => some (.halt t h .undefinedMode)
  | 6, [a, b] => some (setupCommand t h (c.extractLsb' 0 8) (signedOf a b))
  | 7, cs =>
    if c.getLsbD 3 then loadBinCommand t h (c.extractLsb' 4 4) cs
    else
      match cs with
      | [f, a, b] => some (.loadParameter t h (c.extractLsb' 4 4) f (signedOf a b))
      | _ => none
  | 8, [d] => some (.lock t h (c.extractLsb' 4 4) d)
  | 9, [] => some (.erase t h (c.extractLsb' 4 4))
  | 10, cs => clearCommand t h (c.extractLsb' 4 4) cs
  | 11, [a, b, d] => some (.mask t h (wordOf a b d) (c.getLsbD 0))
  | 12, [] => some (if c.getLsbD 0 then .mute t h else .unmute t h)
  | 13, [] => some (.restart t h)
  | 14, cs => queryCommand t h (c.extractLsb' 4 4) (c.extractLsb' 0 4) cs
  | _, _ => none

/-- R151, R154 to R157: the command a frame is, or none when its body length is not what its kind calls for (R149). -/
def commandOf (t : Instant) (f : RawFrame) : Option Instr :=
  match f.kind.toNat with
  | 0 => (entryOfBody f.body).map (.entryReceived t f.head)
  | 1 => (valueOfBody f.body).map (.valueReceived t f.head)
  | 3 => (verdictOfBody f.body).map (.verdictReceived t f.head)
  | 4 =>
    match f.body with
    | [a, b, c] => some (.alertFrameReceived t f.head (wordOf a b c))
    | _ => none
  | 5 => (hailOfBody f.body).map (.hailReceived t f.head)
  | 15 => if statusLengthOk f.body then some (.statusReceived t f.head f.body) else none
  | k =>
    match f.body with
    | c :: rest => consoleCommand t k f.head c rest
    | [] => none

/-- The command of the cells of a frame. -/
def decodeFrame (t : Instant) (cs : List Cell) : Option Instr := (parseFrame cs).bind (commandOf t)

/-- R149, R150: what a run of cells on the line amounts to, at the moment it ends: a frame taken, or a discard that names the header's sender when the header cell arrived with correct parity. A header cell with a parity error counts as one that could not be read whole (R143; assumption 9). -/
def receiveFrame (t : Instant) (line : List (List LineLevel)) : Instr :=
  let discard : Instr :=
    .frameDiscard t (match line with | w :: _ => (readCell w).map (fun c => c.extractLsb' 4 4) | [] => none)
  if line.all (fun w => (readCell w).isSome) then (decodeFrame t (line.filterMap readCell)).getD discard else discard

/-! ### The encoder -/

/-- R154: the cells of an ENTRY body. -/
def entryCells (b : EntryBody) : List Cell :=
  [tagHigh b.tag, tagLow b.tag (b.page ++ b.cls ++ 0#3), b.digest, 0#11 ++ BitVec.ofBool b.coarse.isSome] ++ optCell (b.coarse.map coarseCell)

/-- The presence cell of deviation, temperature and TCR, and the fields themselves (R154). -/
def valueFields (dev : Option Dev) (temp : Option (BitVec 12)) (tcr : Option Dev) : List Cell :=
  (0#9 ++ BitVec.ofBool tcr.isSome ++ BitVec.ofBool temp.isSome ++ BitVec.ofBool dev.isSome) :: (optSigned dev ++ optCell temp ++ optSigned tcr)

/-- R154: the cells of a VALUE body. -/
def valueCells (b : ValueBody) : List Cell :=
  [tagHigh b.tag, tagLow b.tag (b.quality ++ 0#4), flagsCell b.flags] ++ valueFields b.deviation b.temperature b.tcr

/-- R154: the cells of a VERDICT body. -/
def verdictCells (b : VerdictBody) : List Cell :=
  [tagHigh b.tag, tagLow b.tag (b.reason ++ 0#4), b.gate, 0#11 ++ BitVec.ofBool b.bin.isSome] ++ optCell b.bin

/-- R155: the cells of a HAIL body. -/
def hailCells (b : HailBody) : List Cell :=
  [b.role ++ b.position ++ b.cause ++ b.page, 0#8 ++ b.inUse, b.digest0, b.digest1, b.digest2, b.digest3]

/-- A console frame of a kind, with the eight low bits of its first body cell and the cells after it. -/
def consoleFrame (kind : BitVec 4) (h : ConsoleHead) (low : BitVec 8) (rest : List Cell) : Option RawFrame :=
  some { kind := kind, head := h.frame, body := targetCell h low :: rest }

/-- The frame a command is, for the commands that are frames (R139, R154 to R157). -/
def encodeRaw (c : Instr) : Option RawFrame :=
  match c with
  | .entryReceived _ h b => some ⟨0, h, entryCells b⟩
  | .valueReceived _ h b => some ⟨1, h, valueCells b⟩
  | .verdictReceived _ h b => some ⟨3, h, verdictCells b⟩
  | .alertFrameReceived _ h w => some ⟨4, h, wordCells w⟩
  | .hailReceived _ h b => some ⟨5, h, hailCells b⟩
  | .statusReceived _ h body => some ⟨15, h, body⟩
  | .run _ h => consoleFrame 2 h 0 []
  | .halt _ h .halt => consoleFrame 2 h 1 []
  | .halt _ h .undefinedMode => consoleFrame 2 h 3 []
  | .drain _ h => consoleFrame 2 h 2 []
  | .setup _ h item v => consoleFrame 6 h item (signedPair v)
  | .setupPosition _ h v => consoleFrame 6 h 1 (signedPair v)
  | .setupGatePos _ h g v => consoleFrame 6 h (BitVec.ofNat 8 (g.val + 19)) (signedPair v)
  | .done _ h v => consoleFrame 6 h 255 (signedPair v)
  | .loadParameter _ h page field v => consoleFrame 7 h (page ++ 0#4) (field :: signedPair v)
  | .loadBin _ h page bin lower upper gate capacity lo hi =>
    consoleFrame 7 h (page ++ 8#4)
      (bin :: (0#9 ++ BitVec.ofBool hi.isSome ++ BitVec.ofBool lo.isSome ++ 1#1)
        :: (signedPair lower ++ signedPair upper ++ [gate] ++ countPair capacity ++ optSigned lo ++ optSigned hi))
  | .loadBinRemove _ h page bin => consoleFrame 7 h (page ++ 8#4) [bin, 0]
  | .lock _ h page digest => consoleFrame 8 h (page ++ 0#4) [digest]
  | .erase _ h page => consoleFrame 9 h (page ++ 0#4) []
  | .binClear _ h page bin => consoleFrame 10 h 0 [page ++ bin]
  | .clearAlertFlags _ h (.flags w) => consoleFrame 10 h (1#4 ++ 0#4) (wordCells w)
  | .clearAlertFlags _ h (.undefinedForm f) => consoleFrame 10 h (BitVec.ofNat 4 (f.val + 2) ++ 0#4) [0]
  | .mask _ h w master => consoleFrame 11 h (0#7 ++ BitVec.ofBool master) (wordCells w)
  | .mute _ h => consoleFrame 12 h 1 []
  | .unmute _ h => consoleFrame 12 h 0 []
  | .restart _ h => consoleFrame 13 h 0 []
  | .queryState _ h .state arg => consoleFrame 14 h (0#4 ++ arg) []
  | .queryState _ h (.undefinedItem n) arg => consoleFrame 14 h (BitVec.ofNat 4 (n.val + 7) ++ arg) []
  | .queryAlertWord _ h arg => consoleFrame 14 h (1#4 ++ arg) []
  | .queryPeerRow _ h arg => consoleFrame 14 h (2#4 ++ arg) []
  | .queryBinTally _ h arg page bin => consoleFrame 14 h (3#4 ++ arg) [page ++ bin]
  | .queryReasonTally _ h arg => consoleFrame 14 h (4#4 ++ arg) []
  | .queryEntry _ h arg tag => consoleFrame 14 h (5#4 ++ arg) [tagHigh tag, tagLow tag 0]
  | .queryDriftSlot _ h arg => consoleFrame 14 h (6#4 ++ arg) []
  | .indexEvent _ _ | .resetAssert _ | .hardReset _ _ _ _ _ | .settleExpiry _ | .contactTestEnd _ _ | .offIntervalExpiry _
  | .conversionEnd _ _ _ | .gapExpiry _ | .temperatureSampleEnd _ _ | .measLimitExpiry _ | .fireDelayExpiry _ _ | .pullInEnd _ _
  | .pulseEnd _ _ | .hailTimerExpiry _ | .listenExpiry _ | .peerSilence _ _ | .lineIdle _ | .deferralWaitExpiry _ | .claimLost _
  | .collision _ | .frameSent _ | .frameDiscard _ _ | .frameStart _ => none

/-- The cells of the frame a command is. -/
def encodeFrame (c : Instr) : Option (List Cell) := (encodeRaw c).map frameCells

end Sys2Proof
end

