-- ==== Sys2Proof/Config.lean ====
section
/-! DEFINITION. What is fixed for every CKV318 (its fixed times and limits) and the one source of free values. -/

namespace Sys2Proof.Config

/-- The free value: sixteen bits nothing constrains, one for each draw (assumption 23). The STATUS reply of a peer row takes its role code from it while the role is unknown, and its offset bits while the offset is unknown: R157 states neither. A temperature conversion that has ended when MEAS_LIMIT expires takes its reading from it: the command does not carry it (assumption 38). -/
opaque freeBits : Nat → BitVec 16

/-- R1: the least interval between two accepted INDEX edges. -/
abbrev indexInterval : Instant := ms 1

/-- R173: the LISTEN window. -/
abbrev listenWindow : Instant := ms 600

/-- R169: the hail timer. -/
abbrev hailPeriod : Instant := ms 250

/-- R161: the silence after which a peer is SILENT. -/
abbrev silenceLimit : Instant := ms 1000

/-- R158: the silence timer is held at 4095 ms. -/
abbrev silenceHold : Nat := 4095

/-- R50: the contact test of one side lasts 200 µs. -/
abbrev contactTestTime : Instant := us 200

/-- R50: the test current of CONTACT, 1 mA in nanoamperes. -/
abbrev contactTestCurrent : Nat := 1000000

/-- R53: the temperature conversion lasts 250 µs. -/
abbrev temperatureTime : Instant := us 250

/-- R145: the transmit queue holds up to 6 frames. -/
abbrev queueCapacity : Nat := 6

/-- R120: the pending firing list holds up to 32 firings. -/
abbrev firingCapacity : Nat := 32

/-- R96: the staleness count stops at 256. -/
abbrev staleLimit : Nat := 256

/-- R92: the ring of a slot holds up to 4 samples. -/
abbrev ringCapacity : Nat := 4

/-- The largest magnitude of a deviation or TCR, 8,388,607 (00 "Numeric formats"). -/
abbrev devMax : Nat := 8388607

/-- The largest magnitude of a coarse value, 2047 (00 "Numeric formats"). -/
abbrev coarseMax : Nat := 2047

/-- R70: the clamp of each correction term. -/
abbrev termMax : Nat := 500000

end Sys2Proof.Config
end

