-- ==== Sys2Proof/Machine/State.lean ====
section
/-! DEFINITION. The state of the CKV318, block by block as 00's table "Owns" divides it, its value after a hard reset, and one setter for each block. Every field cites the rule that names it; INVENTORY.md lists them with their reset values. -/

namespace Sys2Proof.Machine

/-! ### Named sets -/

/-- R172 and the table of chapter 10. -/
inductive StationState where
  | listen | config | ready | run | halt | fault
  deriving DecidableEq, Repr

/-- R168. -/
inductive Activity where
  | active | standby | muted
  deriving DecidableEq, Repr

/-- R155, R172, R179. -/
inductive ResetCause where
  | power | pin | restart
  deriving DecidableEq, Repr

/-- R180. -/
inductive FaultReason where
  | badRole | dupNode
  deriving DecidableEq, Repr

/-- The roles of ROLE codes 0 to 4 (00 "System Overview"). -/
inductive Role where
  | probe | precise | retest | thermal | sort
  deriving DecidableEq, Repr

/-- R19, R154: class codes 0 to 4 in this order. -/
inductive EntryClass where
  | present | empty | contact | grossLow | grossHigh
  deriving DecidableEq, Repr

/-- R20, R154: quality codes 0 to 8 in this order. -/
inductive Quality where
  | good | contact | overload | stdLow | polarity | timeout | aborted | doubt | noRecipe
  deriving DecidableEq, Repr

/-- R121: reason codes 1 to 14 in this order. Code 15, PASSED, is a tally and no verdict carries it. -/
inductive Reason where
  | noEntry | empty | noRecipe | digest | contact | gross | doubt | noValue | drift | disagree | guardBand | binned | noBin | binFull
  deriving DecidableEq, Repr

/-- R21. -/
inductive OwnStage where
  | none | measuring | done | skipped
  deriving DecidableEq, Repr

/-- R163. -/
inductive Standing where
  | absent | silent | distrusted | doubt | present
  deriving DecidableEq, Repr

/-! ### Index Tracker (chapter 1) -/

structure IndexTracker where
  /-- R2. -/
  count : BitVec 16
  /-- R2: the time of the last index event. -/
  lastIndex : Option Instant
  /-- R5. -/
  retireLimit : Option Nat
  /-- R10: the measurement request. -/
  measReq : Bool
  /-- R10: the firing request. -/
  firingReq : Bool
  /-- R13. -/
  currentPage : Fin 4
  deriving DecidableEq, Repr

/-! ### Unit Table (chapter 2) -/

/-- R19: a page and the digest that came with it; the digest is present exactly when the page is. -/
structure PageStamp where
  page : Fin 4
  digest : BitVec 12
  deriving DecidableEq, Repr

/-- R20: a held VALUE record. -/
structure HeldValue where
  source : Fin 8
  quality : Quality
  deviation : Option Dev
  temperature : Option (BitVec 12)
  flags : ValueFlags
  tcr : Option Dev
  deriving DecidableEq, Repr

/-- R19, R33: the verdict field. A bin `b` is bin index b+1; gate 0 names no gate. -/
structure Verdict where
  reason : Reason
  bin : Option (Fin 16)
  gate : Fin 17
  deriving DecidableEq, Repr

/-- R19: a unit entry. -/
structure Entry where
  tag : BitVec 16
  stamp : Option PageStamp
  cls : Option EntryClass
  coarse : Option Coarse
  cold : Option HeldValue
  retest : Option HeldValue
  hot : Option HeldValue
  assumedPage : Bool
  doubt : Bool
  verdict : Option Verdict
  ownStage : OwnStage
  deriving DecidableEq, Repr

structure UnitTable where
  /-- R18: oldest first. -/
  entries : List Entry
  /-- R30: the last-removed page memory. -/
  lastRemoved : Option PageStamp
  deriving DecidableEq, Repr

/-! ### Measurement Engine (chapter 3) -/

/-- R42: the kind of a context. -/
inductive WorkKind where
  | unit | coarse | check
  deriving DecidableEq, Repr

/-- R42, R49 to R53: the sequence state. CONTACT is told apart by side, with the result of side A; FWD by whether its current is on yet; REV by whether it converts or samples the temperature. COMPUTE begins and ends inside one command (R55). -/
inductive SeqState where
  | settle
  | contactA
  | contactB (aClosed : Bool)
  | fwdWait
  | fwd
  | gap
  | rev
  | sampling
  deriving DecidableEq, Repr

/-- R41: the X and S averages (or sums) of one phase. -/
structure Pair where
  x : Int
  s : Int
  deriving DecidableEq, Repr

/-- R66: how a sequence ended, where it ended early. -/
inductive Ending where
  | contactOne | contactBoth | overload (xHigh : Bool) | timeout | aborted | doubt
  deriving DecidableEq, Repr

/-- R42: the measurement context. -/
structure Ctx where
  kind : WorkKind
  tag : BitVec 16
  stamp : PageStamp
  assumedPage : Bool
  range : BitVec 3
  gain : BitVec 3
  slot : Fin 4
  state : SeqState
  /-- The end of the step that runs: SETTLE, contact test, off interval, conversion, GAP or temperature conversion. -/
  due : Instant
  /-- R41: discards remaining in this phase. -/
  discards : Nat
  kept : Nat
  sums : Pair
  /-- Xf and Sf, once FWD has ended. -/
  fwd : Option Pair
  /-- Xr and Sr, once REV has kept its last conversion. -/
  rev : Option Pair
  temperature : Option (BitVec 12)
  tempAbsent : Bool
  startTime : Instant
  /-- R59: the end of MEAS_LIMIT. -/
  limitDue : Instant
  deriving DecidableEq, Repr

/-- R42, R57. -/
inductive Excitation where
  | off | forward | reverse
  deriving DecidableEq, Repr

/-- R89: RLY0 to RLY3 (at most one closed), RLY4 and RLY5. -/
structure Relays where
  slot : Option (Fin 4)
  unit : Bool
  check : Bool
  deriving DecidableEq, Repr

/-- R89: what the two ADC channels sense: in the unit arrangement X the unit at SA and SB and S the standard at SS1 and SS2; in the check arrangement X the standard at SS1 and SS2 and S the check resistor at CK1 and CK2. -/
inductive Channels where
  | unit | check
  deriving DecidableEq, Repr

structure Engine where
  ctx : Option Ctx
  /-- R42: the most recently used page. -/
  recentPage : Fin 4
  excitation : Excitation
  /-- R57: the instant the excitation last went off. -/
  lastOff : Option Instant
  relays : Relays
  channels : Channels
  deriving DecidableEq, Repr

/-! ### Drift Tracker (chapter 5) -/

/-- R88. -/
structure DriftSlot where
  baseline : Option Dev
  ring : List Dev
  staleness : Nat
  deriving DecidableEq, Repr

/-! ### Recipe Store (chapter 6) -/

/-- R100. -/
inductive PageState where
  | empty | loading | locked
  deriving DecidableEq, Repr

/-- R101: a bin; `index` b is bin index b+1. -/
structure Bin where
  index : Fin 16
  lower : Dev
  upper : Dev
  window : Option (Dev × Dev)
  gate : Fin 17
  capacity : BitVec 16
  deriving DecidableEq, Repr

/-- R100: a page record. -/
structure Page where
  state : PageState
  range : BitVec 3
  gain : BitVec 3
  stdSlot : Fin 4
  gross : BitVec 11
  guardBand : BitVec 23
  agreeLimit : BitVec 23
  tcrDefault : Dev
  tcrMinDt : BitVec 12
  tcrRequired : Bool
  rejectGate : Fin 17
  reworkGate : Fin 17
  overflowGate : Fin 17
  bins : List Bin
  digest : BitVec 12
  deriving DecidableEq, Repr

/-- R100: the contents of an EMPTY page. -/
def Page.cleared : Page :=
  { state := .empty, range := 2, gain := 0, stdSlot := 0, gross := 2047, guardBand := 0, agreeLimit := 0, tcrDefault := Dev.zero,
    tcrMinDt := 160, tcrRequired := false, rejectGate := 0, reworkGate := 0, overflowGate := 0, bins := [], digest := 0 }

/-! ### Gate Scheduler (chapter 7) -/

/-- R120. -/
inductive FiringStage where
  | waiting | delay | pullIn | holding
  deriving DecidableEq, Repr

/-- R120: a pending firing; `gate` g is gate number g+1. -/
structure Firing where
  tag : BitVec 16
  gate : Fin 16
  page : Option (Fin 4)
  stage : FiringStage
  deriving DecidableEq, Repr

/-- R120, R129, R130: a driver record with the ends of its gate's timers. -/
inductive Driver where
  | idle
  | delay (tag : BitVec 16) (delayEnd : Instant)
  | pullIn (tag : BitVec 16) (pullEnd pulseEnd : Instant)
  | holding (tag : BitVec 16) (pulseEnd : Instant)
  deriving DecidableEq, Repr

structure Gates where
  /-- R120: in due order. -/
  firings : List Firing
  drivers : Vector Driver 16
  /-- R121: page, then bin. -/
  binTallies : Vector (Vector (BitVec 16) 16) 4
  /-- R121: code 1 at place 0, to PASSED at place 14. -/
  reasonTallies : Vector (BitVec 16) 15
  deriving DecidableEq, Repr

/-! ### Link Interface (chapter 8) -/

/-- The content of an own ENTRY record (R56, R154). -/
structure EntryRecord where
  tag : BitVec 16
  stamp : PageStamp
  cls : EntryClass
  coarse : Option Coarse
  deriving DecidableEq, Repr

/-- The content of an own VALUE record (R83 to R85). -/
structure ValueRecord where
  tag : BitVec 16
  quality : Quality
  deviation : Option Dev
  temperature : Option (BitVec 12)
  flags : ValueFlags
  tcr : Option Dev
  deriving DecidableEq, Repr

/-- R145, R169, R185: a frame of the transmit queue. The bodies of HAIL and ALERT are filled when the header cell starts. -/
inductive QFrame where
  | entry (r : EntryRecord)
  | value (r : ValueRecord)
  | verdict (tag : BitVec 16) (v : Verdict)
  | alert
  | hail
  | status (body : List Cell)
  deriving DecidableEq, Repr

/-- R145, R146: a queued frame and its waiting count. -/
structure QItem where
  frame : QFrame
  waiting : Nat
  deriving DecidableEq, Repr

/-- R8: what the Index Tracker captures at a frame's start. -/
structure Mark where
  startedAt : Instant
  captured : BitVec 16
  edgeNear : Bool
  deriving DecidableEq, Repr

/-- R141, R148: the own frame on the line, as stamped at its header start (R144). While `won` is false it still stands at the head of the queue. -/
structure Tx where
  won : Bool
  mark : Mark
  frame : QFrame
  cells : List Cell
  deriving DecidableEq, Repr

/-- R143. -/
inductive Deferral where
  | no
  | deferring
  | waiting (due : Instant)
  | waitOver
  deriving DecidableEq, Repr

structure Link where
  queue : List QItem
  tx : Option Tx
  /-- R149: the frame being received. -/
  rx : Option Mark
  /-- R140. -/
  lineIdle : Bool
  /-- R140: where the two cell times without a cell start are measured from: the last cell start known, or the moment RESET went high (assumption 10). -/
  quietSince : Instant
  deferral : Deferral
  /-- R143: the sender of the last frame that ended, as read from the line. -/
  lastSender : Option (BitVec 4)
  deriving DecidableEq, Repr

/-! ### Peer Monitor (chapter 9) -/

/-- R158: a known last offset, 16-bit two's complement, with its agreement mark. -/
structure Offset where
  value : BitVec 16
  agrees : Bool
  deriving DecidableEq, Repr

/-- R158: one row. The silence timer is the time since `heardAt`, once heard; `silenceTaken` says that its 1000 ms expiry has been taken in the present silence (R161). -/
structure PeerRow where
  heard : Bool
  role : Option (BitVec 3)
  position : BitVec 5
  state : BitVec 4
  activity : BitVec 2
  cause : BitVec 2
  digests : Vector (BitVec 12) 4
  heardAt : Instant
  silenceTaken : Bool
  errorScore : BitVec 4
  distrusted : Bool
  offset : Option Offset
  ahead : Bool
  deriving DecidableEq, Repr

/-- R158: a row after hard reset and RESTART. -/
def PeerRow.cleared : PeerRow :=
  { heard := false, role := none, position := 0, state := 0, activity := 0, cause := 0, digests := Vector.replicate 4 0, heardAt := 0,
    silenceTaken := false, errorScore := 0, distrusted := false, offset := none, ahead := false }

/-! ### Run Control (chapter 10) -/

/-- R175: the configuration items, each in its own step units; `gatePos` g is GATE_POS[g+1]. -/
structure Items where
  position : Option Nat
  stdCert : Vector Dev 4
  channelTrim : Dev
  settle : Nat
  gap : Nat
  measLimit : Nat
  osr : Nat
  phaseAvg : Nat
  discard : Nat
  contactLimit : Nat
  offsetLimit : Nat
  minStd : Nat
  driftLimit : Nat
  realignEnable : Bool
  broadcastAlerts : Bool
  gatePos : Vector Nat 16
  fireDelay : Nat
  pullIn : Nat
  pulseWidth : Nat
  holdDuty : Nat
  fallbackGate : Option (Fin 17)
  deriving DecidableEq, Repr

/-- R175: the column "After hard reset". -/
def Items.cleared : Items :=
  { position := none, stdCert := Vector.replicate 4 Dev.zero, channelTrim := Dev.zero, settle := 20, gap := 100, measLimit := 24, osr := 4,
    phaseAvg := 8, discard := 1, contactLimit := 20, offsetLimit := 16, minStd := 256, driftLimit := 0, realignEnable := true,
    broadcastAlerts := false, gatePos := Vector.replicate 16 0, fireDelay := 30, pullIn := 40, pulseWidth := 120, holdDuty := 96,
    fallbackGate := none }

structure RunControl where
  /-- R172: the NODE strap. -/
  node : Fin 8
  /-- R172: the ROLE strap code. -/
  role : BitVec 3
  run : StationState
  faultReason : Option FaultReason
  /-- R178. -/
  drain : Bool
  activity : Activity
  cause : ResetCause
  /-- R173: the end of the LISTEN timer. -/
  listenDue : Option Instant
  /-- R169: the end of the hail timer. -/
  hailDue : Option Instant
  items : Items
  deriving DecidableEq, Repr

/-! ### Alert Unit (chapter 11) -/

/-- R182, R184: position p is bit 32 − p; positions 26 to 32 are held 0 here and read as R182 and R184 state where a copy leaves the station. -/
structure Alerts where
  word : BitVec 32
  mask : BitVec 32
  master : Bool
  deriving DecidableEq, Repr

/-! ### The model's own work space inside one command -/

/-- What one command has offered so far (R145), and the youngest stamped entry it has removed (R30). Empty between commands (assumption 12, assumption 31). -/
structure Work where
  units : List QFrame
  status : List (List Cell)
  hail : Bool
  alert : Bool
  removed : Option (BitVec 16)
  deriving DecidableEq, Repr

/-- Nothing offered, nothing removed. -/
def Work.empty : Work := { units := [], status := [], hail := false, alert := false, removed := none }

/-! ### The state -/

/-- The state of one station. -/
structure State where
  /-- The instant of the command last taken (assumption 1). -/
  now : Instant
  /-- R172: RESET is held low. -/
  resetHeld : Bool
  idx : IndexTracker
  table : UnitTable
  eng : Engine
  drift : Vector DriftSlot 4
  pages : Vector Page 4
  gates : Gates
  link : Link
  peers : Vector PeerRow 8
  ctl : RunControl
  alerts : Alerts
  work : Work
  /-- How often a free value was drawn (assumption 23). -/
  freeDraws : Nat
  /-- The commands that wait, first in, first out. -/
  pending : List Instr
  deriving DecidableEq, Repr

/-- No command of the CKV318 faults: its station state FAULT (R180) is a state and not a stop. -/
inductive Fault where
  deriving DecidableEq, Repr

/-- The one reason for a refusal. -/
inductive Refusal where
  /-- Raised by exec for a command that has no meaning yet: none is left. Safe. -/
  | notModelled (mnemonic : String)
  deriving DecidableEq, Repr

/-! ### Setters, one for each block -/

def State.withNow (s : State) (x : Instant) : State := { s with now := x }
def State.withResetHeld (s : State) (x : Bool) : State := { s with resetHeld := x }
def State.withIdx (s : State) (x : IndexTracker) : State := { s with idx := x }
def State.withTable (s : State) (x : UnitTable) : State := { s with table := x }
def State.withEng (s : State) (x : Engine) : State := { s with eng := x }
def State.withDrift (s : State) (x : Vector DriftSlot 4) : State := { s with drift := x }
def State.withPages (s : State) (x : Vector Page 4) : State := { s with pages := x }
def State.withGates (s : State) (x : Gates) : State := { s with gates := x }
def State.withLink (s : State) (x : Link) : State := { s with link := x }
def State.withPeers (s : State) (x : Vector PeerRow 8) : State := { s with peers := x }
def State.withCtl (s : State) (x : RunControl) : State := { s with ctl := x }
def State.withAlerts (s : State) (x : Alerts) : State := { s with alerts := x }
def State.withWork (s : State) (x : Work) : State := { s with work := x }
def State.withFreeDraws (s : State) (x : Nat) : State := { s with freeDraws := x }
def State.withPending (s : State) (x : List Instr) : State := { s with pending := x }

/-! ### Hard reset contents -/

/-- Every block at its hard reset value (the ADC channels in the unit arrangement: assumption 43), with the straps read as `node`, `role` and `page`, the cause as given, at instant `t`, before the station enters LISTEN or FAULT (R172 steps 1 to 4). -/
def State.cleared (t : Instant) (cause : ResetCause) (node : Fin 8) (role : BitVec 3) (page : Fin 4) : State :=
  { now := t
    resetHeld := false
    idx := { count := 0, lastIndex := none, retireLimit := none, measReq := false, firingReq := false, currentPage := page }
    table := { entries := [], lastRemoved := none }
    eng :=
      { ctx := none, recentPage := page, excitation := .off, lastOff := none, relays := { slot := none, unit := false, check := false },
        channels := .unit }
    drift := Vector.replicate 4 { baseline := none, ring := [], staleness := 0 }
    pages := Vector.replicate 4 Page.cleared
    gates :=
      { firings := [], drivers := Vector.replicate 16 .idle, binTallies := Vector.replicate 4 (Vector.replicate 16 0),
        reasonTallies := Vector.replicate 15 0 }
    link := { queue := [], tx := none, rx := none, lineIdle := false, quietSince := t, deferral := .no, lastSender := none }
    peers := Vector.replicate 8 PeerRow.cleared
    ctl :=
      { node := node, role := role, run := .listen, faultReason := none, drain := false, activity := .active, cause := cause,
        listenDue := none, hailDue := none, items := Items.cleared }
    alerts := { word := 0, mask := 0, master := false }
    work := Work.empty
    freeDraws := 0
    pending := [] }

/-- The machine right after reset: a hard reset at instant 0 by power-on with every strap pin low (assumption 4), the station in LISTEN with the LISTEN and hail timers started and its HAIL in the queue (R172, R173, R169). -/
def State.reset : State :=
  let s := State.cleared 0 .power 0 0 0
  { s with
    ctl := { s.ctl with listenDue := some Config.listenWindow, hailDue := some Config.hailPeriod }
    link := { s.link with queue := [{ frame := .hail, waiting := 0 }] } }

end Sys2Proof.Machine
end

