-- ==== Sys2Proof/Machine/Operands.lean ====
section
/-! DEFINITION. The operand forms of the commands: codes of the layouts against the model's named sets, index and gate numbers, the addressing of console frames, clamps of SETUP and LOAD values, and the views of State that many rules share. -/

namespace Sys2Proof.Machine

/-! ### Codes -/

/-- The valid ROLE codes 0 to 4 (00 "System Overview"). -/
def roleOfCode (c : BitVec 3) : Option Role :=
  match c.toNat with
  | 0 => some .probe
  | 1 => some .precise
  | 2 => some .retest
  | 3 => some .thermal
  | 4 => some .sort
  | _ => none

/-- The ROLE code of a role. -/
def Role.code : Role → BitVec 3
  | .probe => 0
  | .precise => 1
  | .retest => 2
  | .thermal => 3
  | .sort => 4

/-- R154: the class codes. -/
def EntryClass.code : EntryClass → BitVec 3
  | .present => 0
  | .empty => 1
  | .contact => 2
  | .grossLow => 3
  | .grossHigh => 4

/-- R154: the class of a code; codes 5 to 7 are undefined (R151). -/
def classOfCode (c : BitVec 3) : Option EntryClass :=
  match c.toNat with
  | 0 => some .present
  | 1 => some .empty
  | 2 => some .contact
  | 3 => some .grossLow
  | 4 => some .grossHigh
  | _ => none

/-- R154: the quality codes. -/
def Quality.code : Quality → BitVec 4
  | .good => 0
  | .contact => 1
  | .overload => 2
  | .stdLow => 3
  | .polarity => 4
  | .timeout => 5
  | .aborted => 6
  | .doubt => 7
  | .noRecipe => 8

/-- R154: the quality of a code; codes 9 to 15 are undefined (R151). -/
def qualityOfCode (c : BitVec 4) : Option Quality :=
  match c.toNat with
  | 0 => some .good
  | 1 => some .contact
  | 2 => some .overload
  | 3 => some .stdLow
  | 4 => some .polarity
  | 5 => some .timeout
  | 6 => some .aborted
  | 7 => some .doubt
  | 8 => some .noRecipe
  | _ => none

/-- R121: the place of a reason's tally, its code less one. -/
def Reason.place : Reason → Fin 15
  | .noEntry => 0
  | .empty => 1
  | .noRecipe => 2
  | .digest => 3
  | .contact => 4
  | .gross => 5
  | .doubt => 6
  | .noValue => 7
  | .drift => 8
  | .disagree => 9
  | .guardBand => 10
  | .binned => 11
  | .noBin => 12
  | .binFull => 13

/-- R121: the place of the PASSED tally, code 15. -/
def passedPlace : Fin 15 := 14

/-- R121: the code of a reason. -/
def Reason.code (r : Reason) : BitVec 4 := BitVec.ofNat 4 (r.place.val + 1)

/-- R144: the state code a station reports; 6 is RUN with a DRAIN taken and the halt not yet reached. -/
def stateCode (st : StationState) (drain : Bool) : BitVec 4 :=
  match st with
  | .listen => 0
  | .config => 1
  | .ready => 2
  | .run => if drain then 6 else 3
  | .halt => 4
  | .fault => 5

/-- R144: the activity codes. -/
def Activity.code : Activity → BitVec 2
  | .active => 0
  | .standby => 1
  | .muted => 2

/-- R155: the reset cause codes. -/
def ResetCause.code : ResetCause → BitVec 2
  | .power => 0
  | .pin => 1
  | .restart => 2

/-- R157: the standing codes. -/
def Standing.code : Standing → BitVec 3
  | .absent => 0
  | .silent => 1
  | .distrusted => 2
  | .doubt => 3
  | .present => 4

/-- R157: the own stage codes. -/
def OwnStage.code : OwnStage → BitVec 2
  | .none => 0
  | .measuring => 1
  | .done => 2
  | .skipped => 3

/-! ### Numbers of pages, bins, gates and nodes -/

/-- A two-bit page field. -/
def pageOfBits (b : BitVec 2) : Fin 4 := ⟨b.toNat, b.isLt⟩

/-- A page field of four bits; a number above 3 names no page (R102). -/
def pageOfField (b : BitVec 4) : Option (Fin 4) := if h : b.toNat < 4 then some ⟨b.toNat, h⟩ else none

/-- A node strap. -/
def nodeOfStrap (b : BitVec 3) : Fin 8 := ⟨b.toNat, b.isLt⟩

/-- A bin index 1 to 16, held less one; 0 and above 16 name no bin (R105, R134). -/
def binOfIndex (n : Nat) : Option (Fin 16) := if h : 1 ≤ n ∧ n ≤ 16 then some ⟨n - 1, by omega⟩ else none

/-- The bin index of a held bin place. -/
def binIndex (b : Fin 16) : Nat := b.val + 1

/-- A gate number clamped to 0 to 16 (R103, R104). -/
def clampGate (n : Nat) : Fin 17 := ⟨min 16 n, by omega⟩

/-- The output a gate number names; 0 names none (00 "Pin summary"). -/
def gateOutput (g : Fin 17) : Option (Fin 16) := if h : 1 ≤ g.val then some ⟨g.val - 1, by omega⟩ else none

/-- The gate number of an output. -/
def gateNumber (g : Fin 16) : Fin 17 := ⟨g.val + 1, by omega⟩

/-- The station row a header's sender field names: 0 to 7 (00 "Conventions", R151). -/
def stationOfSender (b : BitVec 4) : Option (Fin 8) := if h : b.toNat < 8 then some ⟨b.toNat, h⟩ else none

/-- The node of a station as a sender field. -/
def senderOfNode (n : Fin 8) : BitVec 4 := BitVec.ofNat 4 n.val

/-- The eight nodes, lowest first. -/
def allNodes : List (Fin 8) := [0, 1, 2, 3, 4, 5, 6, 7]

/-- The four pages and the four standard slots. -/
def allPages : List (Fin 4) := [0, 1, 2, 3]

/-- The sixteen gate outputs. -/
def allGates : List (Fin 16) := [0, 1, 2, 3, 4, 5, 6, 7, 8, 9, 10, 11, 12, 13, 14, 15]

/-! ### Clamps (R103, R175) -/

/-- An unsigned item or parameter: a negative value, −0 included, takes the lower limit; others are brought within `lo` to `hi`. -/
def clampUnsigned (lo hi : Nat) (v : Dev) : Nat := if v.neg then lo else max lo (min hi v.mag.toNat)

/-- A signed item: a magnitude above `lim` takes `lim` with the sign. -/
def clampSigned (lim : Nat) (v : Dev) : Dev := { neg := v.neg, mag := BitVec.ofNat 23 (min lim v.mag.toNat) }

/-- R175: a GATE_POS value. 0 is held as 0, −0 too (assumption 20); any other value is clamped to POSITION + 1 to 31, or to 1 to 31 while POSITION is absent, a negative one to the lower limit. -/
def clampGatePos (position : Option Nat) (v : Dev) : Nat :=
  if v.mag.toNat = 0 then 0 else min 31 (max (position.getD 0 + 1) (if v.neg then 0 else v.mag.toNat))

/-! ### Views of State -/

/-- The strapped role, when its code is valid. -/
def State.role (s : State) : Option Role := roleOfCode s.ctl.role

/-- The own position (R4). -/
def State.position (s : State) : Option Nat := s.ctl.items.position

/-- The page record of a page number. -/
def State.page (s : State) (p : Fin 4) : Page := s.pages[p]

/-- A page is LOCKED at this station. -/
def State.locked (s : State) (p : Fin 4) : Bool := (s.page p).state == .locked

/-- Whether some page is LOCKED (R177). -/
def State.anyLocked (s : State) : Bool := allPages.any s.locked

/-- R111: the digest PROBE stamps: the page's digest when LOCKED, else 0. -/
def State.stampDigest (s : State) (p : Fin 4) : BitVec 12 := if s.locked p then (s.page p).digest else 0

/-- A header sender field that names a console node, 8 to 15. -/
def isConsole (sender : BitVec 4) : Bool := decide (8 ≤ sender.toNat)

/-- R151: a console frame goes on when a console node sent it and its target names this station or is 15. -/
def State.addressed (s : State) (h : ConsoleHead) : Bool :=
  isConsole h.frame.sender && (h.target == senderOfNode s.ctl.node || h.target == 15)

/-- R5: the retire limit from the role, POSITION and the GATE_POS items. -/
def retireLimitOf (role : BitVec 3) (items : Items) : Option Nat :=
  match items.position with
  | none => none
  | some p => if roleOfCode role = some .sort then some (items.gatePos.toList.foldl max p) else some p

/-- R6: the position of a tag under the count held. -/
def State.posOf (s : State) (tag : BitVec 16) : Nat := (s.idx.count - tag).toNat

/-- R6: the classes of a position. -/
inductive PosClass where
  | inRange | late | ahead
  deriving DecidableEq, Repr

/-- R6: the class of a tag. -/
def State.classify (s : State) (tag : BitVec 16) : PosClass :=
  let p := s.posOf tag
  if 32768 ≤ p then .ahead
  else
    match s.idx.retireLimit with
    | none => .late
    | some r => if p ≤ r then .inRange else .late

/-- The entry held for a tag (R18). -/
def State.entryOf (s : State) (tag : BitVec 16) : Option Entry := s.table.entries.find? (fun e => e.tag == tag)

/-- The pending firing for a tag (R120). -/
def State.firingOf (s : State) (tag : BitVec 16) : Option Firing := s.gates.firings.find? (fun f => f.tag == tag)

/-- R109: a page is referred to by an entry, a pending firing or the measurement context. -/
def State.pageInUse (s : State) (p : Fin 4) : Bool :=
  s.table.entries.any (fun e => match e.stamp with | some st => st.page == p | none => false)
    || s.gates.firings.any (fun f => f.page == some p)
    || (match s.eng.ctx with | some c => c.stamp.page == p | none => false)

end Sys2Proof.Machine
end

