-- ==== Sys2Proof/Machine/Flags.lean ====
section
/-! DEFINITION. The Alert Unit's flags (chapter 11): the 25 positions, raising, the standing of peers and the level conditions. -/

namespace Sys2Proof.Machine

/-- R182: the assigned positions 1 to 25, in order. -/
inductive AlertFlag where
  | dupNode | badRole | configIncomplete | runRefused | consoleError | pageLockRefused | pageInUse | peerSilent | peerDistrusted
  | indexDoubt | indexRealign | txqOverflow | frameStale | measTimeout | measAbort | overload | stdLow | driftLimit | driftStale
  | tempFault | binFull | unitLate | gateOverrun | gateMissed | takeover
  deriving DecidableEq, Repr

/-- R182: the position of a flag. -/
def AlertFlag.pos : AlertFlag → Nat
  | .dupNode => 1
  | .badRole => 2
  | .configIncomplete => 3
  | .runRefused => 4
  | .consoleError => 5
  | .pageLockRefused => 6
  | .pageInUse => 7
  | .peerSilent => 8
  | .peerDistrusted => 9
  | .indexDoubt => 10
  | .indexRealign => 11
  | .txqOverflow => 12
  | .frameStale => 13
  | .measTimeout => 14
  | .measAbort => 15
  | .overload => 16
  | .stdLow => 17
  | .driftLimit => 18
  | .driftStale => 19
  | .tempFault => 20
  | .binFull => 21
  | .unitLate => 22
  | .gateOverrun => 23
  | .gateMissed => 24
  | .takeover => 25

/-- The word with only this flag set: position p is bit 32 − p (R153, R182). -/
def AlertFlag.bit (f : AlertFlag) : BitVec 32 := 1#32 <<< (32 - f.pos)

/-- The positions 1 to 25 (R182). -/
def assignedMask : BitVec 32 := 0xFFFFFF80#32

/-- Whether a flag is set in a word. -/
def flagIn (w : BitVec 32) (f : AlertFlag) : Bool := w.getLsbD (32 - f.pos)

/-- R182: the alert word as it leaves the station, positions 26 to 32 reading as 1. -/
def State.wordOut (s : State) : BitVec 32 := s.alerts.word ||| ~~~assignedMask

/-- R182, R185: raise a flag. A clear flag is set, and an ALERT frame is offered when BROADCAST_ALERTS is 1 and the flag's mask bit is on. -/
def raise (f : AlertFlag) (s : State) : State :=
  if flagIn s.alerts.word f then s
  else
    let a := { s.alerts with word := s.alerts.word ||| f.bit }
    if s.ctl.items.broadcastAlerts && flagIn s.alerts.mask f then (s.withAlerts a).withWork { s.work with alert := true }
    else s.withAlerts a

/-- Raise a flag when `c` holds. -/
def raiseIf (c : Bool) (f : AlertFlag) (s : State) : State := if c then raise f s else s

/-! ### Standing of a peer (section 9.3) -/

/-- R158, R161: the silence timer of a row in ms, held at 4095. -/
def silenceMs (now : Instant) (r : PeerRow) : Nat :=
  if r.heard then min Config.silenceHold ((now - r.heardAt) / ms 1) else 0

/-- R163: the standing of a row. -/
def standing (now : Instant) (r : PeerRow) : Standing :=
  if !r.heard then .absent
  else if Config.silenceLimit ≤ now - r.heardAt then .silent
  else if r.distrusted then .distrusted
  else if r.ahead || (match r.offset with | some o => !o.agrees | none => false) then .doubt
  else .present

/-- The standing of a node's row. -/
def State.standing (s : State) (n : Fin 8) : Standing := Machine.standing s.now s.peers[n]

/-! ### Drift correction and level conditions -/

/-- R101, R121: the tally of a bin of a page. -/
def State.binTally (s : State) (p : Fin 4) (b : Fin 16) : BitVec 16 := (s.gates.binTallies[p])[b]

/-- R133: a written bin is full. -/
def State.binIsFull (s : State) (p : Fin 4) (b : Bin) : Bool := b.capacity != 0 && s.binTally p b.index == b.capacity

/-- R133: some bin of some page is full. -/
def State.anyBinFull (s : State) : Bool := allPages.any (fun p => (s.page p).bins.any (s.binIsFull p))

end Sys2Proof.Machine
end

