-- ==== Sys2Proof/Machine/Arith.lean ====
section
/-! DEFINITION. Result Arithmetic (chapter 4) and the drift correction (R93): exact integers, every division rounded half away from zero (00 "Rounding"), zeros signed as the stages state. The 64-bit intermediates of R65 hold every value that can arise, so the integers here are unbounded (assumption 7). -/

namespace Sys2Proof.Machine

/-! ### Rounding and saturation -/

/-- A rounded quotient before saturation, with the sign of its exact value. -/
structure SignMag where
  neg : Bool
  mag : Nat
  deriving DecidableEq, Repr

/-- The integer a signed quotient stands for. -/
def SignMag.toInt (q : SignMag) : Int := if q.neg then -(q.mag : Int) else (q.mag : Int)

/-- 00 "Rounding", R65: `n` divided by `d`, half away from zero. A negative exact value that rounds to 0 is −0; numerator 0 gives +0. -/
def roundDiv (n d : Int) : SignMag :=
  let q := n.natAbs / d.natAbs
  let r := n.natAbs % d.natAbs
  { neg := n != 0 && (decide (n < 0) != decide (d < 0)), mag := if d.natAbs ≤ 2 * r then q + 1 else q }

/-- R65: a deviation or TCR brought within ±8,388,607 with its sign. -/
def SignMag.toDev (q : SignMag) : Dev := { neg := q.neg, mag := BitVec.ofNat 23 (min Config.devMax q.mag) }

/-- Whether bringing a quotient within range saturates it. -/
def SignMag.saturates (q : SignMag) : Bool := decide (Config.devMax < q.mag)

/-- An integer as sign and magnitude; 0 is +0 (R65). -/
def signMagOfInt (z : Int) : SignMag := { neg := decide (z < 0), mag := z.natAbs }

/-- R41: a sum of kept codes divided by their number, rounded half away from zero. -/
def phaseAverage (sum : Int) (n : Nat) : Int := (roundDiv sum n).toInt

/-! ### Order and distance (00 "Minus zero") -/

/-- The place of a deviation in the order … < −1 < −0 < +0 < +1 < …. -/
def devKey (d : Dev) : Int := if d.neg then -(d.mag.toNat : Int) - 1 else (d.mag.toNat : Int)

/-- The order of deviations, in which −0 lies below +0. -/
def devLe (a b : Dev) : Bool := decide (devKey a ≤ devKey b)

/-- The distance of two deviations, both zeros counted as 0. -/
def devDistance (a b : Dev) : Nat := (a.toInt - b.toInt).natAbs

/-! ### Stages A to D -/

/-- R67: the sums of Stage A. -/
structure Reversal where
  sx : Int
  ss : Int
  ox : Int
  deriving DecidableEq, Repr

/-- R67. -/
def stageA (fwd rev : Pair) : Reversal := { sx := fwd.x - rev.x, ss := fwd.s - rev.s, ox := fwd.x + rev.x }

/-- R67: the offset test; OFFSET_LIMIT 0 makes none. -/
def suspectOf (offsetLimit : Nat) (a : Reversal) : Bool := offsetLimit != 0 && decide (64 * offsetLimit < a.ox.natAbs)

/-- R68: the outcomes of Stage B. -/
inductive Validity where
  | stdLow | polarity | pass
  deriving DecidableEq, Repr

/-- R68: Ss first, Sx second. -/
def stageB (minStd : Nat) (a : Reversal) : Validity :=
  if a.ss < (minStd * 4096 : Nat) then .stdLow else if a.sx ≤ 0 then .polarity else .pass

/-- R69: the raw quotient; N is Sx minus Ss times 10,000,000. -/
def stageC (a : Reversal) : SignMag := roundDiv ((a.sx - a.ss) * 10000000) a.ss

/-- R70: one term of the correction, clamped to ±500,000. -/
def correctionTerm (d : Dev) : Int := max (-(Config.termMax : Int)) (min (Config.termMax : Int) d.toInt)

/-- R70: the correction c; an absent k counts as +0. -/
def correction (cert trim : Dev) (k : Option Dev) : Int :=
  correctionTerm cert + correctionTerm trim + correctionTerm (k.getD Dev.zero)

/-- R71: the cross term x. -/
def crossTerm (dRaw : Dev) (c : Int) : SignMag := roundDiv (dRaw.toInt * c) 10000000

/-- R71: the sum of d_raw, c and x before saturation. A zero sum is −0 exactly when x is −0. -/
def stageD (dRaw : Dev) (c : Int) : SignMag :=
  let x := crossTerm dRaw c
  let sum := dRaw.toInt + c + x.toInt
  if sum = 0 then { neg := x.neg && x.mag == 0, mag := 0 } else signMagOfInt sum

/-! ### Stage E -/

/-- A held record's deviation when its quality is GOOD. -/
def HeldValue.good (v : HeldValue) : Option Dev := if v.quality = .good then v.deviation else none

/-- R73: the cold side of Stage E: deviation and temperature, from the retest record when GOOD with a temperature, else from a GOOD cold record. -/
def coldSide (e : Option Entry) : Option (Dev × Option (BitVec 12)) :=
  match e with
  | none => none
  | some e =>
    let retest :=
      match e.retest with
      | some v => (match v.good, v.temperature with | some d, some t => some (d, some t) | _, _ => none)
      | none => none
    match retest with
    | some r => some r
    | none =>
      match e.cold with
      | some v => (match v.good with | some d => some (d, v.temperature) | none => none)
      | none => none

/-- R74: the coefficient before saturation, absent when the cold side or a temperature is, or when ΔT is below TCR_MIN_DT. -/
def stageE (tcrMinDt : BitVec 12) (dh : Dev) (th : Option (BitVec 12)) (cold : Option (Dev × Option (BitVec 12))) : Option SignMag :=
  match cold, th with
  | some (dc, some tc), some th =>
    let dt : Int := (th.toNat : Int) - tc.toNat
    if dt < tcrMinDt.toNat ∨ dt ≤ 0 then none else some (roundDiv ((dh.toInt - dc.toInt) * 16) dt)
  | _, _ => none

/-! ### Stages F to H -/

/-- R76: d25 is dc minus q. A q of magnitude 0 leaves dc with its own sign; otherwise a zero difference is +0. -/
def applyShift (dc : Dev) (q : SignMag) : Dev :=
  let q := q.toDev
  if q.mag = 0 then dc else (signMagOfInt (dc.toInt - q.toInt)).toDev

/-- R76: the default form, with TCR_DEFAULT; an absent temperature shifts by +0. -/
def normaliseDefault (p : Page) (dc : Dev) (tc : Option (BitVec 12)) : Dev :=
  match tc with
  | none => applyShift dc ⟨false, 0⟩
  | some t => applyShift dc (roundDiv (p.tcrDefault.toInt * ((t.toNat : Int) - 400)) 16)

/-- R75: the shift of the measured form, when it may be used. -/
def measuredShift (p : Page) (dc : Dev) (tc : Option (BitVec 12)) (hot : Option HeldValue) : Option SignMag :=
  match hot, tc with
  | some h, some t =>
    match h.good, h.tcr, h.temperature with
    | some dh, some _, some th =>
      let dt : Int := (th.toNat : Int) - t.toNat
      if dt < p.tcrMinDt.toNat ∨ dt ≤ 0 then none else some (roundDiv ((dh.toInt - dc.toInt) * ((t.toNat : Int) - 400)) dt)
    | _, _, _ => none
  | _, _ => none

/-- R75, R76, R80: the measured form where R75 allows it, else the default form. -/
def normaliseChosen (p : Page) (dc : Dev) (tc : Option (BitVec 12)) (hot : Option HeldValue) : Dev :=
  match measuredShift p dc tc hot with
  | some q => applyShift dc q
  | none => normaliseDefault p dc tc

/-- R77: Stage G; true is agree. -/
def stageG (p : Page) (cold retest : Option HeldValue) : Bool :=
  match cold, retest with
  | some c, some r =>
    match c.good, r.good with
    | some dc, some dr =>
      p.agreeLimit == 0 || decide (devDistance (normaliseDefault p dc c.temperature) (normaliseDefault p dr r.temperature) ≤ p.agreeLimit.toNat)
    | _, _ => true
  | _, _ => true

/-- R78: Stage H; true is near. -/
def stageH (p : Page) (d25 : Dev) : Bool :=
  p.guardBand != 0
    && p.bins.any (fun b => decide (devDistance d25 b.lower ≤ p.guardBand.toNat) || decide (devDistance d25 b.upper ≤ p.guardBand.toNat))

/-! ### The SORT station's working values (R80) -/

/-- R80: the chosen value with its record, and whether it came from RETEST. -/
structure Chosen where
  deviation : Dev
  record : HeldValue
  fromRetest : Bool
  deriving DecidableEq, Repr

/-- R80: the retest record when GOOD, else the cold record when GOOD, else none. -/
def chosenValue (e : Entry) : Option Chosen :=
  match e.retest.bind (fun v => v.good.map (fun d => Chosen.mk d v true)) with
  | some c => some c
  | none => e.cold.bind (fun v => v.good.map (fun d => Chosen.mk d v false))

/-- R80: α, the TCR of a GOOD hot record. -/
def alphaOf (e : Entry) : Option Dev :=
  match e.hot with
  | some h => if h.quality = .good then h.tcr else none
  | none => none

/-! ### The coarse value (R81, R82) -/

/-- R81: the coarse value, saturated at ±2047. -/
def coarseValue (f : Pair) : Coarse :=
  let q := roundDiv ((f.x - f.s) * 10000) f.s
  { neg := q.neg, mag := BitVec.ofNat 11 (min Config.coarseMax q.mag) }

/-- R82: class and coarse value, and whether STD_LOW is raised. -/
def coarseOutcome (minStd : Nat) (gross : BitVec 11) (f : Pair) : EntryClass × Coarse × Bool :=
  if f.s < (minStd * 4096 : Nat) then
    if 0 ≤ f.x - f.s then (.grossHigh, ⟨false, 2047⟩, true) else (.grossLow, ⟨true, 2047⟩, true)
  else
    let c := coarseValue f
    if gross.toNat < c.mag.toNat then (if c.neg then (.grossLow, c, false) else (.grossHigh, c, false)) else (.present, c, false)

/-! ### The drift correction (chapter 5) -/

/-- R93: k, the rounded mean of the ring; absent when the ring is empty. -/
def driftK (ring : List Dev) : Option Dev :=
  if ring.isEmpty then none else some (roundDiv (ring.map Dev.toInt).sum ring.length).toDev

/-- R94, R95: the over-limit condition, with k before the clamp of Stage D. -/
def overLimit (driftLimit : Nat) (ring : List Dev) : Bool :=
  driftLimit != 0 && (match driftK ring with | some k => decide (driftLimit < k.mag.toNat) | none => false)

/-- R97: the stale condition of a slot. -/
def isStale (d : DriftSlot) : Bool := decide (Config.staleLimit ≤ d.staleness)

/-- R91, R92: an accepted check enters a sample; the first captures the baseline with a sample of +0. -/
def acceptCheck (dCheck : Dev) (d : DriftSlot) : DriftSlot :=
  match d.baseline with
  | none => { baseline := some dCheck, ring := [Dev.zero], staleness := 0 }
  | some b =>
    let sample := (signMagOfInt (dCheck.toInt - b.toInt)).toDev
    let ring := d.ring ++ [sample]
    { baseline := some b, ring := if Config.ringCapacity < ring.length then ring.tail else ring, staleness := 0 }

/-- R96: one more index event. -/
def countStale (d : DriftSlot) : DriftSlot := { d with staleness := min Config.staleLimit (d.staleness + 1) }

end Sys2Proof.Machine
end

