-- ==== Sys2Proof/Machine/Ops.lean ====
section
/-! DEFINITION. The operations that many commands share: small updates of one block, offers to the transmit queue (R145), the Unit Table (chapter 2), tallies (R121), and changes of station state and activity with the HAIL they offer (R169). -/

namespace Sys2Proof.Machine

/-! ### Requests, offers, state changes -/

/-- R10: set or clear the measurement request. -/
def setMeasReq (b : Bool) (s : State) : State := s.withIdx { s.idx with measReq := b }

/-- R10: set or clear the firing request. -/
def setFiringReq (b : Bool) (s : State) : State := s.withIdx { s.idx with firingReq := b }

/-- R145: offer a unit record. -/
def offerUnit (f : QFrame) (s : State) : State := s.withWork { s.work with units := s.work.units ++ [f] }

/-- R145, R157: offer the STATUS frames of one reply. -/
def offerStatus (bodies : List (List Cell)) (s : State) : State := s.withWork { s.work with status := s.work.status ++ bodies }

/-- R169: offer a HAIL; each one offered restarts the hail timer. -/
def offerHail (s : State) : State :=
  (s.withWork { s.work with hail := true }).withCtl { s.ctl with hailDue := some (s.now + Config.hailPeriod) }

/-- R169: change the station state and the drain mark; a change of the state code offers a HAIL. -/
def setStation (st : StationState) (drain : Bool) (s : State) : State :=
  let changed := stateCode st drain != stateCode s.ctl.run s.ctl.drain
  let s := s.withCtl { s.ctl with run := st, drain := drain }
  if changed then offerHail s else s

/-- R167, R169: change the activity; a change offers a HAIL. -/
def setActivity (a : Activity) (s : State) : State :=
  if s.ctl.activity = a then s else offerHail (s.withCtl { s.ctl with activity := a })

/-! ### Transmit queue removals (R146, R147) -/

/-- R147: ENTRY, VALUE and VERDICT are the unit records. -/
def QFrame.isUnit : QFrame → Bool
  | .entry _ | .value _ | .verdict _ _ => true
  | .alert | .hail | .status _ => false

/-- Keep the queued frames that `keep` names. When the head goes while its header cell is on the line, the station stops driving at once (R146, R147) and follows the line from that header's start as a receiver (R149). -/
def keepQueued (keep : QItem → Bool) (s : State) : State :=
  let headGone := match s.link.queue with | q :: _ => !keep q | [] => false
  let stop := match s.link.tx with | some x => !x.won && headGone | none => false
  s.withLink
    { s.link with
      queue := s.link.queue.filter keep
      tx := if stop then none else s.link.tx
      rx := if stop then s.link.tx.map Tx.mark else s.link.rx }

/-! ### Tallies (R121) -/

/-- R121: a tally stays at 65535. -/
def tallyAdd (v : BitVec 16) (n : Nat) : BitVec 16 := BitVec.ofNat 16 (min 65535 (v.toNat + n))

/-- Add to a reason tally. -/
def countReason (place : Fin 15) (n : Nat) (s : State) : State :=
  s.withGates { s.gates with reasonTallies := s.gates.reasonTallies.set place (tallyAdd s.gates.reasonTallies[place] n) }

/-- Set a bin tally. -/
def setBinTally (p : Fin 4) (b : Fin 16) (v : BitVec 16) (s : State) : State :=
  s.withGates { s.gates with binTallies := s.gates.binTallies.set p ((s.gates.binTallies[p]).set b v) }

/-- R133: after a tally was set to 0, BIN_FULL is cleared when no bin of any page is full. -/
def settleBinFull (s : State) : State :=
  if s.anyBinFull then s else s.withAlerts { s.alerts with word := s.alerts.word &&& ~~~AlertFlag.binFull.bit }

/-! ### Unit Table -/

/-- R18, R29: place an entry in tag order, oldest (highest position) first. -/
def insertEntry (pos : BitVec 16 → Nat) (e : Entry) : List Entry → List Entry
  | [] => [e]
  | x :: xs => if pos e.tag < pos x.tag then x :: insertEntry pos e xs else e :: x :: xs

/-- Add an entry to the table. -/
def addEntry (e : Entry) (s : State) : State := s.withTable { s.table with entries := insertEntry s.posOf e s.table.entries }

/-- Change the entry held for a tag. -/
def modifyEntry (tag : BitVec 16) (f : Entry → Entry) (s : State) : State :=
  s.withTable { s.table with entries := s.table.entries.map (fun e => if e.tag == tag then f e else e) }

/-- R19: an entry with every optional field absent. -/
def Entry.blank (tag : BitVec 16) (stage : OwnStage) : Entry :=
  { tag := tag, stamp := none, cls := none, coarse := none, cold := none, retest := none, hot := none, assumedPage := false, doubt := false,
    verdict := none, ownStage := stage }

/-- R21: the own stage of the entry of a tag. -/
def setStage (tag : BitVec 16) (st : OwnStage) (s : State) : State := modifyEntry tag (fun e => { e with ownStage := st }) s

/-- R29, R30: the page of an entry came from an ENTRY: present, and not assumed. -/
def Entry.stamped (e : Entry) : Option PageStamp := if e.assumedPage then none else e.stamp

/-- R124: a removed entry without a verdict, beyond the SORT position and not ahead. -/
def State.passes (s : State) (e : Entry) : Bool :=
  match s.role, s.position with
  | some .sort, some p => e.verdict == none && decide (p + 1 ≤ s.posOf e.tag) && decide (s.posOf e.tag ≤ 32767)
  | _, _ => false

/-- R30: the last-removed page memory after `out` has been removed: the page of the youngest stamped entry that this command removes. -/
def rememberRemoved (out : List Entry) (s : State) : State :=
  match (out.filter (fun e => e.stamped.isSome)).getLast? with
  | none => s
  | some e =>
    let older := match s.work.removed with | some t => decide (s.posOf t ≤ s.posOf e.tag) | none => false
    if older then s else (s.withTable { s.table with lastRemoved := e.stamped }).withWork { s.work with removed := some e.tag }

/-- R34, R35, R124: remove the entries `gone` names, with the last-removed page memory and the PASSED tally. -/
def removeEntries (gone : Entry → Bool) (s : State) : State :=
  let out := s.table.entries.filter gone
  let s1 := rememberRemoved out s
  let n := out.countP s.passes
  let s2 := if n = 0 then s1 else countReason passedPlace n s1
  s2.withTable { s2.table with entries := s.table.entries.filter (fun e => !gone e) }

/-- Remove the entry of a tag (R35). -/
def removeTag (tag : BitVec 16) (s : State) : State := removeEntries (fun e => e.tag == tag) s

/-- R5, R34, R35: recompute the retire limit and remove the entries beyond it. -/
def recomputeRetire (s : State) : State :=
  let lim := retireLimitOf s.ctl.role s.ctl.items
  let s := s.withIdx { s.idx with retireLimit := lim }
  match lim with
  | none => s
  | some r => removeEntries (fun e => decide (r < s.posOf e.tag)) s

/-- R25, R31: an ENTRY in range creates an entry, fills one without class, or is ignored. -/
def putEntryRecord (r : EntryRecord) (s : State) : State :=
  match s.entryOf r.tag with
  | none => addEntry { Entry.blank r.tag .none with stamp := some r.stamp, cls := some r.cls, coarse := r.coarse } s
  | some e =>
    if e.cls = none then
      modifyEntry r.tag (fun e => { e with stamp := some r.stamp, cls := some r.cls, coarse := r.coarse, assumedPage := false }) s
    else s

/-- R20: the slots of the measuring roles. -/
inductive Slot where
  | cold | retest | hot
  deriving DecidableEq, Repr

/-- R20: the slot of a producer's role; PROBE and SORT have none. -/
def slotOfRole : Role → Option Slot
  | .precise => some .cold
  | .retest => some .retest
  | .thermal => some .hot
  | .probe | .sort => none

/-- The record an entry holds in a slot. -/
def Entry.slot (e : Entry) : Slot → Option HeldValue
  | .cold => e.cold
  | .retest => e.retest
  | .hot => e.hot

/-- R32: fill a slot that holds no record. -/
def Entry.fillSlot (e : Entry) (k : Slot) (v : HeldValue) : Entry :=
  if (e.slot k).isSome then e
  else
    match k with
    | .cold => { e with cold := some v }
    | .retest => { e with retest := some v }
    | .hot => { e with hot := some v }

/-- R20: a held record of a slot: outside the hot slot it has no TCR and no TCR_ABSENT (assumption 17). -/
def HeldValue.forSlot (v : HeldValue) : Slot → HeldValue
  | .hot => v
  | .cold | .retest => { v with tcr := none, flags := { v.flags with tcrAbsent := false } }

/-- R26, R32: a VALUE in range creates an entry, fills its slot, or is ignored. -/
def putValue (tag : BitVec 16) (k : Slot) (v : HeldValue) (s : State) : State :=
  match s.entryOf tag with
  | none => addEntry ((Entry.blank tag .none).fillSlot k (v.forSlot k)) s
  | some _ => modifyEntry tag (fun e => e.fillSlot k (v.forSlot k)) s

/-- R29: the assumed page: the youngest entry with a stamped page, else the last-removed page memory. -/
def State.assumedStamp (s : State) : Option PageStamp :=
  match s.table.entries.reverse.find? (fun e => e.stamped.isSome) with
  | some e => e.stamped
  | none => s.table.lastRemoved

/-! ### Draining (R178) -/

/-- R46: RETEST measures an entry with a cold record carrying NEAR or SUSPECT, or one of class PRESENT with no cold record. -/
def retestMeasures (e : Entry) : Bool :=
  match e.cold with
  | some c => c.flags.near || c.flags.suspect
  | none => e.cls == some .present

/-- R178: the role would take work on the entry as it stands. -/
def wouldWork (role : Role) (e : Entry) : Bool :=
  match role with
  | .precise | .thermal => e.cls == none || e.cls == some .present || e.cls == some .empty
  | .retest => retestMeasures e || e.cls == some .empty
  | .probe | .sort => false

/-- R178: an entry still awaits the station. -/
def State.awaits (s : State) (e : Entry) : Bool :=
  match s.role, s.position with
  | some r, some p => decide (s.posOf e.tag ≤ p) && e.ownStage == .none && wouldWork r e
  | _, _ => false

/-- R178: while the drain mark is set and no entry awaits, the mark is cleared and the station enters HALT. -/
def drainTest (s : State) : State :=
  if s.ctl.drain && s.ctl.run == .run && !s.table.entries.any s.awaits then setStation .halt false s else s

/-! ### Level conditions (R183) -/

/-- R164, R95, R97, R133: whether the condition of a level flag stands. -/
def State.levelStands (s : State) : AlertFlag → Bool
  | .peerSilent => allNodes.any (fun n => s.standing n == .silent)
  | .peerDistrusted => allNodes.any (fun n => (s.peers[n]).distrusted)
  | .indexDoubt => allNodes.any (fun n => s.standing n == .doubt)
  | .driftLimit => allPages.any (fun k => overLimit s.ctl.items.driftLimit (s.drift[k]).ring)
  | .driftStale => s.locked s.eng.recentPage && isStale s.drift[(s.page s.eng.recentPage).stdSlot]
  | .binFull => s.anyBinFull
  | _ => false

/-- R182: the level flags. -/
def levelFlags : List AlertFlag := [.peerSilent, .peerDistrusted, .indexDoubt, .driftLimit, .driftStale, .binFull]

/-- R183: raise every level flag whose condition stands. It is called at the end of a command and at the peer tests, so a condition that begins and ends in between raises nothing (assumption 13). -/
def refreshLevels (s : State) : State := levelFlags.foldl (fun a f => raiseIf (s.levelStands f) f a) s

/-- R183: the flags a CLEAR cannot clear now. -/
def State.heldFlags (s : State) : BitVec 32 := levelFlags.foldl (fun w f => if s.levelStands f then w ||| f.bit else w) 0

end Sys2Proof.Machine
end

