-- ==== Sys2Proof/Machine/Frames.lean ====
section
/-! DEFINITION. The frames this station sends: the kind and body of each queued frame as it stands when its header cell starts (R144, R154, R155, R169, R185), and the STATUS bodies of the QUERY items (R157, R186, R187, R39, R99). -/

namespace Sys2Proof.Machine

/-- R139: the kind code of a queued frame. -/
def QFrame.kind : QFrame → BitVec 4
  | .entry _ => 0
  | .value _ => 1
  | .verdict _ _ => 3
  | .alert => 4
  | .hail => 5
  | .status _ => 15

/-- R154: an own ENTRY record as a body. -/
def EntryRecord.body (r : EntryRecord) : EntryBody :=
  { tag := r.tag, page := BitVec.ofNat 2 r.stamp.page.val, cls := r.cls.code, digest := r.stamp.digest, coarse := r.coarse }

/-- R154: an own VALUE record as a body. -/
def ValueRecord.body (r : ValueRecord) : ValueBody :=
  { tag := r.tag, quality := r.quality.code, flags := r.flags, deviation := r.deviation, temperature := r.temperature, tcr := r.tcr }

/-- R127, R154: an own verdict as a body. -/
def verdictBody (tag : BitVec 16) (v : Verdict) : VerdictBody :=
  { tag := tag, reason := v.reason.code, gate := BitVec.ofNat 12 v.gate.val, bin := v.bin.map (fun b => BitVec.ofNat 12 (binIndex b)) }

/-- R4, R155: the own position as reported, 0 while POSITION is absent. -/
def State.reportedPosition (s : State) : BitVec 5 := BitVec.ofNat 5 (s.position.getD 0)

/-- R155: the page-in-use flags, bit n for page n. -/
def State.inUseBits (s : State) : BitVec 4 :=
  BitVec.ofBool (s.pageInUse 3) ++ BitVec.ofBool (s.pageInUse 2) ++ BitVec.ofBool (s.pageInUse 1) ++ BitVec.ofBool (s.pageInUse 0)

/-- R100, R155: the digest reported for a page; a page not LOCKED is reported with 0. -/
def State.reportedDigest (s : State) (p : Fin 4) : BitVec 12 := s.stampDigest p

/-- R155, R169: the HAIL body from the values held now. -/
def State.hailBody (s : State) : HailBody :=
  { role := s.ctl.role, position := s.reportedPosition, cause := s.ctl.cause.code, page := BitVec.ofNat 2 s.idx.currentPage.val,
    inUse := s.inUseBits, digest0 := s.reportedDigest 0, digest1 := s.reportedDigest 1, digest2 := s.reportedDigest 2,
    digest3 := s.reportedDigest 3 }

/-- The body cells of a queued frame as it stands now. -/
def State.bodyCells (s : State) : QFrame → List Cell
  | .entry r => entryCells r.body
  | .value r => valueCells r.body
  | .verdict tag v => verdictCells (verdictBody tag v)
  | .alert => wordCells s.wordOut
  | .hail => hailCells s.hailBody
  | .status body => body

/-- R144: the sender, count, state code and activity stamped on a frame whose header cell starts now. -/
def State.stampHead (s : State) : FrameHead :=
  { sender := senderOfNode s.ctl.node, count := s.idx.count, state := stateCode s.ctl.run s.ctl.drain, activity := s.ctl.activity.code }

/-- R139, R144: the cells of a queued frame whose header cell starts now. -/
def State.cellsOf (s : State) (f : QFrame) : List Cell := frameCells { kind := f.kind, head := s.stampHead, body := s.bodyCells f }

/-! ### STATUS bodies (R157) -/

/-- R157: the item echo. -/
def echoCell (item arg : BitVec 4) : Cell := item ++ arg ++ 0#4

/-- R157, item 0. -/
def State.statusState (s : State) (arg : BitVec 4) : List Cell :=
  [echoCell 0 arg, s.ctl.role ++ s.reportedPosition ++ s.ctl.cause.code ++ BitVec.ofNat 2 s.idx.currentPage.val,
    stateCode s.ctl.run s.ctl.drain ++ s.ctl.activity.code ++ 0#6]

/-- R157, item 1. -/
def State.statusAlertWord (s : State) (arg : BitVec 4) : List Cell :=
  echoCell 1 arg :: (wordCells s.wordOut ++ wordCells s.alerts.mask ++ [0#11 ++ BitVec.ofBool s.alerts.master])

/-- R165: a row may be the active source of the role `r`. -/
def rowQualifies (now : Instant) (r : BitVec 3) (row : PeerRow) : Bool :=
  row.role == some r && decide (r.toNat ≤ 4) && standing now row == .present
    && (row.state == 3 || row.state == 6 || row.state == 4) && row.activity == 0

/-- R165: the active source of a role code: the lowest qualifying row. -/
def State.activeSource (s : State) (r : BitVec 3) : Option (Fin 8) := allNodes.find? (fun n => rowQualifies s.now r s.peers[n])

/-- R165: a node is the active source of the role its row holds. -/
def State.isActiveSource (s : State) (n : Fin 8) : Bool :=
  match (s.peers[n]).role with
  | some r => s.activeSource r == some n
  | none => false

/-- R157, item 2: the view of a row. While the role is unknown its code, and while the offset is unknown its bits, are the free value `free` (assumption 23). -/
def State.statusPeerRow (s : State) (arg : BitVec 4) (n : Fin 8) (free : Nat → BitVec 16) : List Cell :=
  let r := s.peers[n]
  let role := match r.role with | some c => c | none => (free 0).extractLsb' 0 3
  let off := match r.offset with | some o => o.value | none => free 1
  [echoCell 2 arg, BitVec.ofBool r.heard ++ role ++ r.state ++ r.activity ++ r.cause,
    r.position ++ (s.standing n).code ++ r.errorScore,
    BitVec.ofBool r.offset.isSome ++ BitVec.ofBool (s.isActiveSource n) ++ 0#6 ++ off.extractLsb' 12 4, off.extractLsb' 0 12,
    BitVec.ofNat 12 (silenceMs s.now r), r.digests[0], r.digests[1], r.digests[2], r.digests[3]]

/-- R157, item 3. -/
def State.statusBinTally (s : State) (arg page : BitVec 4) (bin : BitVec 8) (p : Fin 4) (b : Fin 16) : List Cell :=
  [echoCell 3 arg, page ++ bin] ++ countPair (s.binTally p b)

/-- R157, item 4. -/
def State.statusReasonTally (s : State) (arg : BitVec 4) (place : Fin 15) : List Cell :=
  echoCell 4 arg :: countPair s.gates.reasonTallies[place]

/-- The two bits of an optional page stamp; 0 when absent (R157). -/
def stampPageBits (st : Option PageStamp) : BitVec 2 := match st with | some st => BitVec.ofNat 2 st.page.val | none => 0

/-- The three bits of an optional class; 0 when absent (R157). -/
def classBits (c : Option EntryClass) : BitVec 3 := match c with | some c => c.code | none => 0

/-- R157, item 5, part 0. -/
def entryPart0 (tag : BitVec 16) (e : Entry) : List Cell :=
  let bin := e.verdict.bind (·.bin)
  [echoCell 5 0, tagHigh tag, tagLow tag 0,
    0#7 ++ BitVec.ofBool bin.isSome ++ BitVec.ofBool e.verdict.isSome ++ BitVec.ofBool e.coarse.isSome ++ BitVec.ofBool e.cls.isSome
      ++ BitVec.ofBool e.stamp.isSome,
    e.ownStage.code ++ BitVec.ofBool e.assumedPage ++ BitVec.ofBool e.doubt ++ BitVec.ofBool e.cold.isSome ++ BitVec.ofBool e.retest.isSome
      ++ BitVec.ofBool e.hot.isSome ++ stampPageBits e.stamp ++ classBits e.cls]
    ++ optCell (e.stamp.map (·.digest)) ++ optCell (e.coarse.map coarseCell)
    ++ optCell (e.verdict.map (fun v => v.reason.code ++ 0#3 ++ BitVec.ofNat 5 v.gate.val))
    ++ optCell (bin.map (fun b => BitVec.ofNat 12 (binIndex b)))

/-- R157, item 5, parts 1 to 3. -/
def slotPart (part : BitVec 4) (tag : BitVec 16) (v : Option HeldValue) : List Cell :=
  match v with
  | none => [echoCell 5 part, tagHigh tag, tagLow tag 0, 0]
  | some v =>
    [echoCell 5 part, tagHigh tag, tagLow tag 0, 1#1 ++ senderOfNode v.source ++ v.quality.code ++ 0#3, flagsCell v.flags]
      ++ valueFields v.deviation v.temperature v.tcr

/-- R39, R187: the four parts of an entry view; a tag not held shows the blank view. -/
def State.statusEntry (s : State) (tag : BitVec 16) : List (List Cell) :=
  let e := (s.entryOf tag).getD (Entry.blank tag .none)
  [entryPart0 tag e, slotPart 1 tag e.cold, slotPart 2 tag e.retest, slotPart 3 tag e.hot]

/-- R99, R157, item 6. -/
def State.statusDriftSlot (s : State) (arg : BitVec 4) (k : Fin 4) : List Cell :=
  let d := s.drift[k]
  let kk := driftK d.ring
  [echoCell 6 arg,
    BitVec.ofNat 3 d.ring.length ++ BitVec.ofBool d.baseline.isSome ++ BitVec.ofBool kk.isSome
      ++ BitVec.ofBool (overLimit s.ctl.items.driftLimit d.ring) ++ BitVec.ofBool (isStale d) ++ 0#5,
    BitVec.ofNat 12 d.staleness]
    ++ optSigned d.baseline ++ optSigned kk ++ (d.ring.map signedPair).flatten

end Sys2Proof.Machine
end

