-- ==== Sys2Proof/Machine/Transmit.lean ====
section
/-! DEFINITION. The sending side of the Link Interface (chapter 8): admission to the transmit queue, the offers of one command made in their order (R145), the start of a header cell (R140, R144), the claim won at the end of the header cell (R141), and `event`, the frame every command runs in. -/

namespace Sys2Proof.Machine

/-! ### The transmit queue (R145) -/

/-- R145: the admission table. In FAULT the one HAIL offered is that of the entry to FAULT (R147). -/
def admits (st : StationState) (act : Activity) (f : QFrame) : Bool :=
  match st, act with
  | .fault, _ => f == .hail
  | _, .muted => (match f with | .hail | .status _ => true | _ => false)
  | .listen, _ => f == .hail
  | _, .standby | .config, _ | .ready, _ => !f.isUnit
  | .run, .active | .halt, .active => true

/-- Whether the station admits a frame now. -/
def State.admits (s : State) (f : QFrame) : Bool := Machine.admits s.ctl.run s.ctl.activity f

/-- The free places of the queue. -/
def State.freePlaces (s : State) : Nat := Config.queueCapacity - s.link.queue.length

/-- R145: add frames to the tail, each with waiting count 0. -/
def enqueue (fs : List QFrame) (s : State) : State :=
  s.withLink { s.link with queue := s.link.queue ++ fs.map (fun f => { frame := f, waiting := 0 }) }

/-- R145: an admitted frame joins the tail, or raises TXQ_OVERFLOW when the queue holds 6; a frame not admitted is turned away. -/
def offer (f : QFrame) (s : State) : State :=
  if !s.admits f then s else if s.freePlaces = 0 then raise .txqOverflow s else enqueue [f] s

/-- R145, R157: the STATUS frames of one reply join the tail together, or TXQ_OVERFLOW is raised once. -/
def offerReply (bodies : List (List Cell)) (s : State) : State :=
  if bodies.isEmpty || !s.admits (.status []) then s
  else if s.freePlaces < bodies.length then raise .txqOverflow s
  else enqueue (bodies.map .status) s

/-- R169, R185: the queued frames whose header cell has not started: all but the head while it claims the line. A head whose claim was lost stands there to be started again and counts among them (assumption 42). -/
def State.unstarted (s : State) : List QItem :=
  match s.link.tx with
  | some x => if x.won then s.link.queue else s.link.queue.tail
  | none => s.link.queue

/-- R169, R185: a HAIL or ALERT is not queued a second time while one not yet started stands in the queue. -/
def offerOnce (f : QFrame) (s : State) : State := if s.unstarted.any (fun q => q.frame == f) then s else offer f s

/-- R145: the offers of one command: unit records first, then STATUS frames, then the HAIL, then the ALERT frame (assumption 12). -/
def flush (s : State) : State :=
  let s := s.work.units.foldl (fun a f => offer f a) s
  let s := offerReply s.work.status s
  let s := if s.work.hail then offerOnce .hail s else s
  let s := if s.work.alert && s.admits .alert then offerOnce .alert s else s
  s.withWork Work.empty

/-! ### Starting and winning (R140, R141, R144) -/

/-- R8: the instant lies within the edge window, both ends included (assumption 8). -/
def State.edgeWindowOpen (s : State) : Bool :=
  match s.idx.lastIndex with
  | some e => decide (s.now ≤ e + cellTime)
  | none => false

/-- R8: what is captured at a frame start now. -/
def State.freshMark (s : State) : Mark := { startedAt := s.now, captured := s.idx.count, edgeNear := s.edgeWindowOpen }

/-- R140, R143: the station may start a header cell now. -/
def State.mayStart (s : State) : Bool :=
  s.link.lineIdle && s.link.tx.isNone && s.link.rx.isNone
    && (match s.link.deferral with | .no | .waitOver => true | .deferring | .waiting _ => false)

/-- R140, R144: start the header cell of the head of the queue; the station is no longer deferring (R143). -/
def tryStart (s : State) : State :=
  match s.link.queue with
  | [] => s
  | q :: _ =>
    if s.mayStart then
      s.withLink
        { s.link with
          tx := some { won := false, mark := s.freshMark, frame := q.frame, cells := s.cellsOf q.frame }
          lineIdle := false
          quietSince := s.now
          deferral := .no }
    else s

/-- R141, R148: at the end of its header cell an unlost claim is won and its frame leaves the queue (assumption 28). -/
def winClaim (s : State) : State :=
  match s.link.tx with
  | some x =>
    if !x.won && decide (x.mark.startedAt + cellTime ≤ s.now) then
      s.withLink { s.link with tx := some { x with won := true }, queue := s.link.queue.tail }
    else s
  | none => s

/-! ### The frame of every command -/

/-- The instant of a command: time never goes back (assumption 1), and a header cell that has ended unlost has won. -/
def advance (t : Instant) (s : State) : State := winClaim (s.withNow (max s.now t))

/-- What stands at the end of every command: the drain test (R178), the level conditions (R183), the offers (R145), and the start of a header cell on an idle line (R140). -/
def settle (s : State) : State := tryStart (flush (refreshLevels (drainTest s)))

/-- A command taken at instant `t`: its effect and what follows at the same moment. While RESET is held low nothing has an effect (R172). -/
def event (t : Instant) (body : State → State) (s : State) : Host.Outcome State Fault Refusal :=
  let s := advance t s
  .next (if s.resetHeld then s else settle (body s))

end Sys2Proof.Machine
end

