-- ==== Sys2Proof/Machine/Engine.lean ====
section
/-! DEFINITION. The Measurement Engine (chapter 3) with the records Result Arithmetic gives it (chapter 4) and the samples it hands the Drift Tracker (chapter 5): the start of work at an index event, the steps of a sequence, and every ending. -/

namespace Sys2Proof.Machine

/-! ### Excitation (R57) -/

/-- R57: turn the excitation off and record the instant it went off (assumption 15). -/
def turnOff (s : State) : State :=
  if s.eng.excitation = .off then s else s.withEng { s.eng with excitation := .off, lastOff := some s.now }

/-- Change the running context. -/
def setCtx (c : Ctx) (s : State) : State := s.withEng { s.eng with ctx := some c }

/-- R41: the conversion time of an OSR code. -/
def conversionTime (osr : Nat) : Instant := 625 * 2 ^ osr

/-- R51, R53: begin the conversions of a phase with the excitation `x`. -/
def beginPhase (x : Excitation) (st : SeqState) (c : Ctx) (s : State) : State :=
  s.withEng
    { s.eng with
      excitation := x
      ctx :=
        some
          { c with
            state := st, due := s.now + conversionTime s.ctl.items.osr, discards := s.ctl.items.discard, kept := 0, sums := ⟨0, 0⟩ } }

/-- R57: the first instant at which the excitation may switch on again. -/
def State.offUntil (s : State) : Option Instant := s.eng.lastOff.map (fun t => t + us (10 * s.ctl.items.gap))

/-- R51: enter FWD. The current switches on now, or FWD waits for the end of the off interval. -/
def enterFwd (c : Ctx) (s : State) : State :=
  match s.offUntil with
  | some t => if s.now < t then setCtx { c with state := .fwdWait, due := t } s else beginPhase .forward .fwd c s
  | none => beginPhase .forward .fwd c s

/-! ### Records (R66, R72, R83 to R87) -/

/-- R66: the quality of an early ending. -/
def Ending.quality : Ending → Quality
  | .contactOne | .contactBoth => .contact
  | .overload _ => .overload
  | .timeout => .timeout
  | .aborted => .aborted
  | .doubt => .doubt

/-- R66, R68: the record of a measurement without a value. -/
def valueless (thermal : Bool) (tag : BitVec 16) (q : Quality) (temp : Option (BitVec 12)) (tempAbsent assumed : Bool) : ValueRecord :=
  { tag := tag, quality := q, deviation := none, temperature := temp
    flags :=
      { suspect := false, drift := false, driftStale := false, tempAbsent := tempAbsent, saturated := false, near := false,
        assumedPage := assumed, tcrAbsent := thermal }
    tcr := none }

/-- R67 to R74, R79, R83 to R85: the record of a UNIT measurement that reached its release step, and whether STD_LOW is raised. -/
def completedRecord (s : State) (c : Ctx) (fwd rev : Pair) : ValueRecord × Bool :=
  let thermal := s.role == some .thermal
  let a := stageA fwd rev
  match stageB s.ctl.items.minStd a with
  | .stdLow => (valueless thermal c.tag .stdLow c.temperature c.tempAbsent c.assumedPage, true)
  | .polarity => (valueless thermal c.tag .polarity c.temperature c.tempAbsent c.assumedPage, false)
  | .pass =>
    let slot := s.drift[c.slot]
    let page := s.page c.stamp.page
    let qc := stageC a
    let qd := stageD qc.toDev (correction s.ctl.items.stdCert[c.slot] s.ctl.items.channelTrim (driftK slot.ring))
    let d := qd.toDev
    let alpha := if thermal then stageE page.tcrMinDt d c.temperature (coldSide (s.entryOf c.tag)) else none
    ({ tag := c.tag, quality := .good, deviation := some d, temperature := c.temperature
       flags :=
         { suspect := suspectOf s.ctl.items.offsetLimit a
           drift := overLimit s.ctl.items.driftLimit slot.ring
           driftStale := isStale slot
           tempAbsent := c.tempAbsent
           saturated := qc.saturates || qd.saturates || (match alpha with | some q => q.saturates | none => false)
           near := s.role == some .precise && stageH page (normaliseDefault page d c.temperature)
           assumedPage := c.assumedPage
           tcrAbsent := thermal && alpha.isNone }
       tcr := alpha.map SignMag.toDev }, false)

/-- R20: an own record as the Unit Table holds it. -/
def ValueRecord.held (r : ValueRecord) (node : Fin 8) : HeldValue :=
  { source := node, quality := r.quality, deviation := r.deviation, temperature := r.temperature, flags := r.flags, tcr := r.tcr }

/-- R23, R55, R87: an own VALUE enters the own table when in range, the own stage becomes DONE, and the record is offered to the queue. -/
def deliverValue (r : ValueRecord) (s : State) : State :=
  let s1 :=
    match s.role.bind slotOfRole with
    | some k => if s.classify r.tag = .inRange then putValue r.tag k (r.held s.ctl.node) s else s
    | none => s
  offerUnit (.value r) (setStage r.tag .done s1)

/-- R31, R56: PROBE's own ENTRY. -/
def deliverEntry (r : EntryRecord) (s : State) : State :=
  let s1 := if s.classify r.tag = .inRange then putEntryRecord r s else s
  offerUnit (.entry r) (setStage r.tag .done s1)

/-- R90: a completed check goes through Stages A to C; a passed one enters the slot. -/
def deliverCheck (c : Ctx) (fwd rev : Pair) (s : State) : State :=
  let a := stageA fwd rev
  match stageB s.ctl.items.minStd a with
  | .stdLow => raise .stdLow s
  | .polarity => s
  | .pass => s.withDrift (s.drift.set c.slot (acceptCheck (stageC a).toDev s.drift[c.slot]))

/-- R56: class and coarse value of a COARSE sequence that ended early. -/
def Ending.entryClass : Ending → EntryClass × Option Coarse
  | .contactBoth => (.empty, none)
  | .contactOne => (.contact, none)
  | .overload true => (.grossHigh, some ⟨false, 2047⟩)
  | .overload false => (.grossLow, some ⟨true, 2047⟩)
  | .timeout | .aborted | .doubt => (.contact, none)

/-- R55, R66: COMPUTE for an early ending. -/
def computeEnding (e : Ending) (c : Ctx) (s : State) : State :=
  match c.kind with
  | .unit => deliverValue (valueless (s.role == some .thermal) c.tag e.quality none c.tempAbsent c.assumedPage) s
  | .coarse => deliverEntry { tag := c.tag, stamp := c.stamp, cls := e.entryClass.1, coarse := e.entryClass.2 } s
  | .check => setStage c.tag .done s

/-- R55: COMPUTE for a UNIT or CHECK sequence that reached its release step. -/
def computeRelease (c : Ctx) (fwd rev : Pair) (s : State) : State :=
  match c.kind with
  | .check => setStage c.tag .done (deliverCheck c fwd rev s)
  | .unit | .coarse =>
    let r := completedRecord s c fwd rev
    deliverValue r.1 (raiseIf r.2 .stdLow s)

/-- R55, R81, R82: COMPUTE for a COARSE sequence whose FWD completed. -/
def computeCoarse (c : Ctx) (fwd : Pair) (s : State) : State :=
  let o := coarseOutcome s.ctl.items.minStd (s.page c.stamp.page).gross fwd
  deliverEntry { tag := c.tag, stamp := c.stamp, cls := o.1, coarse := some o.2.1 } (raiseIf o.2.2 .stdLow s)

/-! ### Endings -/

/-- The end of a running sequence: excitation off, request cleared, context taken out (R55, R57, section 3.6). -/
def closeSequence (s : State) : State :=
  let s := setMeasReq false (turnOff s)
  s.withEng { s.eng with ctx := none }

/-- Section 3.6: end the running sequence early with its record. -/
def endEarly (e : Ending) (c : Ctx) (s : State) : State := computeEnding e c (closeSequence s)

/-- R60, R61: end a sequence in progress, if there is one. -/
def endRunning (e : Ending) (s : State) : State := match s.eng.ctx with | some c => endEarly e c s | none => s

/-- R63: end a running sequence without a record: excitation off, request cleared, relays released; the ADC channels stay as they are (R89; assumption 44). -/
def discardSequence (s : State) : State :=
  match s.eng.ctx with
  | none => s
  | some _ =>
    let s := closeSequence s
    s.withEng { s.eng with relays := { slot := none, unit := false, check := false } }

/-! ### The start of work (R43 to R49, R64) -/

/-- R40, R42, R49, R89: fill the context, set the relays and the ADC channels, set the request and start the SETTLE and MEAS_LIMIT timers. -/
def startSequence (kind : WorkKind) (tag : BitVec 16) (st : PageStamp) (assumed : Bool) (s : State) : State :=
  let p := s.page st.page
  let c : Ctx :=
    { kind := kind, tag := tag, stamp := st, assumedPage := assumed, range := p.range, gain := p.gain, slot := p.stdSlot, state := .settle
      due := s.now + us (100 * s.ctl.items.settle)
      discards := 0, kept := 0, sums := ⟨0, 0⟩, fwd := none, rev := none, temperature := none, tempAbsent := false
      startTime := s.now, limitDue := s.now + ms s.ctl.items.measLimit }
  setMeasReq true
    (s.withEng
      { s.eng with
        ctx := some c
        recentPage := if kind = .check then s.eng.recentPage else st.page
        relays := { slot := some p.stdSlot, unit := kind != .check, check := kind == .check }
        channels := if kind = .check then .check else .unit })

/-- R21: the entry of a tag is MEASURING; a tag without an entry gets one (R27, R28). -/
def markMeasuring (tag : BitVec 16) (st : Option PageStamp) (assumed : Bool) (s : State) : State :=
  match s.entryOf tag with
  | none => addEntry { Entry.blank tag .measuring with stamp := st, assumedPage := assumed } s
  | some _ => setStage tag .measuring s

/-- R44, R27, R111: PROBE's COARSE work. -/
def startCoarse (tag : BitVec 16) (s : State) : State :=
  let st : PageStamp := { page := s.idx.currentPage, digest := s.stampDigest s.idx.currentPage }
  startSequence .coarse tag st false (markMeasuring tag (some st) false s)

/-- R28: an entry without a page takes the assumed page found. -/
def assumePage (tag : BitVec 16) (found : Option PageStamp) (s : State) : State :=
  match found with
  | some st => modifyEntry tag (fun e => if e.stamp.isNone then { e with stamp := some st, assumedPage := true } else e) s
  | none => s

/-- R45, R48, R28: UNIT work. The page is the entry's, or the one found; without a LOCKED page the work ends at once with NO_RECIPE. -/
def startUnit (tag : BitVec 16) (s : State) : State :=
  let held := (s.entryOf tag).bind (·.stamp)
  let found := s.assumedStamp
  let page := match held with | some st => some st | none => found
  let assumed := match held with | some _ => ((s.entryOf tag).map (·.assumedPage)).getD false | none => found.isSome
  let s1 := if held.isSome then markMeasuring tag none false s else assumePage tag found (markMeasuring tag none false s)
  match page with
  | some st =>
    if s.locked st.page then startSequence .unit tag st assumed s1
    else deliverValue (valueless (s.role == some .thermal) tag .noRecipe none false assumed) s1
  | none => deliverValue (valueless (s.role == some .thermal) tag .noRecipe none false false) s1

/-- R47: the SKIPPED outcome. -/
def skipUnit (tag : BitVec 16) (s : State) : State := setStage tag .skipped s

/-- R64: CHECK work under the most recently used page, or SKIPPED when it is not LOCKED. -/
def startCheck (tag : BitVec 16) (s : State) : State :=
  let p := s.eng.recentPage
  if s.locked p then startSequence .check tag { page := p, digest := (s.page p).digest } false (setStage tag .measuring s)
  else skipUnit tag s

/-- R45: the choice of PRECISE and THERMAL. -/
def chooseMeasure (tag : BitVec 16) (s : State) : State :=
  match (s.entryOf tag).bind (·.cls) with
  | none | some .present => startUnit tag s
  | some .empty => startCheck tag s
  | some .contact | some .grossLow | some .grossHigh => skipUnit tag s

/-- R46: the choice of RETEST. -/
def chooseRetest (tag : BitVec 16) (s : State) : State :=
  match s.entryOf tag with
  | none => s
  | some e => if retestMeasures e then startUnit tag s else if e.cls = some .empty then startCheck tag s else skipUnit tag s

/-- R43: work for the unit at the own position, for a measuring role in RUN and ACTIVE with a position. -/
def takeWork (s : State) : State :=
  match s.position with
  | none => s
  | some p =>
    if s.ctl.run = .run ∧ s.ctl.activity = .active then
      let tag := s.idx.count - BitVec.ofNat 16 p
      match s.role with
      | some .probe => startCoarse tag s
      | some .precise | some .thermal => chooseMeasure tag s
      | some .retest => chooseRetest tag s
      | some .sort | none => s
    else s

/-! ### The steps of a sequence -/

/-- The running context, when it stands in a state of `p` and its step has ended (assumption 2). -/
def State.stepEnded (s : State) (p : SeqState → Bool) : Option Ctx :=
  match s.eng.ctx with
  | some c => if p c.state && decide (c.due ≤ s.now) then some c else none
  | none => none

/-- R49: SETTLE ends and the contact test of side A begins. -/
def endSettle (s : State) : State :=
  match s.stepEnded (· == .settle) with
  | some c => setCtx { c with state := .contactA, due := s.now + Config.contactTestTime } s
  | none => s

/-- R50: a pair is closed when its resistance is below CONTACT_LIMIT, 0.1 Ω a step. -/
def pairClosed (s : State) (milliohms : Nat) : Bool := decide (milliohms < 100 * s.ctl.items.contactLimit)

/-- R50: the end of the contact test of one side. -/
def endContactTest (milliohms : Nat) (s : State) : State :=
  match s.stepEnded (fun q => match q with | .contactA | .contactB _ => true | _ => false) with
  | none => s
  | some c =>
    match c.state with
    | .contactB aClosed =>
      match aClosed, pairClosed s milliohms with
      | true, true => enterFwd c s
      | false, false => endEarly .contactBoth c s
      | _, _ => endEarly .contactOne c s
    | _ => setCtx { c with state := .contactB (pairClosed s milliohms), due := s.now + Config.contactTestTime } s

/-- R51, R57: the off interval ends and a waiting FWD switches on. -/
def endOffInterval (s : State) : State :=
  match s.stepEnded (· == .fwdWait) with
  | some c => beginPhase .forward .fwd c s
  | none => s

/-- R52, R53: GAP ends and REV begins. -/
def endGap (s : State) : State :=
  match s.stepEnded (· == .gap) with
  | some c => beginPhase .reverse .rev c s
  | none => s

/-- R58: a code at full scale. -/
def atFullScale (code : BitVec 24) : Bool := code == 0x7FFFFF#24 || code == 0x800000#24

/-- R51, R53: the end of the last kept conversion of a phase, with its averages. -/
def endPhase (c : Ctx) (avg : Pair) (s : State) : State :=
  if c.state = .rev then setCtx { c with state := .sampling, rev := some avg, due := s.now + Config.temperatureTime } s
  else if c.kind = .coarse then computeCoarse c avg (closeSequence s)
  else
    let s := turnOff s
    setCtx { c with state := .gap, fwd := some avg, due := s.now + us (10 * s.ctl.items.gap) } s

/-- R41, R51, R53, R58: the end of a conversion. -/
def endConversion (x std : BitVec 24) (s : State) : State :=
  match s.stepEnded (fun q => q == .fwd || q == .rev) with
  | none => s
  | some c =>
    let next := s.now + conversionTime s.ctl.items.osr
    if 0 < c.discards then setCtx { c with discards := c.discards - 1, due := next } s
    else if atFullScale x || atFullScale std then raise .overload (endEarly (.overload (x == 0x7FFFFF#24)) c s)
    else
      let sums : Pair := { x := c.sums.x + x.toInt, s := c.sums.s + std.toInt }
      let kept := c.kept + 1
      if kept < s.ctl.items.phaseAvg then setCtx { c with sums := sums, kept := kept, due := next } s
      else endPhase { c with sums := sums, kept := kept } ⟨phaseAverage sums.x kept, phaseAverage sums.s kept⟩ s

/-- R54: the context with a temperature reading; 4095 is the open-sensor code. -/
def withReading (reading : BitVec 12) (c : Ctx) : Ctx :=
  if reading = 4095 then { c with tempAbsent := true } else { c with temperature := some reading }

/-- R53, R54: the temperature conversion ends, with the release step and COMPUTE: the table makes the two one command (assumption 38). -/
def endTemperature (reading : BitVec 12) (s : State) : State :=
  match s.stepEnded (· == .sampling) with
  | none => s
  | some c =>
    let s := raiseIf (reading == 4095) .tempFault (closeSequence s)
    computeRelease (withReading reading c) (c.fwd.getD ⟨0, 0⟩) (c.rev.getD ⟨0, 0⟩) s

/-- R54, R59: what the temperature conversion has yielded when MEAS_LIMIT is taken at or after its end and before the release step. The command does not carry the reading: it is a free value (assumption 38). -/
def State.readingAtLimit (s : State) (c : Ctx) : Option (BitVec 12) :=
  if c.state = .sampling ∧ c.due ≤ s.now then some ((Config.freeBits s.freeDraws).extractLsb' 0 12) else none

/-- R59, R54, R66: MEAS_LIMIT ends a sequence. A temperature already sampled is discarded, but an open sensor has raised TEMP_FAULT and left TEMP_ABSENT in the context. -/
def timeOut (c : Ctx) (s : State) : State :=
  match s.readingAtLimit c with
  | none => endEarly .timeout c s
  | some reading => endEarly .timeout (withReading reading c) (raiseIf (reading == 4095) .tempFault (s.withFreeDraws (s.freeDraws + 1)))

/-- R59: MEAS_LIMIT expires while a sequence runs. -/
def expireLimit (s : State) : State :=
  match s.eng.ctx with
  | some c => if c.limitDue ≤ s.now then raise .measTimeout (timeOut c s) else s
  | none => s

end Sys2Proof.Machine
end

