-- ==== Sys2Proof/Machine/Scheduler.lean ====
section
/-! DEFINITION. The Gate Scheduler (chapter 7) and the SORT decision that feeds it (section 6.6): reason table, capacity, tallies, gate resolution, scheduling, and the firing of a gate from DELAY to the end of its pulse. -/

namespace Sys2Proof.Machine

/-! ### Gates and positions -/

/-- R125: the position of an installed gate, 0 when not installed. -/
def State.gatePosOf (s : State) (g : Fin 16) : Nat := s.ctl.items.gatePos[g]

/-- R125: a gate number that names an installed gate. -/
def State.installed (s : State) (g : Fin 17) : Option (Fin 16) :=
  match gateOutput g with
  | some o => if s.gatePosOf o = 0 then none else some o
  | none => none

/-- R132: the unit of a firing has passed its gate: its position, 0 to 65535 (R6), exceeds its gate's. A unit that a large negative realign carries to an ahead position has passed it too (assumption 45). -/
def State.passedGate (s : State) (f : Firing) : Bool := decide (s.gatePosOf f.gate < s.posOf f.tag)

/-- R120: index events still to come before the unit stands at its gate. -/
def State.eventsToGate (s : State) (f : Firing) : Nat := (s.gatePosOf f.gate + 65536 - s.posOf f.tag) % 65536

/-- R120: due order: fewer index events to come first, then the lower gate number. -/
def State.firesBefore (s : State) (a b : Firing) : Bool :=
  decide (s.eventsToGate a < s.eventsToGate b) || (s.eventsToGate a == s.eventsToGate b && decide (a.gate.val ≤ b.gate.val))

/-- R120: place a firing in due order. -/
def insertFiring (le : Firing → Firing → Bool) (f : Firing) : List Firing → List Firing
  | [] => [f]
  | x :: xs => if le x f then x :: insertFiring le f xs else f :: x :: xs

/-- Set the driver of a gate. -/
def setDriver (g : Fin 16) (d : Driver) (s : State) : State := s.withGates { s.gates with drivers := s.gates.drivers.set g d }

/-- Change the stage of the firing a gate's driver serves. -/
def setFiringStage (tag : BitVec 16) (st : FiringStage) (s : State) : State :=
  s.withGates { s.gates with firings := s.gates.firings.map (fun f => if f.tag == tag then { f with stage := st } else f) }

/-- Take the firing of a tag off the list. -/
def dropFiring (tag : BitVec 16) (s : State) : State := s.withGates { s.gates with firings := s.gates.firings.filter (fun f => f.tag != tag) }

/-- The tag a driver serves. -/
def Driver.tag : Driver → Option (BitVec 16)
  | .idle => none
  | .delay t _ | .pullIn t _ _ | .holding t _ => some t

/-! ### The decision (R113 to R119) -/

/-- R114, R122: a verdict whose gate is not yet resolved, with the page it was decided under. -/
structure Provisional where
  page : Option (Fin 4)
  reason : Reason
  bin : Option (Fin 16)
  gate : Fin 17
  deriving DecidableEq, Repr

/-- The FALLBACK_GATE, 0 while absent (R175). -/
def State.fallback (s : State) : Fin 17 := s.ctl.items.fallbackGate.getD 0

/-- R118: a bin matches the working values. -/
def binMatches (d25 : Dev) (alpha : Option Dev) (b : Bin) : Bool :=
  devLe b.lower d25 && devLe d25 b.upper
    && (match b.window, alpha with
        | none, _ => true
        | some (lo, hi), some a => devLe lo a && devLe a hi
        | some _, none => false)

/-- R114: rows 8 to 13, once rows 1 to 7 have passed: the working values of R80 from SORT's copy of the page. -/
def judgeValue (p : Page) (e : Entry) : Reason × Option (Fin 16) × Fin 17 :=
  match chosenValue e with
  | none => (.noValue, none, p.reworkGate)
  | some c =>
    let hotMissing := match e.hot with | some h => h.quality != .good | none => true
    if p.tcrRequired && hotMissing then (.noValue, none, p.reworkGate)
    else if c.record.flags.drift then (.drift, none, p.reworkGate)
    else if !stageG p e.cold e.retest then (.disagree, none, p.reworkGate)
    else if !c.fromRetest && (stageH p (normaliseDefault p c.deviation c.record.temperature) || c.record.flags.suspect) then
      (.guardBand, none, p.reworkGate)
    else
      let d25 := normaliseChosen p c.deviation c.record.temperature e.hot
      match p.bins.find? (binMatches d25 (alphaOf e)) with
      | some b => (.binned, some b.index, b.gate)
      | none => (.noBin, none, p.rejectGate)

/-- R114 to R117: the reason table applied to an entry. -/
def judge (s : State) (e : Entry) : Provisional :=
  match e.cls with
  | none => { page := none, reason := .noEntry, bin := none, gate := s.fallback }
  | some .empty => { page := e.stamp.map (·.page), reason := .empty, bin := none, gate := 0 }
  | some cls =>
    match e.stamp with
    | none => { page := none, reason := .noRecipe, bin := none, gate := s.fallback }
    | some st =>
      let p := s.page st.page
      let out (r : Reason) (b : Option (Fin 16)) (g : Fin 17) : Provisional := { page := some st.page, reason := r, bin := b, gate := g }
      if p.state != .locked then out .noRecipe none s.fallback
      else if st.digest != p.digest then out .digest none s.fallback
      else if cls = .contact then out .contact none p.reworkGate
      else if cls = .grossLow ∨ cls = .grossHigh then out .gross none p.rejectGate
      else if e.doubt then out .doubt none p.reworkGate
      else
        let v := judgeValue p e
        out v.1 v.2.1 v.2.2

/-- The bin of an index in a page's list. -/
def Page.binOf (p : Page) (b : Fin 16) : Option Bin := p.bins.find? (fun x => x.index == b)

/-- R122: the capacity check. -/
def capacityCheck (s : State) (v : Provisional) : Provisional :=
  match v.reason, v.page, v.bin with
  | .binned, some pg, some b =>
    match (s.page pg).binOf b with
    | some bin =>
      if bin.capacity != 0 && s.binTally pg b == bin.capacity then { v with reason := .binFull, bin := none, gate := (s.page pg).overflowGate }
      else v
    | none => v
  | _, _, _ => v

/-- R123: count the final reason, and the bin when BINNED. -/
def countVerdict (v : Provisional) (s : State) : State :=
  let s := countReason v.reason.place 1 s
  match v.reason, v.page, v.bin with
  | .binned, some pg, some b => setBinTally pg b (tallyAdd (s.binTally pg b) 1) s
  | _, _, _ => s

/-- R125: the resolved gate with its output, and whether GATE_MISSED is raised. -/
def resolveGate (s : State) (g : Fin 17) : Fin 17 × Option (Fin 16) × Bool :=
  if g = 0 then (0, none, false)
  else
    match s.installed g with
    | some o => (g, some o, false)
    | none =>
      match s.installed s.fallback with
      | some o => (s.fallback, some o, false)
      | none => (0, none, true)

/-- R126: schedule a firing, or raise GATE_MISSED when the list holds 32. A tag that has a pending firing gets no second one (R120, R126; assumption 37). -/
def schedule (tag : BitVec 16) (o : Fin 16) (page : Option (Fin 4)) (s : State) : State :=
  if (s.firingOf tag).isSome then s
  else if Config.firingCapacity ≤ s.gates.firings.length then raise .gateMissed s
  else
    s.withGates
      { s.gates with firings := insertFiring s.firesBefore { tag := tag, gate := o, page := page, stage := .waiting } s.gates.firings }

/-- R122 to R127, R33: complete a provisional verdict: capacity, tallies, gate, firing, the entry's verdict field and the VERDICT frame. -/
def completeVerdict (tag : BitVec 16) (v : Provisional) (s : State) : State :=
  let v := capacityCheck s v
  let s := countVerdict v s
  let g := resolveGate s v.gate
  let s := raiseIf g.2.2 .gateMissed s
  let s := match g.2.1 with | some o => schedule tag o v.page s | none => s
  let final : Verdict := { reason := v.reason, bin := v.bin, gate := g.1 }
  let s := modifyEntry tag (fun e => { e with verdict := some final, ownStage := .done }) s
  offerUnit (.verdict tag final) s

/-- R113: the decision of an index event. It is asked of the entries and firings that the cut-offs and drops before it have left (assumption 46). -/
def decideUnit (s : State) : State :=
  match s.position with
  | none => s
  | some p =>
    if s.ctl.activity = .active ∧ (s.ctl.run = .run ∨ s.ctl.run = .halt) then
      let tag := s.idx.count - BitVec.ofNat 16 p - 1
      match s.entryOf tag with
      | some e => if e.verdict.isSome then s else completeVerdict tag (judge s e) s
      | none =>
        if (s.firingOf tag).isSome then s
        else completeVerdict tag { page := none, reason := .noEntry, bin := none, gate := s.fallback } s
    else s

/-! ### Firing (R128 to R132) -/

/-- R130: enter PULL_IN. It lasts PULL_IN or PULSE_WIDTH, whichever is shorter. -/
def enterPullIn (g : Fin 16) (tag : BitVec 16) (s : State) : State :=
  let pulseEnd := s.now + us (100 * s.ctl.items.pulseWidth)
  let pullEnd := s.now + us (100 * min s.ctl.items.pullIn s.ctl.items.pulseWidth)
  setFiringStage tag .pullIn (setDriver g (.pullIn tag pullEnd pulseEnd) s)

/-- R129: a firing that falls due enters DELAY; a FIRE_DELAY of 0 takes it into PULL_IN at once. -/
def startFiring (f : Firing) (s : State) : State :=
  if s.ctl.items.fireDelay = 0 then enterPullIn f.gate f.tag s
  else setFiringStage f.tag .delay (setDriver f.gate (.delay f.tag (s.now + us (100 * s.ctl.items.fireDelay))) s)

/-- R128 step 4, R12: start every WAITING firing whose unit stands at its gate. -/
def startDue (s : State) : State :=
  let due := s.gates.firings.filter (fun f => f.stage == .waiting && s.posOf f.tag == s.gatePosOf f.gate)
  let s1 := due.foldl (fun a f => startFiring f a) s
  if due.isEmpty then s1 else setFiringReq true s1

/-- R131: cut off a firing in progress: GATE_OVERRUN, driver idle, off the list, its entry removed. -/
def cutFiring (s : State) (f : Firing) : State := removeTag f.tag (raise .gateOverrun (dropFiring f.tag (setDriver f.gate .idle s)))

/-- R128 step 1: cut off every firing in progress and clear the request for them. -/
def cutAll (s : State) : State :=
  let running := s.gates.firings.filter (fun f => f.stage != .waiting)
  if running.isEmpty then s else setFiringReq false (running.foldl cutFiring s)

/-- R132: drop a firing whose unit has passed its gate: GATE_MISSED, its entry removed. -/
def missFiring (s : State) (f : Firing) : State := removeTag f.tag (raise .gateMissed (dropFiring f.tag s))

/-- R128 step 2, R132: drop every WAITING firing whose unit has passed its gate. -/
def dropPassed (s : State) : State :=
  (s.gates.firings.filter (fun f => f.stage == .waiting && s.passedGate f)).foldl missFiring s

/-- R35: at an index event, after the decision, the entries that leave a SORT station: beyond the retire limit, or beyond the SORT position without a pending firing. In FAULT a decided entry stays until the retire limit (R136; assumption 19). -/
def State.leavesSort (s : State) (e : Entry) : Bool :=
  (match s.idx.retireLimit with | some r => decide (r < s.posOf e.tag) | none => false)
    || (match s.position with
        | some p => decide (p < s.posOf e.tag) && (s.firingOf e.tag).isNone && (s.ctl.run != .fault || e.verdict.isNone)
        | none => false)

/-- R128, R35: the Gate Scheduler's index event on a SORT station, its steps in the order of R128. A decided unit that a negative realign has carried back while its firing is in progress, and that this event takes past SORT again, loses firing and entry at step 1, and step 3 then decides it NO_ENTRY, where R33 says that a decided entry gets no second decision (assumption 46). -/
def sortIndexEvent (s : State) : State :=
  let s := decideUnit (dropPassed (cutAll s))
  startDue (removeEntries s.leavesSort s)

/-- R130: the end of a pulse: output off, driver idle, firing off the list, entry removed; the request is cleared when no firing in progress is left. -/
def endPulse (g : Fin 16) (tag : BitVec 16) (s : State) : State :=
  let s := removeTag tag (dropFiring tag (setDriver g .idle s))
  if s.gates.firings.any (fun f => f.stage != .waiting) then s else setFiringReq false s

/-- R129: FIRE_DELAY of a gate expires. -/
def expireDelay (g : Fin 16) (s : State) : State :=
  match s.gates.drivers[g] with
  | .delay tag due => if due ≤ s.now then enterPullIn g tag s else s
  | .idle | .pullIn _ _ _ | .holding _ _ => s

/-- R130: PULL_IN of a gate ends: HOLDING when PULSE_WIDTH is the longer, else the end of the pulse. -/
def expirePullIn (g : Fin 16) (s : State) : State :=
  match s.gates.drivers[g] with
  | .pullIn tag pullEnd pulseEnd =>
    if s.now < pullEnd then s
    else if pullEnd < pulseEnd then setFiringStage tag .holding (setDriver g (.holding tag pulseEnd) s)
    else endPulse g tag s
  | .idle | .delay _ _ | .holding _ _ => s

/-- R130: PULSE_WIDTH of a gate has elapsed. -/
def expirePulse (g : Fin 16) (s : State) : State :=
  match s.gates.drivers[g] with
  | .pullIn tag _ pulseEnd | .holding tag pulseEnd => if pulseEnd ≤ s.now then endPulse g tag s else s
  | .idle | .delay _ _ => s

/-! ### MUTED, FAULT and RESTART (R136, R137) -/

/-- Every output off, every driver idle, the request cleared, the list emptied. -/
def clearFirings (s : State) : State :=
  setFiringReq false (s.withGates { s.gates with firings := [], drivers := Vector.replicate 16 .idle })

/-- R136: entry to MUTED drops every firing, each with GATE_MISSED and its entry. -/
def muteGates (s : State) : State := clearFirings (s.gates.firings.foldl missFiring s)

/-- R137: RESTART sets every tally to 0. -/
def clearTallies (s : State) : State :=
  s.withGates { s.gates with binTallies := Vector.replicate 4 (Vector.replicate 16 0), reasonTallies := Vector.replicate 15 0 }

end Sys2Proof.Machine
end

