-- ==== Sys2Proof/Machine/Peers.lean ====
section
/-! DEFINITION. The Peer Monitor (chapter 9), the realign it asks for (R16, R171), duplicate-node reports and the entry to FAULT (R174, R180), and the receive side of the link: what every frame taken or discarded does before its content is looked at (R149 to R152, R159, R160). -/

namespace Sys2Proof.Machine

/-! ### Entry to STANDBY, MUTED and FAULT -/

/-- R167: entry to STANDBY: the running measurement ends without a record (R63) and the unit records leave the queue (R147). -/
def enterStandby (s : State) : State := setActivity .standby (keepQueued (fun q => !q.frame.isUnit) (discardSequence s))

/-- R168: entry to MUTED: the measurement ends (R63), the firings are dropped (R136), unit records and ALERT frames leave the queue (R147). -/
def enterMuted (s : State) : State :=
  let s := discardSequence s
  let s := if s.role = some .sort then muteGates s else s
  setActivity .muted (keepQueued (fun q => !q.frame.isUnit && q.frame != .alert) s)

/-- R180: entry to FAULT. The queue is emptied, the one HAIL of the state is offered, and the hail and LISTEN timers stop. -/
def enterFault (r : FaultReason) (s : State) : State :=
  let s := clearFirings (discardSequence s)
  let s := setMeasReq false (keepQueued (fun _ => false) s)
  let s := raise (match r with | .badRole => .badRole | .dupNode => .dupNode) s
  let s := s.withWork { s.work with units := [], status := [], hail := true }
  s.withCtl { s.ctl with run := .fault, faultReason := some r, listenDue := none, hailDue := none }

/-- R174: a duplicate-node report. -/
def duplicateReport (s : State) : State :=
  match s.ctl.run with
  | .listen => enterFault .dupNode s
  | .config | .ready | .run | .halt => raise .dupNode s
  | .fault => s

/-! ### The standby test (R167) -/

/-- R167: some lower-numbered row qualifies as the active source of the own role. -/
def State.lowerQualifies (s : State) : Bool := allNodes.any (fun n => decide (n.val < s.ctl.node.val) && rowQualifies s.now s.ctl.role s.peers[n])

/-- R167: the standby test, made in every state except FAULT. -/
def standbyTest (s : State) : State :=
  if s.ctl.run = .fault then s
  else
    match s.ctl.activity, s.lowerQualifies with
    | .active, true => enterStandby s
    | .standby, false => setActivity .active (raise .takeover s)
    | .active, false | .standby, true | .muted, _ => s

/-! ### The realign (R16, R170, R171) -/

/-- R170: the disagreeing offset of a row of standing DOUBT. -/
def State.witness (s : State) (n : Fin 8) : Option (BitVec 16) :=
  match s.standing n, (s.peers[n]).offset with
  | .doubt, some o => if o.agrees || o.value == 0 then none else some o.value
  | _, _ => none

/-- R170: a row that vetoes: not ABSENT or SILENT, with a known agreeing offset and its ahead mark clear. -/
def State.vetoes (s : State) (n : Fin 8) : Bool :=
  s.standing n != .absent && s.standing n != .silent && !(s.peers[n]).ahead
    && (match (s.peers[n]).offset with | some o => o.agrees | none => false)

/-- R170: the offset to realign by, when the test holds. -/
def State.realignBy (s : State) : Option (BitVec 16) :=
  let ws := allNodes.filterMap s.witness
  match ws.filter (fun v => decide (2 ≤ ws.count v)) with
  | [] => none
  | v :: more =>
    if s.ctl.run != .fault && s.ctl.items.realignEnable && more.all (· == v) && !allNodes.any s.vetoes then some v else none

/-- R9: a captured count moved by the realign. -/
def Mark.shift (d : BitVec 16) (m : Mark) : Mark := { m with captured := m.captured + d }

/-- R16, R9: the Index Tracker's and the receive side's part: the count and the captured counts move, INDEX_REALIGN is raised. -/
def moveCount (d : BitVec 16) (s : State) : State :=
  let s := s.withIdx { s.idx with count := s.idx.count + d }
  let s := s.withLink { s.link with rx := s.link.rx.map (Mark.shift d), tx := s.link.tx.map (fun x => { x with mark := x.mark.shift d }) }
  raise .indexRealign s

/-- R171: every last offset unknown and every ahead mark clear. -/
def forgetOffsets (s : State) : State := s.withPeers (vmap (fun r => { r with offset := none, ahead := false }) s.peers)

/-- R37: the Unit Table's part: entries not in range leave, the others are in doubt. -/
def realignTable (s : State) : State :=
  let s := removeEntries (fun e => s.classify e.tag != .inRange) s
  s.withTable { s.table with entries := s.table.entries.map (fun e => { e with doubt := true }) }

/-- R16, R61, R132, R171: the realign by `d`, and the standby test made again after it. R16 and R171 do not order that test and what the blocks do: it comes after them, so a running sequence ends with its DOUBT record even where the station then goes to STANDBY (assumption 18). -/
def realign (d : BitVec 16) (s : State) : State :=
  let s := realignTable (forgetOffsets (moveCount d s))
  let s := dropPassed (endRunning .doubt s)
  standbyTest (refreshLevels (drainTest s))

/-- R170: the realign test. -/
def realignTest (s : State) : State := match s.realignBy with | some d => realign d s | none => s

/-- R159 to R162: the tests made after a row has changed: level conditions, standby, realign. R159, R160 and R161 name them in this order; for R162 the order is the model's (assumption 40). -/
def peerTests (s : State) : State := realignTest (standbyTest (refreshLevels s))

/-! ### Rows -/

/-- Change the row of a node; the station's own row is kept empty (R158). -/
def modifyRow (n : Fin 8) (f : PeerRow → PeerRow) (s : State) : State :=
  if n = s.ctl.node then s else s.withPeers (s.peers.set n (f s.peers[n]))

/-- R9: the offset of a frame and whether it agrees. -/
def offsetOf (count : BitVec 16) (m : Mark) : Offset :=
  let v := count - m.captured
  { value := v, agrees := v == 0 || ((v == 1 || v == -1) && m.edgeNear) }

/-- R159: what a frame taken from a station does to its sender's row. -/
def heardRow (now : Instant) (h : FrameHead) (hail : Option HailBody) (m : Mark) (r : PeerRow) : PeerRow :=
  let score := if r.errorScore = 0 then 0 else r.errorScore - 1
  let r :=
    { r with
      heard := true, heardAt := now, silenceTaken := false, errorScore := score, distrusted := r.distrusted && score != 0, state := h.state, activity := h.activity
      offset := some (offsetOf h.count m), ahead := false }
  match hail with
  | some b =>
    { r with
      role := some b.role, position := b.position, cause := b.cause
      digests := #v[b.digest0, b.digest1, b.digest2, b.digest3] }
  | none => r

/-- R160: what a discard does to the row of the sender its header names. -/
def discardedRow (r : PeerRow) : PeerRow :=
  let score := if r.errorScore = 15 then 15 else r.errorScore + 1
  { r with errorScore := score, distrusted := r.distrusted || decide (8 ≤ score.toNat) }

/-! ### Reception -/

/-- R143: what a frame that ends leaves of a deferral: a station that defers goes on deferring. -/
def Deferral.interrupted : Deferral → Deferral
  | .no => .no
  | .deferring | .waiting _ | .waitOver => .deferring

/-- R143, R149: a frame on the line has ended, with the sender read from it. It ends one cell time after its last cell started (R140; assumption 10). -/
def endFrame (sender : Option (BitVec 4)) (s : State) : State :=
  s.withLink
    { s.link with
      rx := none, lineIdle := false, quietSince := max s.link.quietSince (s.now - cellTime), deferral := s.link.deferral.interrupted
      lastSender := sender }

/-- R159: a frame taken from a station: its row, then the tests. -/
def hearStation (n : Fin 8) (h : FrameHead) (hail : Option HailBody) (m : Mark) (s : State) : State :=
  peerTests (modifyRow n (heardRow s.now h hail m) s)

/-- R151, R152, R159: what a frame taken does. Under the station's own node it is a duplicate-node report and nothing else; otherwise its sender's row is updated and the content goes on to `content`. -/
def actOnFrame (h : FrameHead) (hail : Option HailBody) (content : State → State) (m : Mark) (s : State) : State :=
  match stationOfSender h.sender with
  | none => content s
  | some n => if n = s.ctl.node then duplicateReport s else content (hearStation n h hail m s)

/-- R149: the frame in reception is taken. Cells that belong to no frame begun on an idle line are ignored. -/
def takeFrame (h : FrameHead) (hail : Option HailBody) (content : State → State) (s : State) : State :=
  match s.link.rx with
  | some m => actOnFrame h hail content m (endFrame (some h.sender) s)
  | none => s

/-- R166: the content of a unit record goes on to the Unit Table when its sender is the active source of the role its row holds. In FAULT the table takes no records (R22). -/
def fromActiveSource (h : FrameHead) (content : Fin 8 → Role → State → State) (s : State) : State :=
  match stationOfSender h.sender with
  | none => s
  | some n =>
    match (s.peers[n]).role.bind roleOfCode with
    | some r => if s.isActiveSource n && s.ctl.run != .fault then content n r s else s
    | none => s

/-- R24, R162: a record ahead sets the ahead mark of its sender's row, and the tests are made, the standby test before the realign test (assumption 40). -/
def reportAhead (n : Fin 8) (s : State) : State := peerTests (modifyRow n (fun r => { r with ahead := true }) s)

/-- R23: a late ENTRY or VALUE from the link raises UNIT_LATE on a SORT station whose retire limit is present. -/
def reportLate (s : State) : State := raiseIf (s.role == some .sort && s.idx.retireLimit.isSome) .unitLate s

/-- R151: a console frame that is obeyed: sent by a console node and addressed to this station. -/
def obey (h : ConsoleHead) (act : State → State) (s : State) : State :=
  takeFrame h.frame none (fun s => if s.addressed h then act s else s) s

end Sys2Proof.Machine
end

