-- ==== Sys2Proof/Machine/Recipe.lean ====
section
/-! DEFINITION. The Recipe Store (chapter 6): LOAD, LOCK and ERASE on a page, the clamps, the bin list and the digest. -/

namespace Sys2Proof.Machine

/-- Replace a page. -/
def setPage (p : Fin 4) (x : Page) (s : State) : State := s.withPages (s.pages.set p x)

/-- R102: the Recipe Store takes a frame in CONFIG, READY, RUN and HALT; a page number above 3 is refused. -/
def recipeFrame (page : BitVec 4) (act : Fin 4 → State → State) (s : State) : State :=
  if s.ctl.run = .listen ∨ s.ctl.run = .fault then s
  else
    match pageOfField page with
    | none => raise .consoleError s
    | some p => act p s

/-- R103, R156: the page with one parameter written, clamped; identifiers outside 1 to 12 are undefined. -/
def writeParameter (field : BitVec 12) (v : Dev) (p : Page) : Option Page :=
  match field.toNat with
  | 1 => some { p with range := BitVec.ofNat 3 (clampUnsigned 0 6 v) }
  | 2 => some { p with gain := BitVec.ofNat 3 (clampUnsigned 0 7 v) }
  | 3 => some { p with stdSlot := Fin.ofNat 4 (clampUnsigned 0 3 v) }
  | 4 => some { p with gross := BitVec.ofNat 11 (clampUnsigned 1 2047 v) }
  | 5 => some { p with guardBand := BitVec.ofNat 23 (clampUnsigned 0 Config.devMax v) }
  | 6 => some { p with agreeLimit := BitVec.ofNat 23 (clampUnsigned 0 Config.devMax v) }
  | 7 => some { p with tcrDefault := v }
  | 8 => some { p with tcrMinDt := BitVec.ofNat 12 (clampUnsigned 1 4095 v) }
  | 9 => some { p with tcrRequired := clampUnsigned 0 1 v == 1 }
  | 10 => some { p with rejectGate := clampGate (clampUnsigned 0 16 v) }
  | 11 => some { p with reworkGate := clampGate (clampUnsigned 0 16 v) }
  | 12 => some { p with overflowGate := clampGate (clampUnsigned 0 16 v) }
  | _ => none

/-- R103, R104: a taken LOAD moves an EMPTY page to LOADING. -/
def Page.loading (p : Page) : Page := { p with state := .loading }

/-- R103, R105: a LOAD of a parameter. -/
def loadParameterPage (field : BitVec 12) (v : Dev) (p : Fin 4) (s : State) : State :=
  if s.locked p then raise .consoleError s
  else
    match writeParameter field v (s.page p) with
    | some x => setPage p x.loading s
    | none => raise .consoleError s

/-- R101, R104: write a bin in ascending index order, in place of any of the same index. -/
def insertBin (b : Bin) : List Bin → List Bin
  | [] => [b]
  | x :: xs => if x.index < b.index then x :: insertBin b xs else if x.index = b.index then b :: xs else b :: x :: xs

/-- R104: the TCR window a bin LOAD carries; exactly one limit is refused (R105). -/
def windowOf (lo hi : Option Dev) : Option (Option (Dev × Dev)) :=
  match lo, hi with
  | none, none => some none
  | some l, some h => some (some (l, h))
  | some _, none | none, some _ => none

/-- R104, R105: a LOAD of a bin. -/
def loadBinPage (bin : BitVec 12) (lower upper : Dev) (gate : BitVec 12) (capacity : BitVec 16) (lo hi : Option Dev) (p : Fin 4) (s : State) : State :=
  if s.locked p then raise .consoleError s
  else
    match binOfIndex bin.toNat, windowOf lo hi with
    | some b, some w =>
      let x := s.page p
      let new : Bin := { index := b, lower := lower, upper := upper, window := w, gate := clampGate gate.toNat, capacity := capacity }
      setPage p { x with bins := insertBin new x.bins }.loading s
    | _, _ => raise .consoleError s

/-- R104, R105: a bin LOAD without limit fields removes the bin. -/
def removeBinPage (bin : BitVec 12) (p : Fin 4) (s : State) : State :=
  if s.locked p then raise .consoleError s
  else
    match binOfIndex bin.toNat with
    | some b =>
      let x := s.page p
      setPage p { x with bins := x.bins.filter (fun y => y.index != b) }.loading s
    | none => raise .consoleError s

/-! ### Digest and LOCK (R106, R107) -/

/-- R106: the cells of a bin. -/
def binCells (b : Bin) : List Cell :=
  [BitVec.ofNat 12 (binIndex b.index), (if b.window.isSome then 1 else 0)] ++ signedPair b.lower ++ signedPair b.upper
    ++ (match b.window with | some (lo, hi) => signedPair lo ++ signedPair hi | none => [])
    ++ [BitVec.ofNat 12 b.gate.val] ++ countPair b.capacity

/-- R106: a magnitude held without sign, as a deviation-form quantity. -/
def unsignedPair (m : BitVec 23) : List Cell := signedPair { neg := false, mag := m }

/-- R106: the canonical cell sequence of a page. -/
def digestCells (n : Fin 4) (p : Page) : List Cell :=
  [BitVec.ofNat 12 n.val, p.range.setWidth 12, p.gain.setWidth 12, BitVec.ofNat 12 p.stdSlot.val, p.gross.setWidth 12]
    ++ unsignedPair p.guardBand ++ unsignedPair p.agreeLimit ++ signedPair p.tcrDefault
    ++ [p.tcrMinDt, (if p.tcrRequired then 1 else 0), BitVec.ofNat 12 p.rejectGate.val, BitVec.ofNat 12 p.reworkGate.val,
        BitVec.ofNat 12 p.overflowGate.val]
    ++ (p.bins.map binCells).flatten

/-- R106: the digest: the sum of the cells modulo 4096, a sum of 0 taken as 4095. -/
def pageDigest (n : Fin 4) (p : Page) : BitVec 12 := if checkCell (digestCells n p) = 0 then 4095 else checkCell (digestCells n p)

/-- R107: a LOCK. -/
def lockPage (expected : BitVec 12) (p : Fin 4) (s : State) : State :=
  let x := s.page p
  let d := pageDigest p x
  match x.state with
  | .empty => raise .consoleError s
  | .loading => if d = expected then setPage p { x with state := .locked, digest := d } s else raise .pageLockRefused s
  | .locked => if d = expected then s else raise .pageLockRefused s

/-! ### ERASE (R109, R110) -/

/-- R110: on a SORT station every bin tally of the page is set to 0, and BIN_FULL may clear. -/
def clearPageTallies (p : Fin 4) (s : State) : State :=
  settleBinFull (s.withGates { s.gates with binTallies := s.gates.binTallies.set p (Vector.replicate 16 0) })

/-- R109, R110: an ERASE. -/
def erasePage (p : Fin 4) (s : State) : State :=
  if s.pageInUse p then raise .pageInUse s
  else
    let s := setPage p Page.cleared s
    if s.role = some .sort then clearPageTallies p s else s

end Sys2Proof.Machine
end

