-- ==== Sys2Proof/Machine/IndexEvents.lean ====
section
/-! DEFINITION. INDEX_EVENT, RESET_ASSERT and HARD_RESET: the Index Tracker's acceptance of an edge (R1, R2), what each block does with it (R3), and the hard reset (R172). -/

namespace Sys2Proof.Machine

/-! ### The index event -/

/-- R1: an edge is accepted 1 ms or more after the last accepted one, or when there is none. -/
def State.acceptsEdge (s : State) : Bool :=
  match s.idx.lastIndex with
  | some e => decide (e + Config.indexInterval ≤ s.now)
  | none => true

/-- R2: the count goes up and the instant is recorded. -/
def countEdge (s : State) : State := s.withIdx { s.idx with count := s.idx.count + 1, lastIndex := some s.now }

/-- R8: a frame that started within one cell time before an accepted edge is edge-near. -/
def Mark.nearEdge (now : Instant) (m : Mark) : Mark := { m with edgeNear := m.edgeNear || decide (now ≤ m.startedAt + cellTime) }

/-- R8: the marks of the frame being received and of the own header, which becomes a frame start when its claim is lost. -/
def markEdge (s : State) : State :=
  s.withLink
    { s.link with
      rx := s.link.rx.map (Mark.nearEdge s.now)
      tx := s.link.tx.map (fun x => { x with mark := x.mark.nearEdge s.now }) }

/-- R14: a PROBE station reads PAGE[1:0] at every accepted edge. -/
def samplePage (pins : BitVec 2) (s : State) : State :=
  if s.role = some .probe then s.withIdx { s.idx with currentPage := pageOfBits pins } else s

/-- R146: a unit record that has waited through 2 index events. -/
def QItem.isStale (q : QItem) : Bool := q.frame.isUnit && decide (2 ≤ q.waiting)

/-- R146: one more index event waited through. -/
def QItem.age (q : QItem) : QItem := if q.frame.isUnit then { q with waiting := q.waiting + 1 } else q

/-- R146: the waiting counts go up and the stale unit records leave with FRAME_STALE. -/
def ageQueue (s : State) : State :=
  let s1 := s.withLink { s.link with queue := s.link.queue.map QItem.age }
  raiseIf (s1.link.queue.any QItem.isStale) .frameStale (keepQueued (fun q => !q.isStale) s1)

/-- R96: the staleness counts of a station that measures with standards go up. -/
def ageStandards (s : State) : State :=
  match s.role with
  | some .precise | some .retest | some .thermal => s.withDrift (vmap countStale s.drift)
  | some .probe | some .sort | none => s

/-- R60: an index event aborts a sequence in progress, with MEAS_ABORT. -/
def abortRunning (s : State) : State := raiseIf s.eng.ctx.isSome .measAbort (endRunning .aborted s)

/-- R34: on a station that is not SORT, every entry beyond the retire limit leaves. -/
def retireEntries (s : State) : State :=
  match s.idx.retireLimit with
  | some r => removeEntries (fun e => decide (r < s.posOf e.tag)) s
  | none => s

/-- R34, R43, R128: the Unit Table, the Measurement Engine and the Gate Scheduler under the new count. The role decides which of them act. -/
def handleIndex (s : State) : State := if s.role = some .sort then sortIndexEvent (abortRunning s) else takeWork (retireEntries (abortRunning s))

/-- R3: an accepted edge at every block (assumption 11). R97 does not order the ageing of the slot in service and a UNIT measurement that starts under a page with another STD_SLOT: level conditions are looked at after both, at the end of the command (assumption 13). -/
def indexEffect (pins : BitVec 2) (s : State) : State := handleIndex (ageStandards (ageQueue (samplePage pins (markEdge (countEdge s)))))

/-- R1: INDEX_EVENT. An edge that is not accepted changes nothing. -/
def execIndexEvent (t : Instant) (pins : BitVec 2) (s : State) : Host.Outcome State Fault Refusal :=
  let s := advance t s
  .next (if !s.resetHeld && s.acceptsEdge then settle (indexEffect pins s) else s)

/-! ### Reset -/

/-- R172, R140: RESET goes low: the outputs are released (Outputs.lean), the line is not driven and nothing is received. -/
def assertReset (s : State) : State := (s.withResetHeld true).withLink { s.link with tx := none, rx := none }

/-- R172: RESET_ASSERT. -/
def execResetAssert (t : Instant) (s : State) : Host.Outcome State Fault Refusal := .next (assertReset (advance t s))

/-- R173: enter LISTEN with its timer started and a HAIL offered. -/
def enterListen (s : State) : State :=
  offerHail (s.withCtl { s.ctl with run := .listen, listenDue := some (s.now + Config.listenWindow) })

/-- R172: the reset cause. -/
def causeOf : HardCause → ResetCause
  | .powerUp => .power
  | .resetPin => .pin

/-- R172: every block cleared, cause and straps set; the waiting commands and the free values drawn are not the part's own. -/
def clearAll (t : Instant) (cause : HardCause) (node role : BitVec 3) (page : BitVec 2) (s : State) : State :=
  ((State.cleared (max s.now t) (causeOf cause) (nodeOfStrap node) role (pageOfBits page)).withPending s.pending).withFreeDraws s.freeDraws

/-- R172 step 5: LISTEN with a valid role, else FAULT with BAD_ROLE. -/
def startUp (s : State) : State := if s.role.isSome then enterListen s else enterFault .badRole s

/-- R172: HARD_RESET. -/
def execHardReset (t : Instant) (cause : HardCause) (node role : BitVec 3) (page : BitVec 2) (s : State) : Host.Outcome State Fault Refusal :=
  .next (settle (startUp (clearAll t cause node role page s)))

end Sys2Proof.Machine
end

