-- ==== Sys2Proof/Machine/Console.lean ====
section
/-! DEFINITION. The console frames that act: RUN, HALT, DRAIN, SETUP, SETUP_POSITION, SETUP_GATE_POS, DONE, MUTE, UNMUTE and RESTART (chapter 10), LOAD_PARAMETER, LOAD_BIN, LOAD_BIN_REMOVE, LOCK and ERASE (chapter 6), BIN_CLEAR (R134), CLEAR_ALERT_FLAGS and MASK (chapter 11). -/

namespace Sys2Proof.Machine

/-! ### RUN, HALT and DRAIN (R177, R178) -/

/-- R177: RUN by state. In RUN it cancels a drain. -/
def runMode (s : State) : State :=
  match s.ctl.run with
  | .listen | .fault => s
  | .config => raise .runRefused s
  | .ready | .halt => if s.anyLocked then setStation .run false s else raise .runRefused s
  | .run => setStation .run false s

/-- R177: RUN. -/
def execRun (t : Instant) (h : ConsoleHead) (s : State) : Host.Outcome State Fault Refusal := event t (obey h runMode) s

/-- R177: HALT by state; the undefined mode is refused wherever a RUN/HALT frame is not ignored. -/
def haltMode (m : HaltMode) (s : State) : State :=
  match s.ctl.run, m with
  | .listen, _ | .fault, _ => s
  | _, .undefinedMode => raise .consoleError s
  | .config, .halt | .ready, .halt => raise .consoleError s
  | .run, .halt => setStation .halt false s
  | .halt, .halt => s

/-- R177: HALT. -/
def execHalt (t : Instant) (h : ConsoleHead) (m : HaltMode) (s : State) : Host.Outcome State Fault Refusal := event t (obey h (haltMode m)) s

/-- R178: DRAIN by state and role. Its first test for awaiting entries is the one at the end of the command. -/
def drainMode (s : State) : State :=
  match s.ctl.run with
  | .listen | .fault | .halt => s
  | .config | .ready => raise .consoleError s
  | .run =>
    match s.role with
    | some .probe | some .sort => setStation .halt false s
    | some .precise | some .retest | some .thermal => setStation .run true s
    | none => s

/-- R178: DRAIN. -/
def execDrain (t : Instant) (h : ConsoleHead) (s : State) : Host.Outcome State Fault Refusal := event t (obey h drainMode) s

/-! ### SETUP (R175, R176) -/

/-- R175: a SETUP frame by state: acted on in CONFIG, refused in READY, RUN and HALT, ignored in LISTEN and FAULT. An item of the SORT gates group is set aside in CONFIG on a station of another role (assumption 21). -/
def setupFrame (sortItem : Bool) (act : State → State) (s : State) : State :=
  match s.ctl.run with
  | .listen | .fault => s
  | .ready | .run | .halt => raise .consoleError s
  | .config => if sortItem && s.role != some .sort then s else act s

/-- R175: the SORT gates group, identifiers 19 to 39. -/
def isSortItem (item : BitVec 8) : Bool := decide (19 ≤ item.toNat) && decide (item.toNat ≤ 39)

/-- R175: a GATE_POS item written. -/
def writeGatePos (g : Fin 16) (v : Dev) (x : Items) : Items := { x with gatePos := x.gatePos.set g (clampGatePos x.position v) }

/-- R175: POSITION written. -/
def writePosition (v : Dev) (x : Items) : Items := { x with position := some (clampUnsigned 1 31 v) }

/-- R175: the item of an identifier written, clamped to its range; none for an identifier that the table does not list. -/
def writeItem (item : BitVec 8) (v : Dev) (x : Items) : Option Items :=
  match item.toNat with
  | 1 => some (writePosition v x)
  | 2 => some { x with stdCert := x.stdCert.set 0 (clampSigned Config.termMax v) }
  | 3 => some { x with stdCert := x.stdCert.set 1 (clampSigned Config.termMax v) }
  | 4 => some { x with stdCert := x.stdCert.set 2 (clampSigned Config.termMax v) }
  | 5 => some { x with stdCert := x.stdCert.set 3 (clampSigned Config.termMax v) }
  | 6 => some { x with channelTrim := clampSigned Config.termMax v }
  | 7 => some { x with settle := clampUnsigned 1 255 v }
  | 8 => some { x with gap := clampUnsigned 1 255 v }
  | 9 => some { x with measLimit := clampUnsigned 1 255 v }
  | 10 => some { x with osr := clampUnsigned 0 5 v }
  | 11 => some { x with phaseAvg := clampUnsigned 1 16 v }
  | 12 => some { x with discard := clampUnsigned 0 3 v }
  | 13 => some { x with contactLimit := clampUnsigned 1 255 v }
  | 14 => some { x with offsetLimit := clampUnsigned 0 4095 v }
  | 15 => some { x with minStd := clampUnsigned 1 4095 v }
  | 16 => some { x with driftLimit := clampUnsigned 0 Config.termMax v }
  | 17 => some { x with realignEnable := clampUnsigned 0 1 v == 1 }
  | 18 => some { x with broadcastAlerts := clampUnsigned 0 1 v == 1 }
  | 35 => some { x with fireDelay := clampUnsigned 0 255 v }
  | 36 => some { x with pullIn := clampUnsigned 1 255 v }
  | 37 => some { x with pulseWidth := clampUnsigned 1 255 v }
  | 38 => some { x with holdDuty := clampUnsigned 0 255 v }
  | 39 => some { x with fallbackGate := some (clampGate (clampUnsigned 0 16 v)) }
  | n => if g : 19 ≤ n ∧ n ≤ 34 then some (writeGatePos ⟨n - 19, by omega⟩ v x) else none

/-- Replace the configuration items. -/
def setItems (x : Items) (s : State) : State := s.withCtl { s.ctl with items := x }

/-- R176: the held configuration is valid. -/
def configValid (role : Option Role) (x : Items) : Bool :=
  match x.position with
  | none => false
  | some p =>
    role != some .sort
      || (x.gatePos.toList.any (fun g => g != 0) && x.gatePos.toList.all (fun g => g == 0 || decide (p < g)) && x.fallbackGate.isSome)

/-- R176: DONE in CONFIG. -/
def finishSetup (s : State) : State :=
  if configValid s.role s.ctl.items then setStation .ready s.ctl.drain s else raise .configIncomplete s

/-- R175: a write of POSITION or of a GATE_POS recomputes the retire limit. -/
def movesLimit (item : BitVec 8) : Bool := item.toNat == 1 || (decide (19 ≤ item.toNat) && decide (item.toNat ≤ 34))

/-- R175: a SETUP of an item in CONFIG. -/
def setupItem (item : BitVec 8) (v : Dev) (s : State) : State :=
  match writeItem item v s.ctl.items with
  | some x => if movesLimit item then recomputeRetire (setItems x s) else setItems x s
  | none => if item.toNat = 255 then finishSetup s else raise .consoleError s

/-- R175: SETUP. -/
def execSetup (t : Instant) (h : ConsoleHead) (item : BitVec 8) (v : Dev) (s : State) : Host.Outcome State Fault Refusal :=
  event t (obey h (setupFrame (isSortItem item) (setupItem item v))) s

/-- R4, R5, R175: POSITION in CONFIG. -/
def setPosition (v : Dev) (s : State) : State := recomputeRetire (setItems (writePosition v s.ctl.items) s)

/-- R4: SETUP_POSITION. -/
def execSetupPosition (t : Instant) (h : ConsoleHead) (v : Dev) (s : State) : Host.Outcome State Fault Refusal :=
  event t (obey h (setupFrame false (setPosition v))) s

/-- R5, R175: a GATE_POS in CONFIG. -/
def setGatePos (g : Fin 16) (v : Dev) (s : State) : State := recomputeRetire (setItems (writeGatePos g v s.ctl.items) s)

/-- R5: SETUP_GATE_POS. -/
def execSetupGatePos (t : Instant) (h : ConsoleHead) (g : Fin 16) (v : Dev) (s : State) : Host.Outcome State Fault Refusal :=
  event t (obey h (setupFrame true (setGatePos g v))) s

/-- R176: DONE; its value is ignored (R175). -/
def execDone (t : Instant) (h : ConsoleHead) (_v : Dev) (s : State) : Host.Outcome State Fault Refusal :=
  event t (obey h (setupFrame false finishSetup)) s

/-! ### LOAD, LOCK and ERASE -/

/-- R103: LOAD_PARAMETER. -/
def execLoadParameter (t : Instant) (h : ConsoleHead) (page : BitVec 4) (field : BitVec 12) (v : Dev) (s : State) :
    Host.Outcome State Fault Refusal := event t (obey h (recipeFrame page (loadParameterPage field v))) s

/-- R104: LOAD_BIN. -/
def execLoadBin (t : Instant) (h : ConsoleHead) (page : BitVec 4) (bin : BitVec 12) (lower upper : Dev) (gate : BitVec 12)
    (capacity : BitVec 16) (lo hi : Option Dev) (s : State) : Host.Outcome State Fault Refusal :=
  event t (obey h (recipeFrame page (loadBinPage bin lower upper gate capacity lo hi))) s

/-- R104: LOAD_BIN_REMOVE. -/
def execLoadBinRemove (t : Instant) (h : ConsoleHead) (page : BitVec 4) (bin : BitVec 12) (s : State) : Host.Outcome State Fault Refusal :=
  event t (obey h (recipeFrame page (removeBinPage bin))) s

/-- R107: LOCK. -/
def execLock (t : Instant) (h : ConsoleHead) (page : BitVec 4) (digest : BitVec 12) (s : State) : Host.Outcome State Fault Refusal :=
  event t (obey h (recipeFrame page (lockPage digest))) s

/-- R109: ERASE. -/
def execErase (t : Instant) (h : ConsoleHead) (page : BitVec 4) (s : State) : Host.Outcome State Fault Refusal :=
  event t (obey h (recipeFrame page erasePage)) s

/-! ### CLEAR and MASK -/

/-- R134: a BIN CLEAR, in every state but LISTEN. -/
def clearBin (page : BitVec 4) (bin : BitVec 8) (s : State) : State :=
  if s.ctl.run = .listen then s
  else
    match pageOfField page, binOfIndex bin.toNat with
    | some p, some b => settleBinFull (setBinTally p b 0 s)
    | _, _ => raise .consoleError s

/-- R134: BIN_CLEAR. -/
def execBinClear (t : Instant) (h : ConsoleHead) (page : BitVec 4) (bin : BitVec 8) (s : State) : Host.Outcome State Fault Refusal :=
  event t (obey h (clearBin page bin)) s

/-- R183: the alert word after a CLEAR naming `named`: positions 26 to 32 are no flags, and a standing condition holds its flag set. -/
def clearWord (s : State) (named : BitVec 32) : BitVec 32 := s.alerts.word &&& ~~~(named &&& ~~~s.heldFlags)

/-- R183: a CLEAR of alert flags, or of an undefined form, in every state but LISTEN. -/
def clearFlags (form : ClearForm) (s : State) : State :=
  if s.ctl.run = .listen then s
  else
    match form with
    | .flags named => s.withAlerts { s.alerts with word := clearWord s named }
    | .undefinedForm _ => raise .consoleError s

/-- R183: CLEAR_ALERT_FLAGS. -/
def execClearAlertFlags (t : Instant) (h : ConsoleHead) (form : ClearForm) (s : State) : Host.Outcome State Fault Refusal :=
  event t (obey h (clearFlags form)) s

/-- R184: a MASK, in every state but LISTEN. The mask bits of positions 26 to 32 are held off. -/
def setMask (word : BitVec 32) (master : Bool) (s : State) : State :=
  if s.ctl.run = .listen then s else s.withAlerts { s.alerts with mask := word &&& assignedMask, master := master }

/-- R184: MASK. -/
def execMask (t : Instant) (h : ConsoleHead) (word : BitVec 32) (master : Bool) (s : State) : Host.Outcome State Fault Refusal :=
  event t (obey h (setMask word master)) s

/-! ### MUTE and UNMUTE (R168, R181) -/

/-- R181: Run Control obeys a MUTE frame in CONFIG, READY, RUN and HALT. -/
def muteFrame (act : State → State) (s : State) : State := if s.ctl.run = .listen ∨ s.ctl.run = .fault then s else act s

/-- R168: mute. -/
def muteStation (s : State) : State := if s.ctl.activity = .muted then s else enterMuted s

/-- R168: MUTE. -/
def execMute (t : Instant) (h : ConsoleHead) (s : State) : Host.Outcome State Fault Refusal := event t (obey h (muteFrame muteStation)) s

/-- R168: unmute: ACTIVE or STANDBY by the standby test, without TAKEOVER. -/
def unmuteStation (s : State) : State :=
  if s.ctl.activity = .muted then setActivity (if s.lowerQualifies then .standby else .active) s else s

/-- R168: UNMUTE. -/
def execUnmute (t : Instant) (h : ConsoleHead) (s : State) : Host.Outcome State Fault Refusal :=
  event t (obey h (muteFrame unmuteStation)) s

/-! ### RESTART (R179) -/

/-- R63, R179: the measurement is discarded and the relays are released; the ADC channels stay as they are (R89; assumption 44). -/
def releaseEngine (s : State) : State :=
  let s := setMeasReq false (turnOff s)
  s.withEng { s.eng with ctx := none, relays := { slot := none, unit := false, check := false } }

/-- R38: the Unit Table and the last-removed page memory are emptied. -/
def emptyTable (s : State) : State := s.withTable { entries := [], lastRemoved := none }

/-- R147: the queue is emptied and deferral ends; a claim still in its header cell stops. -/
def emptyQueue (s : State) : State :=
  let s := keepQueued (fun _ => false) s
  s.withLink { s.link with deferral := .no }

/-- R98, R158: the drift records and the Peer Table are cleared. -/
def clearRecords (s : State) : State :=
  (s.withDrift (Vector.replicate 4 { baseline := none, ring := [], staleness := 0 })).withPeers (Vector.replicate 8 PeerRow.cleared)

/-- R182: every flag is cleared. -/
def clearWordAll (s : State) : State := s.withAlerts { s.alerts with word := 0 }

/-- R179: the state a RESTART leads to. -/
def restartState : StationState → StationState
  | .listen => .listen
  | .config => .config
  | .ready | .run | .halt => .ready
  | .fault => .fault

/-- R179: everything a RESTART clears. -/
def restartClears (s : State) : State := clearWordAll (clearRecords (clearTallies (clearFirings (emptyQueue (emptyTable (releaseEngine s))))))

/-- R179: RESTART by state. In LISTEN the window starts again, with a HAIL (assumption 22). -/
def restartStation (s : State) : State :=
  if s.ctl.run = .fault then s
  else
    let s := restartClears s
    let s := s.withCtl { s.ctl with cause := .restart }
    let s := setStation (restartState s.ctl.run) false (setActivity .active s)
    if s.ctl.run = .listen then enterListen s else s

/-- R179: RESTART. -/
def execRestart (t : Instant) (h : ConsoleHead) (s : State) : Host.Outcome State Fault Refusal := event t (obey h restartStation) s

end Sys2Proof.Machine
end

