-- ==== Sys2Proof/Machine/LineEvents.lean ====
section
/-! DEFINITION. The commands of the line: LINE_IDLE, DEFERRAL_WAIT_EXPIRY, CLAIM_LOST, COLLISION, FRAME_SENT, FRAME_START and FRAME_DISCARD (sections 8.2 to 8.6). The bits of other senders are the environment's: these commands say what the station reads back (assumption 32). -/

namespace Sys2Proof.Machine

/-- R143: the length of a deferral wait in cell times after a frame of `sender`, or after one whose header could not be read. -/
def deferralCells (node : Fin 8) (sender : Option (BitVec 4)) : Nat :=
  match sender with
  | some m => (senderOfNode node - m).toNat
  | none => node.val

/-- R143: a deferring station's wait starts at the idle moment; a wait of 0 cell times is over at once. -/
def startWait (s : State) : Deferral :=
  match s.link.deferral with
  | .deferring =>
    let n := deferralCells s.ctl.node s.link.lastSender
    if n = 0 then .waitOver else .waiting (s.now + cellTime * n)
  | d => d

/-- R148: the end of the check cell of the own frame (assumption 35). -/
def Tx.endsAt (x : Tx) : Instant := x.mark.startedAt + cellTime * x.cells.length

/-- R139: the start of the last cell of the own frame that has started by the instant `now`: its cells follow one another. -/
def Tx.lastCell (x : Tx) (now : Instant) : Instant :=
  x.mark.startedAt + cellTime * min (x.cells.length - 1) ((now - x.mark.startedAt) / cellTime)

/-- R148: the own frame is complete. -/
def completeFrame (s : State) : State :=
  match s.link.tx with
  | some x =>
    if x.won ∧ x.endsAt ≤ s.now then
      s.withLink { s.link with tx := none, quietSince := max s.link.quietSince (x.lastCell s.now) }
    else s
  | none => s

/-- R140: no cell has started for two cell times. -/
def State.lineQuiet (s : State) : Bool := decide (s.link.quietSince + 2 * cellTime ≤ s.now)

/-- R149: a frame whose end was not reported stopped short when the line went quiet: it is discarded, its header unread. -/
def dropReception (s : State) : State :=
  match s.link.rx with
  | some _ => s.withLink { s.link with rx := none, deferral := s.link.deferral.interrupted, lastSender := none }
  | none => s

/-- R140, R143: the line is idle, and a deferring station's wait starts. -/
def goIdle (s : State) : State := s.withLink { s.link with lineIdle := true, deferral := startWait s }

/-- R140, R143: the line becomes idle once two cell times have passed with no cell started. An own frame that has come to its end is complete. -/
def lineBecomesIdle (s : State) : State :=
  let s := completeFrame s
  if s.link.tx.isSome || !s.lineQuiet then s else goIdle (dropReception s)

/-- R140: LINE_IDLE. -/
def execLineIdle (t : Instant) (s : State) : Host.Outcome State Fault Refusal := event t lineBecomesIdle s

/-- R143: the wait ends on an idle line. -/
def endWait (s : State) : State :=
  match s.link.deferral with
  | .waiting due => if s.link.lineIdle ∧ due ≤ s.now then s.withLink { s.link with deferral := .waitOver } else s
  | .no | .deferring | .waitOver => s

/-- R143: DEFERRAL_WAIT_EXPIRY. -/
def execDeferralWaitExpiry (t : Instant) (s : State) : Host.Outcome State Fault Refusal := event t endWait s

/-- R141: a claim lost in the header cell: the station stops driving, receives from its own header start, keeps its frame and defers. -/
def loseClaim (s : State) : State :=
  match s.link.tx with
  | some x =>
    if x.won then s
    else s.withLink { s.link with tx := none, rx := some x.mark, lineIdle := false, deferral := .deferring }
  | none => s

/-- R141: CLAIM_LOST. -/
def execClaimLost (t : Instant) (s : State) : Host.Outcome State Fault Refusal := event t loseClaim s

/-- R142: a collision. The frame is lost and the station receives on; after the header cell it is a duplicate-node report. -/
def collide (s : State) : State :=
  match s.link.tx with
  | some x =>
    let s1 :=
      s.withLink
        { s.link with
          tx := none, rx := some x.mark, lineIdle := false, quietSince := max s.link.quietSince (x.lastCell s.now)
          queue := if x.won then s.link.queue else s.link.queue.tail }
    if x.won then duplicateReport s1 else s1
  | none => s

/-- R142: COLLISION. -/
def execCollision (t : Instant) (s : State) : Host.Outcome State Fault Refusal := event t collide s

/-- R148: FRAME_SENT. -/
def execFrameSent (t : Instant) (s : State) : Host.Outcome State Fault Refusal := event t completeFrame s

/-- R8, R140, R143, R149: the start mark of another node's cell. On an idle line it begins a frame and ends a deferral wait, and the station is still deferring. On a line that is not idle it belongs to no frame begun here, and only delays the idle moment. -/
def beginReception (s : State) : State :=
  if s.link.lineIdle then
    s.withLink
      { s.link with rx := some s.freshMark, lineIdle := false, quietSince := s.now, deferral := s.link.deferral.interrupted }
  else s.withLink { s.link with quietSince := s.now }

/-- R8: FRAME_START. -/
def execFrameStart (t : Instant) (s : State) : Host.Outcome State Fault Refusal := event t beginReception s

/-- R150, R160: a discard counts against the station its header names, other than this one. -/
def countDiscard (sender : Option (BitVec 4)) (s : State) : State :=
  match sender.bind stationOfSender with
  | some n => if n = s.ctl.node then s else peerTests (modifyRow n discardedRow s)
  | none => s

/-- R149, R150: the frame in reception is discarded. -/
def discardFrame (sender : Option (BitVec 4)) (s : State) : State :=
  match s.link.rx with
  | some _ => countDiscard sender (endFrame sender s)
  | none => s

/-- R150: FRAME_DISCARD. -/
def execFrameDiscard (t : Instant) (sender : Option (BitVec 4)) (s : State) : Host.Outcome State Fault Refusal :=
  event t (discardFrame sender) s

end Sys2Proof.Machine
end

