-- ==== Sys2Proof/Machine/Queries.lean ====
section
/-! DEFINITION. The QUERY commands (R186, R187): each builds its STATUS reply from the state at the moment it is taken and offers it to the transmit queue. -/

namespace Sys2Proof.Machine

/-- R186: a QUERY taken in LISTEN or in FAULT receives no reply and raises nothing (assumption 29). -/
def query (reply : State → State) (s : State) : State := if s.ctl.run = .listen ∨ s.ctl.run = .fault then s else reply s

/-- R186: item 0; items 7 to 15 are undefined. -/
def replyState (item : StateItem) (arg : BitVec 4) (s : State) : State :=
  match item with
  | .state => offerStatus [s.statusState arg] s
  | .undefinedItem _ => raise .consoleError s

/-- R186: QUERY_STATE. -/
def execQueryState (t : Instant) (h : ConsoleHead) (item : StateItem) (arg : BitVec 4) (s : State) : Host.Outcome State Fault Refusal :=
  event t (obey h (query (replyState item arg))) s

/-- R186: item 1. -/
def replyAlertWord (arg : BitVec 4) (s : State) : State := offerStatus [s.statusAlertWord arg] s

/-- R186: QUERY_ALERT_WORD. -/
def execQueryAlertWord (t : Instant) (h : ConsoleHead) (arg : BitVec 4) (s : State) : Host.Outcome State Fault Refusal :=
  event t (obey h (query (replyAlertWord arg))) s

/-- R186, R157: item 2; nodes 8 to 15 are refused. Two free values are drawn for the bits that R157 leaves open (assumption 23). -/
def replyPeerRow (arg : BitVec 4) (s : State) : State :=
  match stationOfSender arg with
  | some n => (offerStatus [s.statusPeerRow arg n (fun k => Config.freeBits (s.freeDraws + k))] s).withFreeDraws (s.freeDraws + 2)
  | none => raise .consoleError s

/-- R186: QUERY_PEER_ROW. -/
def execQueryPeerRow (t : Instant) (h : ConsoleHead) (arg : BitVec 4) (s : State) : Host.Outcome State Fault Refusal :=
  event t (obey h (query (replyPeerRow arg))) s

/-- R186: item 3; a page above 3, bin index 0 and a bin index above 16 are refused. -/
def replyBinTally (arg page : BitVec 4) (bin : BitVec 8) (s : State) : State :=
  match pageOfField page, binOfIndex bin.toNat with
  | some p, some b => offerStatus [s.statusBinTally arg page bin p b] s
  | _, _ => raise .consoleError s

/-- R186: QUERY_BIN_TALLY. -/
def execQueryBinTally (t : Instant) (h : ConsoleHead) (arg page : BitVec 4) (bin : BitVec 8) (s : State) :
    Host.Outcome State Fault Refusal := event t (obey h (query (replyBinTally arg page bin))) s

/-- R121: the place of the tally of a reason code 1 to 15. -/
def placeOfCode (c : BitVec 4) : Option (Fin 15) := if h : 1 ≤ c.toNat then some ⟨c.toNat - 1, by omega⟩ else none

/-- R186: item 4; reason code 0 is refused. -/
def replyReasonTally (arg : BitVec 4) (s : State) : State :=
  match placeOfCode arg with
  | some p => offerStatus [s.statusReasonTally arg p] s
  | none => raise .consoleError s

/-- R186: QUERY_REASON_TALLY. -/
def execQueryReasonTally (t : Instant) (h : ConsoleHead) (arg : BitVec 4) (s : State) : Host.Outcome State Fault Refusal :=
  event t (obey h (query (replyReasonTally arg))) s

/-- R187: item 5: four parts offered together. -/
def replyEntry (tag : BitVec 16) (s : State) : State := offerStatus (s.statusEntry tag) s

/-- R187: QUERY_ENTRY. The echo carries the part number in place of the argument (R157). -/
def execQueryEntry (t : Instant) (h : ConsoleHead) (_arg : BitVec 4) (tag : BitVec 16) (s : State) : Host.Outcome State Fault Refusal :=
  event t (obey h (query (replyEntry tag))) s

/-- R186: item 6; slots 4 to 15 are refused. -/
def replyDriftSlot (arg : BitVec 4) (s : State) : State :=
  match pageOfField arg with
  | some k => offerStatus [s.statusDriftSlot arg k] s
  | none => raise .consoleError s

/-- R99, R186: QUERY_DRIFT_SLOT. -/
def execQueryDriftSlot (t : Instant) (h : ConsoleHead) (arg : BitVec 4) (s : State) : Host.Outcome State Fault Refusal :=
  event t (obey h (query (replyDriftSlot arg))) s

end Sys2Proof.Machine
end

