-- ==== Sys2Proof/Machine/Reception.lean ====
section
/-! DEFINITION. The station frames taken: ENTRY_RECEIVED, VALUE_RECEIVED, VERDICT_RECEIVED, HAIL_RECEIVED, ALERT_FRAME_RECEIVED and STATUS_RECEIVED (R151, R159, R166, chapter 2). -/

namespace Sys2Proof.Machine

/-- R22 to R25, R31: an accepted ENTRY at the Unit Table. A sender that is not PROBE, and an undefined class, are discarded first. -/
def tableEntry (b : EntryBody) (n : Fin 8) (r : Role) (s : State) : State :=
  match r, classOfCode b.cls with
  | .probe, some c =>
    match s.classify b.tag with
    | .inRange => putEntryRecord { tag := b.tag, stamp := { page := pageOfBits b.page, digest := b.digest }, cls := c, coarse := b.coarse } s
    | .late => reportLate s
    | .ahead => reportAhead n s
  | _, _ => s

/-- R25: ENTRY_RECEIVED. -/
def execEntryReceived (t : Instant) (head : FrameHead) (body : EntryBody) (s : State) : Host.Outcome State Fault Refusal :=
  event t (takeFrame head none (fromActiveSource head (tableEntry body))) s

/-- R20: a VALUE carries a deviation exactly when its quality is GOOD. -/
def soundValue (b : ValueBody) (q : Quality) : Bool := b.deviation.isSome == (q == .good)

/-- R20: a received VALUE as the table holds it. -/
def heldOf (b : ValueBody) (n : Fin 8) (q : Quality) : HeldValue :=
  { source := n, quality := q, deviation := b.deviation, temperature := b.temperature, flags := b.flags, tcr := b.tcr }

/-- R20, R22 to R24, R26, R32: an accepted VALUE at the Unit Table. A sender without a slot, and an undefined quality, are discarded before the classification, an unsound deviation after it (assumption 16). -/
def tableValue (b : ValueBody) (n : Fin 8) (r : Role) (s : State) : State :=
  match slotOfRole r, qualityOfCode b.quality with
  | some k, some q =>
    match s.classify b.tag with
    | .inRange => if soundValue b q then putValue b.tag k (heldOf b n q) s else s
    | .late => reportLate s
    | .ahead => reportAhead n s
  | _, _ => s

/-- R32: VALUE_RECEIVED. -/
def execValueReceived (t : Instant) (head : FrameHead) (body : ValueBody) (s : State) : Host.Outcome State Fault Refusal :=
  event t (takeFrame head none (fromActiveSource head (tableValue body))) s

/-- R22 to R24: an accepted VERDICT is only classified; ahead counts against its sender. Reason codes 0 and 15 are undefined. -/
def tableVerdict (b : VerdictBody) (n : Fin 8) (r : Role) (s : State) : State :=
  match r with
  | .sort =>
    if b.reason = 0 ∨ b.reason = 15 then s
    else
      match s.classify b.tag with
      | .inRange | .late => s
      | .ahead => reportAhead n s
  | .probe | .precise | .retest | .thermal => s

/-- R22: VERDICT_RECEIVED. -/
def execVerdictReceived (t : Instant) (head : FrameHead) (body : VerdictBody) (s : State) : Host.Outcome State Fault Refusal :=
  event t (takeFrame head none (fromActiveSource head (tableVerdict body))) s

/-- R159: HAIL_RECEIVED. All it says goes into its sender's row. -/
def execHailReceived (t : Instant) (head : FrameHead) (body : HailBody) (s : State) : Host.Outcome State Fault Refusal :=
  event t (takeFrame head (some body) id) s

/-- R185: ALERT_FRAME_RECEIVED. The word it carries sets no flag. -/
def execAlertFrameReceived (t : Instant) (head : FrameHead) (_word : BitVec 32) (s : State) : Host.Outcome State Fault Refusal :=
  event t (takeFrame head none id) s

/-- R151: STATUS_RECEIVED. Its content is set aside. -/
def execStatusReceived (t : Instant) (head : FrameHead) (_body : List Cell) (s : State) : Host.Outcome State Fault Refusal :=
  event t (takeFrame head none id) s

end Sys2Proof.Machine
end

