-- ==== Sys2Proof/Machine/Sequence.lean ====
section
/-! DEFINITION. The commands of the measurement sequence: SETTLE_EXPIRY, CONTACT_TEST_END, OFF_INTERVAL_EXPIRY, CONVERSION_END, GAP_EXPIRY, TEMPERATURE_SAMPLE_END and MEAS_LIMIT_EXPIRY (chapter 3). -/

namespace Sys2Proof.Machine

/-- R49: SETTLE_EXPIRY. -/
def execSettleExpiry (t : Instant) (s : State) : Host.Outcome State Fault Refusal := event t endSettle s

/-- R50: CONTACT_TEST_END. -/
def execContactTestEnd (t : Instant) (milliohms : Nat) (s : State) : Host.Outcome State Fault Refusal := event t (endContactTest milliohms) s

/-- R57: OFF_INTERVAL_EXPIRY. -/
def execOffIntervalExpiry (t : Instant) (s : State) : Host.Outcome State Fault Refusal := event t endOffInterval s

/-- R41: CONVERSION_END. -/
def execConversionEnd (t : Instant) (x std : BitVec 24) (s : State) : Host.Outcome State Fault Refusal := event t (endConversion x std) s

/-- R52: GAP_EXPIRY. -/
def execGapExpiry (t : Instant) (s : State) : Host.Outcome State Fault Refusal := event t endGap s

/-- R53: TEMPERATURE_SAMPLE_END. -/
def execTemperatureSampleEnd (t : Instant) (reading : BitVec 12) (s : State) : Host.Outcome State Fault Refusal :=
  event t (endTemperature reading) s

/-- R59: MEAS_LIMIT_EXPIRY. -/
def execMeasLimitExpiry (t : Instant) (s : State) : Host.Outcome State Fault Refusal := event t expireLimit s

end Sys2Proof.Machine
end

