-- ==== Sys2Proof/Machine/Timers.lean ====
section
/-! DEFINITION. The commands of the other timers: FIRE_DELAY_EXPIRY, PULL_IN_END and PULSE_END of a gate (R129, R130), HAIL_TIMER_EXPIRY (R169), LISTEN_EXPIRY (R173) and PEER_SILENCE (R161). -/

namespace Sys2Proof.Machine

/-- R129: FIRE_DELAY_EXPIRY. -/
def execFireDelayExpiry (t : Instant) (gate : Fin 16) (s : State) : Host.Outcome State Fault Refusal := event t (expireDelay gate) s

/-- R130: PULL_IN_END. -/
def execPullInEnd (t : Instant) (gate : Fin 16) (s : State) : Host.Outcome State Fault Refusal := event t (expirePullIn gate) s

/-- R130: PULSE_END. -/
def execPulseEnd (t : Instant) (gate : Fin 16) (s : State) : Host.Outcome State Fault Refusal := event t (expirePulse gate) s

/-- A timer that runs and has come to its end (assumption 2). -/
def timerEnded (due : Option Instant) (now : Instant) : Bool :=
  match due with
  | some d => decide (d ≤ now)
  | none => false

/-- R169: the hail timer expires and a HAIL is offered, which starts it again. -/
def expireHail (s : State) : State := if timerEnded s.ctl.hailDue s.now then offerHail s else s

/-- R169: HAIL_TIMER_EXPIRY. -/
def execHailTimerExpiry (t : Instant) (s : State) : Host.Outcome State Fault Refusal := event t expireHail s

/-- R173: the LISTEN window ends: CONFIG, with the HAIL of the change. -/
def endListen (s : State) : State := setStation .config s.ctl.drain (s.withCtl { s.ctl with listenDue := none })

/-- R173: the LISTEN timer expires in LISTEN. -/
def expireListen (s : State) : State := if s.ctl.run = .listen ∧ timerEnded s.ctl.listenDue s.now then endListen s else s

/-- R173: LISTEN_EXPIRY. -/
def execListenExpiry (t : Instant) (s : State) : Host.Outcome State Fault Refusal := event t expireListen s

/-- R161: the silence timer of a heard row has reached 1000 ms, and its expiry has not been taken in this silence: the standby and realign tests are made again. The timer has no further effect until a frame is taken from the node. -/
def silencePeer (n : Fin 8) (s : State) : State :=
  if n ≠ s.ctl.node ∧ s.standing n = .silent ∧ (s.peers[n]).silenceTaken = false then
    peerTests (modifyRow n (fun r => { r with silenceTaken := true }) s)
  else s

/-- R161: PEER_SILENCE. -/
def execPeerSilence (t : Instant) (node : Fin 8) (s : State) : Host.Outcome State Fault Refusal := event t (silencePeer node) s

end Sys2Proof.Machine
end

