-- ==== Sys2Proof/Machine/Dispatch.lean ====
section
/-! DEFINITION. The effect of a command on everything but the queue of waiting commands: one arm for each constructor. -/

namespace Sys2Proof.Machine

def exec (i : Instr) (s : State) : Host.Outcome State Fault Refusal :=
  match i with
  | .indexEvent t pagePins => Sys2Proof.Machine.execIndexEvent t pagePins s
  | .resetAssert t => Sys2Proof.Machine.execResetAssert t s
  | .hardReset t cause node role page => Sys2Proof.Machine.execHardReset t cause node role page s
  | .settleExpiry t => Sys2Proof.Machine.execSettleExpiry t s
  | .contactTestEnd t milliohms => Sys2Proof.Machine.execContactTestEnd t milliohms s
  | .offIntervalExpiry t => Sys2Proof.Machine.execOffIntervalExpiry t s
  | .conversionEnd t x std => Sys2Proof.Machine.execConversionEnd t x std s
  | .gapExpiry t => Sys2Proof.Machine.execGapExpiry t s
  | .temperatureSampleEnd t reading => Sys2Proof.Machine.execTemperatureSampleEnd t reading s
  | .measLimitExpiry t => Sys2Proof.Machine.execMeasLimitExpiry t s
  | .fireDelayExpiry t gate => Sys2Proof.Machine.execFireDelayExpiry t gate s
  | .pullInEnd t gate => Sys2Proof.Machine.execPullInEnd t gate s
  | .pulseEnd t gate => Sys2Proof.Machine.execPulseEnd t gate s
  | .hailTimerExpiry t => Sys2Proof.Machine.execHailTimerExpiry t s
  | .listenExpiry t => Sys2Proof.Machine.execListenExpiry t s
  | .peerSilence t node => Sys2Proof.Machine.execPeerSilence t node s
  | .lineIdle t => Sys2Proof.Machine.execLineIdle t s
  | .deferralWaitExpiry t => Sys2Proof.Machine.execDeferralWaitExpiry t s
  | .claimLost t => Sys2Proof.Machine.execClaimLost t s
  | .collision t => Sys2Proof.Machine.execCollision t s
  | .frameSent t => Sys2Proof.Machine.execFrameSent t s
  | .frameDiscard t sender => Sys2Proof.Machine.execFrameDiscard t sender s
  | .entryReceived t head body => Sys2Proof.Machine.execEntryReceived t head body s
  | .valueReceived t head body => Sys2Proof.Machine.execValueReceived t head body s
  | .verdictReceived t head body => Sys2Proof.Machine.execVerdictReceived t head body s
  | .hailReceived t head body => Sys2Proof.Machine.execHailReceived t head body s
  | .alertFrameReceived t head word => Sys2Proof.Machine.execAlertFrameReceived t head word s
  | .statusReceived t head body => Sys2Proof.Machine.execStatusReceived t head body s
  | .run t head => Sys2Proof.Machine.execRun t head s
  | .halt t head mode => Sys2Proof.Machine.execHalt t head mode s
  | .drain t head => Sys2Proof.Machine.execDrain t head s
  | .setup t head item value => Sys2Proof.Machine.execSetup t head item value s
  | .setupPosition t head value => Sys2Proof.Machine.execSetupPosition t head value s
  | .setupGatePos t head gate value => Sys2Proof.Machine.execSetupGatePos t head gate value s
  | .done t head value => Sys2Proof.Machine.execDone t head value s
  | .loadParameter t head page field value => Sys2Proof.Machine.execLoadParameter t head page field value s
  | .loadBin t head page bin lower upper gate capacity tcrLo tcrHi => Sys2Proof.Machine.execLoadBin t head page bin lower upper gate capacity tcrLo tcrHi s
  | .loadBinRemove t head page bin => Sys2Proof.Machine.execLoadBinRemove t head page bin s
  | .lock t head page digest => Sys2Proof.Machine.execLock t head page digest s
  | .erase t head page => Sys2Proof.Machine.execErase t head page s
  | .binClear t head page bin => Sys2Proof.Machine.execBinClear t head page bin s
  | .clearAlertFlags t head form => Sys2Proof.Machine.execClearAlertFlags t head form s
  | .mask t head word master => Sys2Proof.Machine.execMask t head word master s
  | .mute t head => Sys2Proof.Machine.execMute t head s
  | .unmute t head => Sys2Proof.Machine.execUnmute t head s
  | .restart t head => Sys2Proof.Machine.execRestart t head s
  | .queryState t head item arg => Sys2Proof.Machine.execQueryState t head item arg s
  | .queryAlertWord t head arg => Sys2Proof.Machine.execQueryAlertWord t head arg s
  | .queryPeerRow t head arg => Sys2Proof.Machine.execQueryPeerRow t head arg s
  | .queryBinTally t head arg page bin => Sys2Proof.Machine.execQueryBinTally t head arg page bin s
  | .queryReasonTally t head arg => Sys2Proof.Machine.execQueryReasonTally t head arg s
  | .queryEntry t head arg tag => Sys2Proof.Machine.execQueryEntry t head arg tag s
  | .queryDriftSlot t head arg => Sys2Proof.Machine.execQueryDriftSlot t head arg s
  | .frameStart t => Sys2Proof.Machine.execFrameStart t s

end Sys2Proof.Machine
end

