-- ==== Sys2Proof/Machine/Outputs.lean ====
section
/-! DEFINITION. The pins as functions of the state: HOLD (R10), ALERT (R184), the gate outputs (R129, R130), the relay drives and the terminals that the ADC channels sense (R89), the excitation current and the PGIA gain (R40, R57), the test current of CONTACT (R50), and the levels on the Station Link (R138). While RESET is held low every output is released (R172). -/

namespace Sys2Proof.Machine

/-- R10: HOLD is pulled low while either request stands. -/
def State.pullsHold (s : State) : Bool := !s.resetHeld && (s.idx.measReq || s.idx.firingReq)

/-- R184: ALERT is asserted in FAULT, or while the master enable is on and some flag with its mask bit on is set. -/
def State.assertsAlert (s : State) : Bool :=
  !s.resetHeld && (s.ctl.run == .fault || (s.alerts.master && (s.alerts.word &&& s.alerts.mask &&& assignedMask) != 0))

/-- R130: what an output GATEn does: off, fully on, or on for `duty`/256 of each 64 µs period. -/
inductive GateDrive where
  | off | full | duty (n : Nat)
  deriving DecidableEq, Repr

/-- R129, R130: the output of a gate. -/
def State.gateDrive (s : State) (g : Fin 16) : GateDrive :=
  if s.resetHeld then .off
  else
    match s.gates.drivers[g] with
    | .idle | .delay _ _ => .off
    | .pullIn _ _ _ => .full
    | .holding _ _ => .duty s.ctl.items.holdDuty

/-- R89: RLY0 to RLY3. -/
def State.slotRelay (s : State) (k : Fin 4) : Bool := !s.resetHeld && s.eng.relays.slot == some k

/-- R89: RLY4, the unit terminals. -/
def State.unitRelay (s : State) : Bool := !s.resetHeld && s.eng.relays.unit

/-- R89: RLY5, the check resistor. -/
def State.checkRelay (s : State) : Bool := !s.resetHeld && s.eng.relays.check

/-- R89: the terminal pairs that an ADC channel can sense: SA and SB, SS1 and SS2, CK1 and CK2. -/
inductive SensePair where
  | unit | standard | checkResistor
  deriving DecidableEq, Repr

/-- R89: what channel X senses: the unit, and in the check arrangement the standard. -/
def State.xSenses (s : State) : SensePair := match s.eng.channels with | .unit => .unit | .check => .standard

/-- R89: what channel S senses: the standard, and in the check arrangement the check resistor. -/
def State.sSenses (s : State) : SensePair := match s.eng.channels with | .unit => .standard | .check => .checkResistor

/-- R40: the excitation current of a RANGE code, in nanoamperes. Code 7 is held as 6. -/
def rangeCurrent (range : BitVec 3) : Nat :=
  match range.toNat with
  | 0 => 100000000
  | 1 => 10000000
  | 2 => 1000000
  | 3 => 100000
  | 4 => 10000
  | 5 => 1000
  | _ => 100

/-- R40: the factor that a GAIN code sets the shared PGIA to: 1, 2, 4, 8, 16, 32, 64 or 128. -/
def pgiaFactor (gain : BitVec 3) : Nat := 2 ^ gain.toNat

/-- R40, R51, R53, R57: the excitation: its direction, and its current in nanoamperes by the RANGE that the context holds. -/
def State.excitationOut (s : State) : Option (Excitation × Nat) :=
  if s.resetHeld then none
  else
    match s.eng.excitation, s.eng.ctx with
    | .off, _ | _, none => none
    | x, some c => some (x, rangeCurrent c.range)

/-- R40: the factor of the PGIA for the whole of a sequence, by the GAIN that the context holds. Without a sequence the spec names none (assumption 34). -/
def State.pgiaOut (s : State) : Option Nat := if s.resetHeld then none else s.eng.ctx.map (fun c => pgiaFactor c.gain)

/-- R50: the force/sense pairs that CONTACT tests: those of the unit, and those of the check path. -/
inductive ForcePair where
  | sideA | sideB | check1 | check2
  deriving DecidableEq, Repr

/-- R50: the pair that a sequence state tests. CK1 stands in the place of side A and CK2 in that of side B for a CHECK measurement (assumption 41). -/
def testedPair (kind : WorkKind) : SeqState → Option ForcePair
  | .contactA => some (if kind = .check then .check1 else .sideA)
  | .contactB _ => some (if kind = .check then .check2 else .sideB)
  | .settle | .fwdWait | .fwd | .gap | .rev | .sampling => none

/-- R50: the pair the test current is driven on, and that current in nanoamperes. It is not excitation. -/
def State.contactOut (s : State) : Option (ForcePair × Nat) :=
  if s.resetHeld then none
  else (s.eng.ctx.bind (fun c => testedPair c.kind c.state)).map (fun pair => (pair, Config.contactTestCurrent))

/-- R138, R140, R148: what the station drives onto the line for the frame it is sending: each of its cells as the line carries it, start mark and parity bit included. A recessive level drives nothing. -/
def State.lineOut (s : State) : Option (List (List LineLevel)) :=
  if s.resetHeld then none else s.link.tx.map (fun x => x.cells.map lineCell)

/-- R138: the own cell that is on the line at the present instant. One cell takes one cell time, and the next follows with no gap (R139). -/
def State.cellOut (s : State) : Option (List LineLevel) :=
  if s.resetHeld then none else s.link.tx.bind (fun x => (x.cells[(s.now - x.mark.startedAt) / cellTime]?).map lineCell)

end Sys2Proof.Machine
end

