-- ==== Sys2Proof/WellFormed.lean ====
section
/-! DEFINITION. Well-formed commands: the checks that types alone do not make. A command that is a frame is the one spelling its frame has (R156), a STATUS frame has a body length its item calls for (R157), and the instants of waiting commands never go back. -/

namespace Sys2Proof

/-- R156: an identifier of the SETUP row proper; POSITION, GATE_POS[1-16] and DONE have rows of their own. -/
def plainSetupItem (item : BitVec 8) : Bool :=
  item.toNat != 1 && item.toNat != 255 && !(decide (19 ≤ item.toNat) && decide (item.toNat ≤ 34))

/-- A command is well formed. -/
def Instr.wellFormed (c : Instr) : Bool :=
  match c with
  | .setup _ _ item _ => plainSetupItem item
  | .statusReceived _ _ body => statusLengthOk body
  | .indexEvent _ _ | .resetAssert _ | .hardReset _ _ _ _ _ | .settleExpiry _ | .contactTestEnd _ _ | .offIntervalExpiry _
  | .conversionEnd _ _ _ | .gapExpiry _ | .temperatureSampleEnd _ _ | .measLimitExpiry _ | .fireDelayExpiry _ _ | .pullInEnd _ _
  | .pulseEnd _ _ | .hailTimerExpiry _ | .listenExpiry _ | .peerSilence _ _ | .lineIdle _ | .deferralWaitExpiry _ | .claimLost _
  | .collision _ | .frameSent _ | .frameDiscard _ _ | .frameStart _ | .entryReceived _ _ _ | .valueReceived _ _ _
  | .verdictReceived _ _ _ | .hailReceived _ _ _ | .alertFrameReceived _ _ _ | .run _ _ | .halt _ _ _ | .drain _ _
  | .setupPosition _ _ _ | .setupGatePos _ _ _ _ | .done _ _ _ | .loadParameter _ _ _ _ _ | .loadBin _ _ _ _ _ _ _ _ _ _
  | .loadBinRemove _ _ _ _ | .lock _ _ _ _ | .erase _ _ _ | .binClear _ _ _ _ | .clearAlertFlags _ _ _ | .mask _ _ _ _
  | .mute _ _ | .unmute _ _ | .restart _ _ | .queryState _ _ _ _ | .queryAlertWord _ _ _ | .queryPeerRow _ _ _
  | .queryBinTally _ _ _ _ _ | .queryReasonTally _ _ _ | .queryEntry _ _ _ _ | .queryDriftSlot _ _ _ => true

/-- The instant at which a command is taken. -/
def Instr.instant (c : Instr) : Instant :=
  match c with
  | .indexEvent t _ | .resetAssert t | .hardReset t _ _ _ _ | .settleExpiry t | .contactTestEnd t _ | .offIntervalExpiry t
  | .conversionEnd t _ _ | .gapExpiry t | .temperatureSampleEnd t _ | .measLimitExpiry t | .fireDelayExpiry t _ | .pullInEnd t _
  | .pulseEnd t _ | .hailTimerExpiry t | .listenExpiry t | .peerSilence t _ | .lineIdle t | .deferralWaitExpiry t | .claimLost t
  | .collision t | .frameSent t | .frameDiscard t _ | .frameStart t | .entryReceived t _ _ | .valueReceived t _ _
  | .verdictReceived t _ _ | .hailReceived t _ _ | .alertFrameReceived t _ _ | .statusReceived t _ _ | .run t _ | .halt t _ _
  | .drain t _ | .setup t _ _ _ | .setupPosition t _ _ | .setupGatePos t _ _ _ | .done t _ _ | .loadParameter t _ _ _ _
  | .loadBin t _ _ _ _ _ _ _ _ _ | .loadBinRemove t _ _ _ | .lock t _ _ _ | .erase t _ _ | .binClear t _ _ _
  | .clearAlertFlags t _ _ | .mask t _ _ _ | .mute t _ | .unmute t _ | .restart t _ | .queryState t _ _ _ | .queryAlertWord t _ _
  | .queryPeerRow t _ _ | .queryBinTally t _ _ _ _ | .queryReasonTally t _ _ | .queryEntry t _ _ _ | .queryDriftSlot t _ _ => t

/-- Waiting commands are well formed and their instants never go back. -/
def queueWellFormed (q : List Instr) : Bool :=
  q.all Instr.wellFormed && (q.zip q.tail).all (fun p => decide (p.1.instant ≤ p.2.instant))

end Sys2Proof
end

