-- ==== Sys2Proof/Safety.lean ====
section
/-! DEFINITION. What counts as a sound state of one station, part by part, and what the end of a command may change. The statements for the provers are made in these terms. -/

namespace Sys2Proof

/-! ### Commands that are frames -/

/-- R156: the head of a command that is a console frame. -/
def Instr.consoleHead (c : Instr) : Option ConsoleHead :=
  match c with
  | .run _ h | .halt _ h _ | .drain _ h | .setup _ h _ _ | .setupPosition _ h _ | .setupGatePos _ h _ _ | .done _ h _
  | .loadParameter _ h _ _ _ | .loadBin _ h _ _ _ _ _ _ _ _ | .loadBinRemove _ h _ _ | .lock _ h _ _ | .erase _ h _
  | .binClear _ h _ _ | .clearAlertFlags _ h _ | .mask _ h _ _ | .mute _ h | .unmute _ h | .restart _ h | .queryState _ h _ _
  | .queryAlertWord _ h _ | .queryPeerRow _ h _ | .queryBinTally _ h _ _ _ | .queryReasonTally _ h _ | .queryEntry _ h _ _
  | .queryDriftSlot _ h _ => some h
  | .indexEvent _ _ | .resetAssert _ | .hardReset _ _ _ _ _ | .settleExpiry _ | .contactTestEnd _ _ | .offIntervalExpiry _
  | .conversionEnd _ _ _ | .gapExpiry _ | .temperatureSampleEnd _ _ | .measLimitExpiry _ | .fireDelayExpiry _ _ | .pullInEnd _ _
  | .pulseEnd _ _ | .hailTimerExpiry _ | .listenExpiry _ | .peerSilence _ _ | .lineIdle _ | .deferralWaitExpiry _ | .claimLost _
  | .collision _ | .frameSent _ | .frameDiscard _ _ | .frameStart _ | .entryReceived _ _ _ | .valueReceived _ _ _
  | .verdictReceived _ _ _ | .hailReceived _ _ _ | .alertFrameReceived _ _ _ | .statusReceived _ _ _ => none

/-- R139: the header sender and count cells of a command that is a frame taken. -/
def Instr.frameHead (c : Instr) : Option FrameHead :=
  match c with
  | .entryReceived _ h _ | .valueReceived _ h _ | .verdictReceived _ h _ | .hailReceived _ h _ | .alertFrameReceived _ h _
  | .statusReceived _ h _ => some h
  | c => c.consoleHead.map ConsoleHead.frame

/-- R155, R159: what a HAIL says of its sender beside its header. -/
def Instr.hail (c : Instr) : Option HailBody :=
  match c with
  | .hailReceived _ _ b => some b
  | _ => none

/-- R154: a command that is a unit record taken. -/
def Instr.isRecord (c : Instr) : Bool :=
  match c with
  | .entryReceived _ _ _ | .valueReceived _ _ _ | .verdictReceived _ _ _ => true
  | _ => false

end Sys2Proof

namespace Sys2Proof.Machine

/-! ### Sound states -/

/-- The excitation that a sequence state calls for (R49 to R53): current flows only while FWD or REV converts or the temperature is sampled. -/
def SeqState.drives : SeqState → Excitation
  | .fwd => .forward
  | .rev | .sampling => .reverse
  | .settle | .contactA | .contactB _ | .fwdWait | .gap => .off

/-- R10, R11, R57: the measurement request stands exactly while a sequence runs, and the excitation is what its state calls for. -/
def EngineOk (s : State) : Prop :=
  s.idx.measReq = s.eng.ctx.isSome ∧ s.eng.excitation = (match s.eng.ctx with | some c => c.state.drives | none => .off)

/-- R145, R146, R141, R140: the queue holds at most 6 frames, no unit record in it has waited through 2 index events, a claim is for the head of the queue, and the line is not idle while the station sends or receives. Nothing offered is left over. -/
def QueueOk (s : State) : Prop :=
  s.link.queue.length ≤ 6 ∧ (∀ q ∈ s.link.queue, q.frame.isUnit = true → q.waiting < 2)
    ∧ (∀ x, s.link.tx = some x → x.won = false → s.link.queue.head?.map QItem.frame = some x.frame)
    ∧ (s.link.lineIdle = true → s.link.tx = none ∧ s.link.rx = none) ∧ s.work = Work.empty

/-- R100, R101, R107, R108: the parameters lie in the ranges held, the bins stand in ascending index order, and the digest is the page's own while it is LOCKED and 0 otherwise. -/
def PageOk (n : Fin 4) (p : Page) : Prop :=
  p.range.toNat ≤ 6 ∧ 1 ≤ p.gross.toNat ∧ 1 ≤ p.tcrMinDt.toNat ∧ p.bins.Pairwise (fun a b => a.index < b.index)
    ∧ p.digest = (if p.state = .locked then pageDigest n p else 0)

/-- Every page is sound. -/
def RecipeOk (s : State) : Prop := ∀ n : Fin 4, PageOk n s.pages[n]

/-- R120: the driver record that a firing in progress has. -/
def serves (d : Driver) (f : Firing) : Prop :=
  match f.stage, d with
  | .delay, .delay t _ => t = f.tag
  | .pullIn, .pullIn t _ _ => t = f.tag
  | .holding, .holding t _ => t = f.tag
  | _, _ => False

/-- R12, R120, R126: at most 32 firings, one for any tag; every firing in progress is served by its gate's driver, every driver that is not IDLE serves one, and the firing request stands exactly while a firing is in progress. -/
def GatesOk (s : State) : Prop :=
  s.gates.firings.length ≤ 32 ∧ (s.gates.firings.map Firing.tag).Nodup
    ∧ (∀ f ∈ s.gates.firings, f.stage ≠ .waiting → serves s.gates.drivers[f.gate] f)
    ∧ (∀ g : Fin 16, s.gates.drivers[g] ≠ .idle → ∃ f ∈ s.gates.firings, f.gate = g ∧ serves s.gates.drivers[g] f)
    ∧ s.idx.firingReq = s.gates.firings.any (fun f => f.stage != .waiting)

/-- R5, R18, R34: the retire limit is that of the role and the items, which lie in their ranges; the entries stand in strictly falling position, each within the limit. -/
def TableOk (s : State) : Prop :=
  s.idx.retireLimit = retireLimitOf s.ctl.role s.ctl.items
    ∧ (∀ p, s.ctl.items.position = some p → p ≤ 31) ∧ (∀ g : Fin 16, s.ctl.items.gatePos[g] ≤ 31)
    ∧ s.table.entries.Pairwise (fun a b => s.posOf b.tag < s.posOf a.tag)
    ∧ ∀ e ∈ s.table.entries, ∃ r, s.idx.retireLimit = some r ∧ s.posOf e.tag ≤ r

/-- R88, R92, R96: at most four samples, a sample only with a baseline, and a staleness count of at most 256. -/
def DriftOk (s : State) : Prop :=
  ∀ k : Fin 4, (s.drift[k]).ring.length ≤ 4 ∧ (s.drift[k]).staleness ≤ 256 ∧ ((s.drift[k]).baseline = none → (s.drift[k]).ring = [])

/-- R182, R184: positions 26 to 32 are no flags and have no mask bits. -/
def AlertsOk (s : State) : Prop := s.alerts.word &&& ~~~assignedMask = 0 ∧ s.alerts.mask &&& ~~~assignedMask = 0

/-- R180, R136, R10: a station in FAULT measures nothing, drives no gate and pulls no HOLD. -/
def FaultOk (s : State) : Prop :=
  s.ctl.run = .fault →
    s.eng.ctx = none ∧ s.gates.firings = [] ∧ s.gates.drivers = Vector.replicate 16 .idle ∧ s.idx.measReq = false ∧ s.idx.firingReq = false
      ∧ s.ctl.hailDue = none

/-- R120: due order. Firings in progress stand before the WAITING ones, by gate number; of the WAITING ones the unit with fewer index events to come stands first, and of two units due at one event the one at the lower gate. -/
def State.dueBefore (s : State) (a b : Firing) : Prop :=
  match a.stage, b.stage with
  | .waiting, .waiting => s.eventsToGate a < s.eventsToGate b ∨ (s.eventsToGate a = s.eventsToGate b ∧ a.gate < b.gate)
  | .waiting, _ => False
  | _, .waiting => True
  | _, _ => a.gate < b.gate

/-- R120, R125, R136, R137, R176: only a SORT station in READY, RUN or HALT has firings, its installed gates lie beyond its position, every WAITING firing's unit has an installed gate before it or stands at it, and the list is in due order. -/
def DueOk (s : State) : Prop :=
  (s.gates.firings ≠ [] → roleOfCode s.ctl.role = some .sort ∧ (s.ctl.run = .ready ∨ s.ctl.run = .run ∨ s.ctl.run = .halt))
    ∧ (roleOfCode s.ctl.role = some .sort → (s.ctl.run = .ready ∨ s.ctl.run = .run ∨ s.ctl.run = .halt) →
        ∀ p, s.ctl.items.position = some p → ∀ g : Fin 16, s.ctl.items.gatePos[g] ≠ 0 → p < s.ctl.items.gatePos[g])
    ∧ (∀ f ∈ s.gates.firings, f.stage = .waiting → s.ctl.items.gatePos[f.gate] ≠ 0 ∧ s.posOf f.tag ≤ s.ctl.items.gatePos[f.gate])
    ∧ s.gates.firings.Pairwise s.dueBefore

/-! ### The end of a command -/

/-- The state `a` that a command's own effect has made, once the drain test, the level conditions and the offers of the command have followed (R178, R183, R145). -/
def flushed (a : State) : State := flush (refreshLevels (drainTest a))

/-- What the end of a command leaves of the state `a` that its own effect has made (R140, R145, R178, R183): everything but the frames it offers, an own header that starts on an idle line, raised flags, and the change from RUN to HALT of a drain that is complete. The frames offered are those that `a` holds in `work`, the HAIL of that HALT and the ALERT of a level flag raised: `flush` admits them or turns them away. That frames are offered and level conditions looked at here, once for each command, is the model's (log entries 12 and 13), and so is that a HAIL or ALERT whose claim was lost counts as one whose header cell has not started (log entry 42). -/
structure Tail (a u : State) : Prop where
  now : u.now = a.now
  resetHeld : u.resetHeld = a.resetHeld
  idx : u.idx = a.idx
  table : u.table = a.table
  eng : u.eng = a.eng
  drift : u.drift = a.drift
  pages : u.pages = a.pages
  gates : u.gates = a.gates
  peers : u.peers = a.peers
  freeDraws : u.freeDraws = a.freeDraws
  pending : u.pending = a.pending
  work : u.work = Work.empty
  mask : u.alerts.mask = a.alerts.mask
  master : u.alerts.master = a.alerts.master
  /-- Every flag but TXQ_OVERFLOW is set just when it was set or is a level flag whose condition stands. -/
  flags : ∀ f : AlertFlag, f ≠ .txqOverflow → flagIn u.alerts.word f = (flagIn a.alerts.word f || a.levelStands f)
  /-- TXQ_OVERFLOW is set just when it was set or an admitted frame finds the queue full. -/
  overflow : flagIn u.alerts.word .txqOverflow = flagIn (flushed a).alerts.word .txqOverflow
  spare : u.alerts.word &&& ~~~assignedMask = a.alerts.word &&& ~~~assignedMask
  /-- A drain that is complete halts the station with its HAIL; nothing else of Run Control changes. -/
  ctl : u.ctl
    = if a.ctl.drain && a.ctl.run == .run && !a.table.entries.any a.awaits
      then { a.ctl with run := .halt, drain := false, hailDue := some (a.now + Config.hailPeriod) } else a.ctl
  /-- The queue is the one held, with the frames offered and admitted at its tail. -/
  queue : u.link.queue = (flushed a).link.queue
  /-- The header cell of the head of the queue starts when the line allows it, stamped as the station stands now; else the line is left alone. -/
  line :
    ((a.mayStart = false ∨ u.link.queue = [])
        ∧ u.link.tx = a.link.tx ∧ u.link.lineIdle = a.link.lineIdle ∧ u.link.quietSince = a.link.quietSince
        ∧ u.link.deferral = a.link.deferral)
      ∨ (a.mayStart = true ∧ u.link.lineIdle = false ∧ u.link.quietSince = a.now ∧ u.link.deferral = .no
          ∧ ∃ q rest, u.link.queue = q :: rest
            ∧ u.link.tx = some { won := false, mark := a.freshMark, frame := q.frame, cells := u.cellsOf q.frame })
  rx : u.link.rx = a.link.rx
  lastSender : u.link.lastSender = a.link.lastSender

/-- R145, row 6: a station that admits unit records. -/
def SendsUnits (s : State) : Prop := s.ctl.activity = .active ∧ (s.ctl.run = .run ∨ s.ctl.run = .halt)

/-- The queue of `u` is that of `a` with the frames `fs` next in line, and perhaps more behind them. -/
def Queued (a : State) (fs : List QFrame) (u : State) : Prop :=
  ∃ more, u.link.queue = a.link.queue ++ fs.map (fun f => { frame := f, waiting := 0 }) ++ more

/-- Nothing is left over from an earlier command, and the queue has room for `n` frames. -/
def HasRoom (n : Nat) (s : State) : Prop := s.work = Work.empty ∧ s.link.queue.length + n ≤ 6

/-- 00 "Rounding": the magnitude of `n` divided by `d`, rounded half away from zero. -/
def roundedMag (n d : Int) : Nat := (2 * n.natAbs + d.natAbs) / (2 * d.natAbs)

/-- 00 "Rounding": `n` divided by `d`, rounded half away from zero, for a positive `d`. -/
def rounded (n d : Int) : Int := n.sign * (roundedMag n d : Int)

/-- A value in the deviation form: `n` divided by `d`, rounded half away from zero and brought within ±8,388,607; −0 for a negative `n` whose quotient rounds to 0 (R65). -/
def roundedDev (n d : Int) : Dev := ⟨decide (n < 0), BitVec.ofNat 23 (min 8388607 (roundedMag n d))⟩

/-- A cell from its fields, each a value and the place of its lowest bit (R153). -/
def cellOf (fields : List (Nat × Nat)) : Cell := BitVec.ofNat 12 (fields.map (fun f => f.1 * 2 ^ f.2)).sum

/-- R153: the two cells of a number that takes 12 bits in the second. -/
def pairOf (v : Nat) : List Cell := [cellOf [(v / 4096, 0)], cellOf [(v % 4096, 0)]]

/-- R153: a signed pair, the sign in bit 11 of the first cell. -/
def signedOfDev (d : Dev) : List Cell := [cellOf [(if d.neg then 1 else 0, 11), (d.mag.toNat / 4096, 0)], cellOf [(d.mag.toNat % 4096, 0)]]

/-- The cells of a signed pair that may be absent. -/
def signedOpt (d : Option Dev) : List Cell := match d with | some d => signedOfDev d | none => []

/-! ### The STATUS bodies, cell by cell (R157) -/

/-- R157: the item echo. -/
def echo (item arg : Nat) : Cell := cellOf [(item, 8), (arg, 4)]

/-- R153: an alert or mask word: position 1 in bit 11 of the first cell, the last eight in bits 11 to 4 of the third. -/
def wordOf3 (w : Nat) : List Cell := [cellOf [(w / 2 ^ 20, 0)], cellOf [(w / 2 ^ 8 % 4096, 0)], cellOf [(w % 256, 4)]]

/-- R144: the state code of a station: 6 in RUN with a DRAIN taken. -/
def shownState (s : State) : Nat :=
  if s.ctl.run = .run ∧ s.ctl.drain = true then 6 else [StationState.listen, .config, .ready, .run, .halt, .fault].idxOf s.ctl.run

/-- R144: the activity code of a station. -/
def shownActivity (s : State) : Nat := [Activity.active, .standby, .muted].idxOf s.ctl.activity

/-- R155, R157: role, position, reset cause and current page in one cell, as a HAIL and item 0 show them. -/
def identityCell (s : State) : Cell :=
  cellOf
    [(s.ctl.role.toNat, 9), (s.ctl.items.position.getD 0 % 32, 4), ([ResetCause.power, .pin, .restart].idxOf s.ctl.cause, 2),
      (s.idx.currentPage.val, 0)]

/-- R157, item 0. -/
def stateBody (s : State) (arg : Nat) : List Cell :=
  [echo 0 arg, identityCell s, cellOf [(shownState s, 8), (shownActivity s, 6)]]

/-- R157, item 1: positions 26 to 32 of the alert word read as 1 (R182). -/
def alertBody (s : State) (arg : Nat) : List Cell :=
  echo 1 arg :: (wordOf3 (s.alerts.word ||| 0x7F).toNat ++ wordOf3 s.alerts.mask.toNat ++ [cellOf [(s.alerts.master.toNat, 0)]])

/-- R157, R163: the standing of a row, by its code. -/
def standingCode (s : State) (n : Fin 8) : Nat :=
  let r := s.peers[n]
  if r.heard = false then 0
  else if r.heardAt + ms 1000 ≤ s.now then 1
  else if r.distrusted then 2
  else if r.ahead || r.offset.any (fun o => !o.agrees) then 3
  else 4

/-- R165: a row qualifies as the source of the role `r`. -/
def sourceRow (s : State) (r : BitVec 3) (n : Fin 8) : Bool :=
  let x := s.peers[n]
  x.role == some r && decide (r.toNat ≤ 4) && standingCode s n == 4 && (x.state == 3 || x.state == 6 || x.state == 4) && x.activity == 0

/-- R157, item 2. The role of a peer whose role is unknown, and its offset while that is unknown, are the free values `free 0` and `free 1` (log entry 23). -/
def peerBody (s : State) (arg : Nat) (n : Fin 8) (free : Nat → BitVec 16) : List Cell :=
  let x := s.peers[n]
  let role := match x.role with | some c => c.toNat | none => (free 0).toNat % 8
  let offset := match x.offset with | some o => o.value.toNat | none => (free 1).toNat
  let source := x.role.any fun r => sourceRow s r n && (List.finRange 8).all fun m => !(decide (m < n) && sourceRow s r m)
  let silence := if x.heard then min 4095 ((s.now - x.heardAt) / ms 1) else 0
  [echo 2 arg, cellOf [(x.heard.toNat, 11), (role, 8), (x.state.toNat, 4), (x.activity.toNat, 2), (x.cause.toNat, 0)],
    cellOf [(x.position.toNat, 7), (standingCode s n, 4), (x.errorScore.toNat, 0)],
    cellOf [(x.offset.isSome.toNat, 11), (source.toNat, 10), (offset / 4096, 0)], cellOf [(offset % 4096, 0)], cellOf [(silence, 0)],
    x.digests[0], x.digests[1], x.digests[2], x.digests[3]]

/-- R153: a tag pair, with the fields that the frame gives in its second cell. -/
def tagPair (tag : BitVec 16) (fields : List (Nat × Nat)) : List Cell :=
  [cellOf [(tag.toNat / 16, 0)], cellOf ((tag.toNat % 16, 8) :: fields)]

/-- R154: the code of a class. -/
def shownClass (c : EntryClass) : Nat := [EntryClass.present, .empty, .contact, .grossLow, .grossHigh].idxOf c

/-- R154: the code of a quality. -/
def shownQuality (q : Quality) : Nat :=
  [Quality.good, .contact, .overload, .stdLow, .polarity, .timeout, .aborted, .doubt, .noRecipe].idxOf q

/-- R114: the code of a reason. -/
def shownReason (r : Reason) : Nat :=
  [Reason.noEntry, .empty, .noRecipe, .digest, .contact, .gross, .doubt, .noValue, .drift, .disagree, .guardBand, .binned, .noBin, .binFull].idxOf r + 1

/-- R154: a coarse value in one cell. -/
def shownCoarse (c : Option Coarse) : List Cell := match c with | some c => [cellOf [(c.neg.toNat, 11), (c.mag.toNat, 0)]] | none => []

/-- R154: the flags cell of a VALUE. -/
def shownFlags (f : ValueFlags) : Cell :=
  cellOf
    [(f.suspect.toNat, 0), (f.drift.toNat, 1), (f.driftStale.toNat, 2), (f.tempAbsent.toNat, 3), (f.saturated.toNat, 4), (f.near.toNat, 5),
      (f.assumedPage.toNat, 6), (f.tcrAbsent.toNat, 7)]

/-- R154: the presence cell of deviation, temperature and TCR, and the fields present. -/
def shownFields (deviation : Option Dev) (temperature : Option (BitVec 12)) (tcr : Option Dev) : List Cell :=
  cellOf [(deviation.isSome.toNat, 0), (temperature.isSome.toNat, 1), (tcr.isSome.toNat, 2)]
    :: (signedOpt deviation ++ temperature.toList ++ signedOpt tcr)

/-- R157, item 5: the echo of a part and the tag pair of the query. -/
def entryHead (part : Nat) (tag : BitVec 16) : List Cell := echo 5 part :: tagPair tag []

/-- R157, item 5, part 0. -/
def entryView (tag : BitVec 16) (e : Entry) : List Cell :=
  let bin := e.verdict.bind (·.bin)
  let stage := [OwnStage.none, .measuring, .done, .skipped].idxOf e.ownStage
  let cls := match e.cls with | some c => shownClass c | none => 0
  let page := match e.stamp with | some st => st.page.val | none => 0
  entryHead 0 tag
    ++ [cellOf [(e.stamp.isSome.toNat, 0), (e.cls.isSome.toNat, 1), (e.coarse.isSome.toNat, 2), (e.verdict.isSome.toNat, 3), (bin.isSome.toNat, 4)],
      cellOf [(stage, 10), (e.assumedPage.toNat, 9), (e.doubt.toNat, 8), (e.cold.isSome.toNat, 7), (e.retest.isSome.toNat, 6),
        (e.hot.isSome.toNat, 5), (page, 3), (cls, 0)]]
    ++ (match e.stamp with | some st => [st.digest] | none => [])
    ++ shownCoarse e.coarse
    ++ (match e.verdict with | some v => [cellOf [(shownReason v.reason, 8), (v.gate.val, 0)]] | none => [])
    ++ (match bin with | some b => [cellOf [(b.val + 1, 0)]] | none => [])

/-- R154, R157, item 5, parts 1 to 3. -/
def slotView (part : Nat) (tag : BitVec 16) (v : Option HeldValue) : List Cell :=
  match v with
  | none => entryHead part tag ++ [0]
  | some v =>
    entryHead part tag ++ [cellOf [(1, 11), (v.source.val, 7), (shownQuality v.quality, 3)], shownFlags v.flags]
      ++ shownFields v.deviation v.temperature v.tcr

/-- R39, R157, R187, item 5: the four parts; a tag without an entry is shown as an empty one. -/
def entryBodies (s : State) (tag : BitVec 16) : List (List Cell) :=
  let e := (s.entryOf tag).getD (Entry.blank tag .none)
  [entryView tag e, slotView 1 tag e.cold, slotView 2 tag e.retest, slotView 3 tag e.hot]

/-- R93, R95, R97, R99, R157, item 6. -/
def driftBody (s : State) (arg : Nat) (k : Fin 4) : List Cell :=
  let d := s.drift[k]
  let mean := if d.ring = [] then none else some (roundedDev (d.ring.map Dev.toInt).sum d.ring.length)
  let above := s.ctl.items.driftLimit != 0 && mean.any (fun x => decide (s.ctl.items.driftLimit < x.mag.toNat))
  [echo 6 arg,
    cellOf [(d.ring.length % 8, 9), (d.baseline.isSome.toNat, 8), (mean.isSome.toNat, 7), (above.toNat, 6), ((decide (256 ≤ d.staleness)).toNat, 5)],
    cellOf [(d.staleness, 0)]]
    ++ signedOpt d.baseline ++ signedOpt mean ++ (d.ring.map signedOfDev).flatten

/-! ### The frames sent, cell by cell (R139, R144, R154, R155) -/

/-- R100, R109, R155: the body of a HAIL: identity, page-in-use flags and digests, as the station stands. -/
def hailShown (s : State) : List Cell :=
  let used (p : Fin 4) : Nat :=
    (s.table.entries.any (fun e => e.stamp.any (fun st => st.page == p)) || s.gates.firings.any (fun f => f.page == some p)
      || s.eng.ctx.any (fun c => c.stamp.page == p)).toNat
  let digest (p : Fin 4) : Cell := if (s.pages[p]).state = .locked then (s.pages[p]).digest else 0
  [identityCell s, cellOf [(used 0, 0), (used 1, 1), (used 2, 2), (used 3, 3)], digest 0, digest 1, digest 2, digest 3]

/-- R127, R154, R155, R157, R182: the body of a queued frame whose header cell starts as the station stands. Bits that no layout assigns are 0 (log entry 24). -/
def sentBody (s : State) : QFrame → List Cell
  | .entry r =>
    tagPair r.tag [(r.stamp.page.val, 6), (shownClass r.cls, 3)] ++ [r.stamp.digest, cellOf [(r.coarse.isSome.toNat, 0)]] ++ shownCoarse r.coarse
  | .value r => tagPair r.tag [(shownQuality r.quality, 4)] ++ shownFlags r.flags :: shownFields r.deviation r.temperature r.tcr
  | .verdict tag v =>
    tagPair tag [(shownReason v.reason, 4)] ++ [cellOf [(v.gate.val, 0)], cellOf [(v.bin.isSome.toNat, 0)]]
      ++ (match v.bin with | some b => [cellOf [(b.val + 1, 0)]] | none => [])
  | .alert => wordOf3 (s.alerts.word ||| 0x7F).toNat
  | .hail => hailShown s
  | .status body => body

/-- R139: the kind code of a queued frame. -/
def sentKind : QFrame → Nat
  | .entry _ => 0
  | .value _ => 1
  | .verdict _ _ => 3
  | .alert => 4
  | .hail => 5
  | .status _ => 15

/-- R139, R144: the cells of a queued frame whose header cell starts as the station stands: header, count cells, body and check cell. -/
def sentCells (s : State) (f : QFrame) : List Cell :=
  let body := sentBody s f
  let cells :=
    cellOf [(sentKind f, 8), (s.ctl.node.val, 4), (body.length % 16, 0)] :: cellOf [(s.idx.count.toNat / 16, 0)]
      :: cellOf [(s.idx.count.toNat % 16, 8), (shownState s, 4), (shownActivity s, 2)] :: body
  cells ++ [cellOf [((cells.map BitVec.toNat).sum % 4096, 0)]]

/-! ### Records and measurements -/

/-- R51, R53: the context at the start of a phase's conversions. -/
def phaseCtx (s : State) (st : SeqState) (c : Ctx) : Ctx :=
  { c with state := st, due := s.now + conversionTime s.ctl.items.osr, discards := s.ctl.items.discard, kept := 0, sums := ⟨0, 0⟩ }

/-- The engine after the end of a sequence at instant `n`: excitation off, the instant recorded when it was on (log entry 15), no context. -/
def endedEngine (n : Instant) (e : Engine) : Engine :=
  { e with ctx := none, excitation := .off, lastOff := if e.excitation = .off then e.lastOff else some n }

/-- R55, R57: the station after the end of a sequence: excitation off, no context, the measurement request clear. -/
def afterSequence (a : State) : State := (a.withEng (endedEngine a.now a.eng)).withIdx { a.idx with measReq := false }

/-- R42: a UNIT measurement, the slot of the station's role (R20), and an entry for its unit while the unit is in range. -/
def UnitRun (s : State) (c : Ctx) (k : Slot) : Prop :=
  c.kind = .unit ∧ s.role.bind slotOfRole = some k ∧ (s.classify c.tag = .inRange → (s.entryOf c.tag).isSome = true)

/-- R23, R24, R32, R55: the station's own VALUE in its slot of the entry, and the own stage DONE. A late or ahead record does not enter the table. -/
def ownValue (k : Slot) (r : ValueRecord) (a : State) : State :=
  if a.classify r.tag = .inRange then
    modifyEntry r.tag (fun e => { e.fillSlot k ((r.held a.ctl.node).forSlot k) with ownStage := .done }) a
  else setStage r.tag .done a

/-- R66: the VALUE record of a UNIT measurement that ended early with quality `q`: no value, no temperature, and only the flags that its context gives. -/
def endedRecord (s : State) (c : Ctx) (q : Quality) : ValueRecord :=
  { tag := c.tag, quality := q, deviation := none, temperature := none
    flags :=
      { suspect := false, drift := false, driftStale := false, tempAbsent := c.tempAbsent, saturated := false, near := false,
        assumedPage := c.assumedPage, tcrAbsent := s.role == some .thermal }
    tcr := none }

/-- R146: the queue an index event leaves before what it produces itself: every unit record one event older, and those that have waited through 2 gone. -/
def agedQueue (a : State) : List QItem :=
  (a.link.queue.map (fun q => if q.frame.isUnit then { q with waiting := q.waiting + 1 } else q)).filter
    (fun q => !(q.frame.isUnit && decide (2 ≤ q.waiting)))

/-- R60, R66: the ENTRY of a COARSE measurement that an index event aborts or a realign ends: class CONTACT, no coarse value. -/
def endedEntry (c : Ctx) : EntryRecord := { tag := c.tag, stamp := c.stamp, cls := .contact, coarse := none }

/-- R60, R66: the records of the measurement that an index event aborts: a VALUE for a UNIT, an ENTRY for a COARSE one, none for a CHECK. -/
def abortedRecords (s : State) : List QFrame :=
  match s.eng.ctx with
  | none => []
  | some c =>
    match c.kind with
    | .unit => [.value (endedRecord s c .aborted)]
    | .coarse => [.entry (endedEntry c)]
    | .check => []

/-- R145, R146: what an index event leaves in the queue when `records` are the unit records it offers: they stand behind the aged queue as far as it has room, where the station sends unit records, and beside them a HAIL and an ALERT alone. A record without room sets TXQ_OVERFLOW. -/
def IndexSends (t : Instant) (s : State) (records : List QFrame) (u : State) : Prop :=
  let kept := agedQueue (advance t s)
  s.work = Work.empty →
    ∃ more, u.link.queue = kept ++ more
      ∧ (∀ q ∈ more, q.waiting = 0 ∧ (q.frame.isUnit = true ∨ q.frame = .hail ∨ q.frame = .alert))
      ∧ (SendsUnits s → (more.filter (fun q => q.frame.isUnit)).map QItem.frame = records.take (6 - kept.length))
      ∧ (¬SendsUnits s → ∀ q ∈ more, q.frame.isUnit = false)
      ∧ (SendsUnits s → 6 < kept.length + records.length → flagIn u.alerts.word .txqOverflow = true)
      ∧ (kept.length + records.length + 2 ≤ 6 → flagIn u.alerts.word .txqOverflow = flagIn s.alerts.word .txqOverflow)

/-- R42: a COARSE measurement, and an entry for its unit while the unit is in range. -/
def CoarseRun (s : State) (c : Ctx) : Prop := c.kind = .coarse ∧ (s.classify c.tag = .inRange → (s.entryOf c.tag).isSome = true)

/-- R23, R24, R31, R56: PROBE's own ENTRY: it fills an entry that has no class, and the own stage is DONE. A late or ahead record does not enter the table. -/
def ownEntry (r : EntryRecord) (a : State) : State :=
  if a.classify r.tag = .inRange ∧ (a.entryOf r.tag).bind (·.cls) = none then
    modifyEntry r.tag
      (fun e => { e with stamp := some r.stamp, cls := some r.cls, coarse := r.coarse, assumedPage := false, ownStage := .done }) a
  else setStage r.tag .done a

/-- R151: the state in which the content of a console frame is acted on. -/
def consoleState (t : Instant) (h : ConsoleHead) (s : State) : State := endFrame (some h.frame.sender) (advance t s)

/-- R159: the state in which the tests on the row of the station `n` are made, for a frame from it that began at the mark `m`: the frame has ended and the row is updated. -/
def rowHeard (t : Instant) (n : Fin 8) (h : FrameHead) (hail : Option HailBody) (m : Mark) (s : State) : State :=
  modifyRow n (heardRow (max s.now t) h hail m) (endFrame (some h.sender) (advance t s))

/-- R159, R166: the state in which the content of a unit record from the station `n` is acted on: its row is updated, and the tests have followed, with the takeover, the entry to STANDBY or the realign they may ask for. -/
def heardState (t : Instant) (n : Fin 8) (h : FrameHead) (m : Mark) (s : State) : State := peerTests (rowHeard t n h none m s)

/-- R159, R160, R161: for a command that updates the row of a peer, or takes the expiry of its silence timer: the state in which the tests on the row are made. -/
def rowChanged (c : Instr) (s : State) : Option State :=
  match c with
  | .peerSilence t n =>
    if n ≠ s.ctl.node ∧ (advance t s).standing n = .silent ∧ (s.peers[n]).silenceTaken = false then
      some (modifyRow n (fun r => { r with silenceTaken := true }) (advance t s))
    else none
  | .frameDiscard t sender =>
    match s.link.rx, sender.bind stationOfSender with
    | some _, some n => if n = s.ctl.node then none else some (modifyRow n discardedRow (endFrame sender (advance t s)))
    | _, _ => none
  | c =>
    match s.link.rx, c.frameHead with
    | some m, some h =>
      (stationOfSender h.sender).bind fun n => if n = s.ctl.node then none else some (rowHeard c.instant n h c.hail m s)
    | _, _ => none

/-- R63: the station after a measurement that leaves no record: excitation off, request clear, relays released. -/
def discarded (a : State) : State :=
  if a.eng.ctx = none then a
  else
    (a.withEng { endedEngine a.now a.eng with relays := { slot := none, unit := false, check := false } }).withIdx { a.idx with measReq := false }

/-- R167, R63, R147, R169: the station after its entry to STANDBY: the measurement discarded, the unit records out of the queue, a HAIL offered. -/
def stoodBy (a : State) : State :=
  offerHail ((keepQueued (fun q => !q.frame.isUnit) (discarded a)).withCtl { a.ctl with activity := .standby })

/-- R167, R169: the station after it takes over: ACTIVE, TAKEOVER raised, a HAIL offered. -/
def tookOver (a : State) : State := offerHail ((raise .takeover a).withCtl { a.ctl with activity := .active })

/-- R168, R63, R136, R147, R169: the station after its entry to MUTED: the measurement discarded, the firings of a SORT station dropped, unit records and ALERT frames out of the queue, a HAIL offered. -/
def mutedBy (a : State) : State :=
  let b := if roleOfCode a.ctl.role = some .sort then muteGates (discarded a) else discarded a
  offerHail ((keepQueued (fun q => !q.frame.isUnit && q.frame != .alert) b).withCtl { a.ctl with activity := .muted })

/-- R159, R167: the station after the tests on a row update where they ask for no realign. -/
def tested (a : State) : State :=
  if a.ctl.run = .fault then a
  else if a.ctl.activity = .active ∧ a.lowerQualifies = true then stoodBy a
  else if a.ctl.activity = .standby ∧ a.lowerQualifies = false then tookOver a
  else a

end Sys2Proof.Machine
end

