-- ==== Sys2Proof/Certificates/Slice0/Obligations.lean ====
section
/-! DEFINITION. The statements for the provers. Every command's statement says under which conditions on the state and the operands it completes, what it changes, and, through `Tail`, that it changes nothing else. -/

open Sys2Proof Sys2Proof.Machine

/-! ### The frame of every command -/

/-- A step takes the command at the front of the queue and runs it with the queue's rest; on an empty queue the block idles. The queue and the idling are the model's (log entries 3 and 5). -/
def Obligations.StepTakesFrontCommand : Prop :=
  ∀ s : State, (∀ c rest, s.pending = c :: rest → step s = exec c (s.withPending rest)) ∧ (s.pending = [] → step s = .next s)

/-- Every command answers a next state in every state: none faults and none is refused (log entry 36). No command touches the waiting commands, and the clock never goes back (log entry 1). -/
def Obligations.EveryCommandCompletes : Prop :=
  ∀ (c : Instr) (s : State), ∃ u, exec c s = .next u ∧ u.pending = s.pending ∧ s.now ≤ u.now

/-- R1, R140, R172: while RESET is held low nothing but a hard reset has an effect; only the model's clock moves (log entry 1). -/
def Obligations.HeldResetIgnoresCommands : Prop :=
  ∀ (c : Instr) (s : State), s.resetHeld = true → s.link.tx = none → s.link.rx = none →
    (∀ t cause node role page, c ≠ .hardReset t cause node role page) → exec c s = .next (s.withNow (max s.now c.instant))

/-! ### Reset -/

/-- R172, R173: what `State.reset` holds. That the straps are low, the cause POWER and the instant 0 is the model's (log entry 4), and so is that the ADC channels stand in the unit arrangement (log entry 43); a HARD_RESET with those operands leads to this state again. -/
def Obligations.ResetState : Prop :=
  State.reset.ctl.run = .listen ∧ State.reset.idx.count = 0 ∧ State.reset.idx.lastIndex = none ∧ State.reset.table.entries = []
    ∧ (∀ p : Fin 4, State.reset.pages[p] = Page.cleared) ∧ State.reset.link.queue = [{ frame := .hail, waiting := 0 }]
    ∧ State.reset.ctl.listenDue = some (ms 600) ∧ State.reset.ctl.hailDue = some (ms 250) ∧ State.reset.alerts.word = 0
    ∧ State.reset.eng.excitation = .off ∧ State.reset.eng.channels = .unit ∧ exec (.hardReset 0 .powerUp 0 0 0) State.reset = .next State.reset

/-- R172, R173, R169: a hard reset with a valid role clears every block whatever it held, reads cause and straps, and enters LISTEN with its timers started and one HAIL queued. That the ADC channels stand in the unit arrangement is the model's (log entry 43). -/
def Obligations.HardResetEntersListen : Prop :=
  ∀ (t : Instant) (cause : HardCause) (node role : BitVec 3) (page : BitVec 2) (s : State), (roleOfCode role).isSome = true →
    ∃ u, exec (.hardReset t cause node role page) s = .next u ∧ u.now = max s.now t ∧ u.resetHeld = false
      ∧ u.idx = { count := 0, lastIndex := none, retireLimit := none, measReq := false, firingReq := false, currentPage := pageOfBits page }
      ∧ u.table = { entries := [], lastRemoved := none }
      ∧ u.eng = { ctx := none, recentPage := pageOfBits page, excitation := .off, lastOff := none, relays := ⟨none, false, false⟩, channels := .unit }
      ∧ u.drift = Vector.replicate 4 { baseline := none, ring := [], staleness := 0 } ∧ u.pages = Vector.replicate 4 Page.cleared
      ∧ u.gates.firings = [] ∧ u.gates.drivers = Vector.replicate 16 .idle ∧ u.gates.binTallies = Vector.replicate 4 (Vector.replicate 16 0)
      ∧ u.gates.reasonTallies = Vector.replicate 15 0 ∧ u.peers = Vector.replicate 8 PeerRow.cleared
      ∧ u.alerts = { word := 0, mask := 0, master := false }
      ∧ u.link = { queue := [{ frame := .hail, waiting := 0 }], tx := none, rx := none, lineIdle := false, quietSince := max s.now t,
                   deferral := .no, lastSender := none }
      ∧ u.ctl =
          { node := nodeOfStrap node, role := role, run := .listen, faultReason := none, drain := false, activity := .active,
            cause := causeOf cause, listenDue := some (max s.now t + ms 600), hailDue := some (max s.now t + ms 250), items := Items.cleared }
      ∧ u.work = Work.empty ∧ u.freeDraws = s.freeDraws ∧ u.pending = s.pending

/-- R172, R180, R147: a hard reset with ROLE 5 to 7 enters FAULT with BAD_ROLE: the flag raised, ALERT asserted, HOLD released, one HAIL queued and the hail timer stopped. -/
def Obligations.HardResetBadRole : Prop :=
  ∀ (t : Instant) (cause : HardCause) (node role : BitVec 3) (page : BitVec 2) (s : State), roleOfCode role = none →
    ∃ u, exec (.hardReset t cause node role page) s = .next u ∧ u.ctl.run = .fault ∧ u.ctl.faultReason = some .badRole
      ∧ u.alerts.word = AlertFlag.badRole.bit ∧ u.assertsAlert = true ∧ u.pullsHold = false ∧ u.ctl.hailDue = none
      ∧ u.link.queue = [{ frame := .hail, waiting := 0 }] ∧ u.ctl.role = role ∧ u.eng.ctx = none ∧ u.gates.firings = []

/-- R10, R89, R129, R130, R184, R172, R120: what the pins show. HOLD is pulled low while the measurement request or the firing request stands. ALERT is asserted in FAULT, and while the master enable is on and a flag is set whose mask bit is on. A gate output is off in IDLE and DELAY, fully on in PULL_IN, and on for HOLD_DUTY of 256 in HOLDING. RLY0 to RLY3 are the relay of the slot chosen, RLY4 that of the unit terminals, RLY5 that of the check resistor. RESET_ASSERT releases HOLD, ALERT, the gates, the relays RLY0 to RLY5, the excitation, the test current and the line, and receives nothing. That the contents of the blocks stay as they were until the hard reset that follows is the model's (log entry 26). -/
def Obligations.ResetAssertReleasesOutputs : Prop :=
  (∀ b : State, b.resetHeld = false →
      (b.pullsHold = true ↔ b.idx.measReq = true ∨ b.idx.firingReq = true)
        ∧ (b.assertsAlert = true
            ↔ b.ctl.run = .fault ∨ (b.alerts.master = true ∧ ∃ f : AlertFlag, flagIn b.alerts.word f = true ∧ flagIn b.alerts.mask f = true))
        ∧ (∀ g : Fin 16,
            (b.gates.drivers[g] = .idle → b.gateDrive g = .off)
              ∧ ∀ (tag : BitVec 16) (t₁ t₂ : Instant),
                (b.gates.drivers[g] = .delay tag t₁ → b.gateDrive g = .off)
                  ∧ (b.gates.drivers[g] = .pullIn tag t₁ t₂ → b.gateDrive g = .full)
                  ∧ (b.gates.drivers[g] = .holding tag t₁ → b.gateDrive g = .duty b.ctl.items.holdDuty))
        ∧ (∀ k : Fin 4, b.slotRelay k = true ↔ b.eng.relays.slot = some k)
        ∧ b.unitRelay = b.eng.relays.unit ∧ b.checkRelay = b.eng.relays.check)
  ∧ ∀ (t : Instant) (s : State), ∃ u, exec (.resetAssert t) s = .next u ∧ u.resetHeld = true ∧ u.pullsHold = false ∧ u.assertsAlert = false
    ∧ (∀ g, u.gateDrive g = .off) ∧ (∀ k, u.slotRelay k = false) ∧ u.unitRelay = false ∧ u.checkRelay = false
    ∧ u.excitationOut = none ∧ u.contactOut = none ∧ u.lineOut = none ∧ u.cellOut = none ∧ u.link.rx = none ∧ u.link.tx = none
    ∧ u.idx = s.idx ∧ u.table = s.table ∧ u.eng = s.eng ∧ u.drift = s.drift ∧ u.pages = s.pages ∧ u.gates = s.gates ∧ u.peers = s.peers
    ∧ u.ctl = s.ctl ∧ u.alerts = s.alerts ∧ u.pending = s.pending ∧ u.freeDraws = s.freeDraws

/-! ### The index event -/

/-- R1, R2, R8, R14, R30, R34, R60, R66, R96, R145, R146, R178, on the clock of log entry 1: an edge less than 1 ms after the last accepted one is ignored. An accepted edge, in every state, activity and role, moves the count, the instant, PROBE's page and the staleness counts, marks a frame start of the last cell time edge-near, one exactly a cell time old included (log entry 8), and makes every unit record in the queue one index event older: one that has then waited through 2 leaves with FRAME_STALE, the others keep their order at the front, and what the event produces stands behind them (R146 orders the two). Outside SORT the unit records among that are the record of the UNIT or COARSE measurement that the event aborts (a CHECK has none) and a VALUE of quality NO_RECIPE, and nothing else but a HAIL and an ALERT is there. MEAS_ABORT is set when a sequence was in progress; every flag but FRAME_STALE, MEAS_ABORT, TXQ_OVERFLOW and, on SORT, GATE_OVERRUN and GATE_MISSED stays, up to the level flags of the command's end (log entry 13). A drain that no entry awaits halts the station; Run Control is otherwise left alone. On a station that is not SORT every entry beyond the retire limit under the new count leaves, and the last-removed memory takes the page of the youngest of them whose page came with an ENTRY; every entry within it is kept as it is, but for that of the unit at the position where the station works and that of a measurement in progress, of which the statements that follow speak; the gates stay. -/
def Obligations.IndexEventCounts : Prop :=
  ∀ (t : Instant) (pins : BitVec 2) (s : State), s.resetHeld = false →
    (∀ e, s.idx.lastIndex = some e → max s.now t < e + ms 1 → exec (.indexEvent t pins) s = .next (advance t s))
      ∧ ((∀ e, s.idx.lastIndex = some e → e + ms 1 ≤ max s.now t) →
        let n := max s.now t
        let pos (x : BitVec 16) : Nat := (s.idx.count + 1 - x).toNat
        let worked (x : BitVec 16) : Prop :=
          s.ctl.run = .run ∧ s.ctl.activity = .active ∧ ∃ p, s.ctl.items.position = some p ∧ x = s.idx.count + 1 - BitVec.ofNat 16 p
        let aged := (advance t s).link.queue.map (fun q => if q.frame.isUnit then { q with waiting := q.waiting + 1 } else q)
        let stale (q : QItem) : Bool := q.frame.isUnit && decide (2 ≤ q.waiting)
        let awaits (e : Entry) : Prop :=
          (∃ p, s.ctl.items.position = some p ∧ pos e.tag ≤ p) ∧ e.ownStage = .none
            ∧ (((roleOfCode s.ctl.role = some .precise ∨ roleOfCode s.ctl.role = some .thermal)
                  ∧ (e.cls = none ∨ e.cls = some .present ∨ e.cls = some .empty))
                ∨ (roleOfCode s.ctl.role = some .retest
                  ∧ ((∃ v, e.cold = some v ∧ (v.flags.near = true ∨ v.flags.suspect = true)) ∨ (e.cold = none ∧ e.cls = some .present)
                      ∨ e.cls = some .empty)))
        ∃ u, exec (.indexEvent t pins) s = .next u ∧ u.idx.count = s.idx.count + 1 ∧ u.idx.lastIndex = some n
          ∧ u.idx.currentPage = (if roleOfCode s.ctl.role = some .probe then pageOfBits pins else s.idx.currentPage)
          ∧ u.idx.retireLimit = s.idx.retireLimit
          ∧ (∀ k : Fin 4,
              (u.drift[k]).baseline = (s.drift[k]).baseline ∧ (u.drift[k]).ring = (s.drift[k]).ring
                ∧ (u.drift[k]).staleness
                    = (if roleOfCode s.ctl.role = some .precise ∨ roleOfCode s.ctl.role = some .retest ∨ roleOfCode s.ctl.role = some .thermal
                        then min 256 ((s.drift[k]).staleness + 1) else (s.drift[k]).staleness))
          ∧ u.pages = s.pages ∧ u.peers = s.peers ∧ u.ctl.items = s.ctl.items ∧ u.ctl.activity = s.ctl.activity ∧ u.ctl.node = s.ctl.node
          ∧ u.ctl.role = s.ctl.role ∧ u.ctl.cause = s.ctl.cause ∧ u.alerts.mask = s.alerts.mask ∧ u.alerts.master = s.alerts.master
          ∧ u.freeDraws = s.freeDraws
          -- the queue and the frame in reception
          ∧ (∃ more, u.link.queue = aged.filter (fun q => !stale q) ++ more)
          ∧ (roleOfCode s.ctl.role ≠ some .sort →
              IndexSends t s (abortedRecords s) u
                ∨ ∃ r : ValueRecord, r.quality = .noRecipe ∧ worked r.tag ∧ IndexSends t s (abortedRecords s ++ [.value r]) u)
          -- the flags
          ∧ flagIn u.alerts.word .frameStale = (flagIn s.alerts.word .frameStale || aged.any stale)
          ∧ flagIn u.alerts.word .measAbort = (flagIn s.alerts.word .measAbort || s.eng.ctx.isSome)
          ∧ (∀ f : AlertFlag, f ≠ .frameStale → f ≠ .measAbort → f ≠ .txqOverflow →
              (roleOfCode s.ctl.role = some .sort → f ≠ .gateOverrun ∧ f ≠ .gateMissed) →
              flagIn u.alerts.word f = (flagIn s.alerts.word f || u.levelStands f))
          ∧ (s.link.tx = none → u.link.rx = s.link.rx.map (fun m => { m with edgeNear := m.edgeNear || decide (n ≤ m.startedAt + us 6) }))
          -- Run Control
          ∧ (s.ctl.drain = true → s.ctl.run = .run → (∀ e ∈ u.table.entries, ¬awaits e) →
              u.ctl = { s.ctl with run := .halt, drain := false, hailDue := some (n + ms 250) })
          ∧ (s.ctl.drain = false ∨ s.ctl.run ≠ .run ∨ (∃ e ∈ u.table.entries, awaits e) → u.ctl = s.ctl)
          -- the Unit Table and the gates
          ∧ (roleOfCode s.ctl.role ≠ some .sort →
              u.gates = s.gates ∧ u.idx.firingReq = s.idx.firingReq
                ∧ (∀ x, ¬worked x → (∀ r, s.idx.retireLimit = some r → pos x ≤ r) → (∀ c, s.eng.ctx = some c → c.tag ≠ x) →
                    u.entryOf x = s.entryOf x)
                ∧ (∀ r, s.idx.retireLimit = some r →
                    (∀ x, ¬worked x → r < pos x → u.entryOf x = none)
                      ∧ (s.work = Work.empty →
                          u.table.lastRemoved
                            = ((s.table.entries.filter (fun e => decide (r < pos e.tag) && !e.assumedPage && e.stamp.isSome)).getLast?.bind
                                  (·.stamp)).or s.table.lastRemoved))
                ∧ (s.idx.retireLimit = none → u.table.lastRemoved = s.table.lastRemoved)))

/-- R15, R27, R44, R49, R57, R60, R89, R111, R10, R145: PROBE in RUN and ACTIVE starts a COARSE measurement on every pocket, under the page read at the edge and the digest held for it; the entry of the pocket is created, or found as it is, and its own stage becomes MEASURING. The relays, RLY0 to RLY5, and the ADC channels stand in the unit arrangement, HOLD is pulled low, and no unit record but that of the measurement aborted is sent. A COARSE measurement still in progress is aborted first: an ENTRY of class CONTACT, MEAS_ABORT raised, and the instant of its turn-off kept for the new forward start (where its excitation was already off, the instant held before: log entry 15). -/
def Obligations.IndexStartsCoarse : Prop :=
  ∀ (t : Instant) (pins : BitVec 2) (s : State) (p : Nat), s.resetHeld = false → (∀ e, s.idx.lastIndex = some e → e + ms 1 ≤ max s.now t) →
    roleOfCode s.ctl.role = some .probe → s.ctl.run = .run → s.ctl.activity = .active → s.ctl.items.position = some p →
    ∃ u c, exec (.indexEvent t pins) s = .next u ∧ u.eng.ctx = some c ∧ c.kind = .coarse ∧ c.tag = s.idx.count + 1 - BitVec.ofNat 16 p
      ∧ c.stamp = { page := pageOfBits pins, digest := if (s.pages[pageOfBits pins]).state = .locked then (s.pages[pageOfBits pins]).digest else 0 }
      ∧ c.assumedPage = false ∧ c.range = (s.pages[pageOfBits pins]).range ∧ c.gain = (s.pages[pageOfBits pins]).gain
      ∧ c.slot = (s.pages[pageOfBits pins]).stdSlot ∧ c.state = .settle ∧ c.due = max s.now t + us (100 * s.ctl.items.settle)
      ∧ c.startTime = max s.now t ∧ c.limitDue = max s.now t + ms s.ctl.items.measLimit ∧ u.idx.measReq = true
      ∧ u.eng.relays = { slot := some c.slot, unit := true, check := false } ∧ u.eng.recentPage = pageOfBits pins
      ∧ u.xSenses = .unit ∧ u.sSenses = .standard
      ∧ (∀ j : Fin 4, u.slotRelay j = decide (j = c.slot)) ∧ u.unitRelay = true ∧ u.checkRelay = false ∧ u.pullsHold = true
      ∧ IndexSends t s (abortedRecords s) u
      ∧ (p ≤ 31 → s.idx.retireLimit = some p → s.eng.ctx = none →
          (s.entryOf c.tag = none → u.entryOf c.tag = some { Entry.blank c.tag .measuring with stamp := some c.stamp })
            ∧ ∀ e, s.entryOf c.tag = some e → u.entryOf c.tag = some { e with ownStage := .measuring })
      ∧ (s.eng.ctx = none → u.eng.lastOff = s.eng.lastOff)
      ∧ (∀ c0, s.eng.ctx = some c0 → c0.kind = .coarse →
          flagIn u.alerts.word .measAbort = true ∧ u.eng.excitation = .off ∧ u.eng.lastOff = (endedEngine (max s.now t) s.eng).lastOff
            ∧ (HasRoom 1 (advance t s) →
                { frame := .entry { tag := c0.tag, stamp := c0.stamp, cls := .contact, coarse := none }, waiting := 0 } ∈ u.link.queue))

/-- R28, R29, R30, R45, R46, R48, R49, R60, R89, R10, R145: the UNIT measurement of an index event, for PRECISE and THERMAL on a unit of class PRESENT, of no class or without an entry, and for RETEST on one whose cold record is NEAR or SUSPECT or that is PRESENT without a cold record. It runs under the page of the entry, or else under the assumed page: that of the youngest entry held whose page came with an ENTRY, else that of the youngest such entry last removed. The relays, RLY0 to RLY5, and the ADC channels stand in the unit arrangement, and HOLD is pulled low. Without a LOCKED page the work ends at once with a VALUE of quality NO_RECIPE. A UNIT or CHECK measurement of another unit still in progress is aborted first, whether or not its entry is still held: MEAS_ABORT, and a VALUE for a UNIT alone; where its excitation was already off, the instant of the last turn-off stays (log entry 15, DEDUCED). That an entry whose page was assumed earlier gives ASSUMED_PAGE is log entry 25, DEDUCED. -/
def Obligations.IndexStartsUnit : Prop :=
  ∀ (t : Instant) (pins : BitVec 2) (s : State) (p : Nat) (k : Slot), s.resetHeld = false →
    (∀ e, s.idx.lastIndex = some e → e + ms 1 ≤ max s.now t) → s.role.bind slotOfRole = some k →
    s.ctl.run = .run → s.ctl.activity = .active → s.ctl.items.position = some p → p ≤ 31 → s.idx.retireLimit = some p → s.work = Work.empty →
    let tag := s.idx.count + 1 - BitVec.ofNat 16 p
    (∀ c0, s.eng.ctx = some c0 → c0.kind ≠ .coarse ∧ c0.tag ≠ tag) →
    let n := max s.now t
    let eng := if s.eng.ctx = none then s.eng else endedEngine n s.eng
    let stays (e : Entry) : Bool := decide ((s.idx.count + 1 - e.tag).toNat ≤ p)
    let youngest (l : List Entry) : Option PageStamp := (l.filter (fun e => e.stamped.isSome)).getLast?.bind Entry.stamped
    let found := (youngest (s.table.entries.filter stays)).or ((youngest (s.table.entries.filter (fun e => !stays e))).or s.table.lastRemoved)
    let held := (s.entryOf tag).bind (·.stamp)
    let assumed := if held = none then found.isSome else (s.entryOf tag).any (·.assumedPage)
    let entry : Entry :=
      let e := (s.entryOf tag).getD (Entry.blank tag .none)
      if held = none ∧ found ≠ none then { e with stamp := found, assumedPage := true } else e
    let measures : Prop :=
      ((k = .cold ∨ k = .hot) ∧ ∀ e, s.entryOf tag = some e → e.cls = none ∨ e.cls = some .present)
        ∨ (k = .retest ∧ ∃ e, s.entryOf tag = some e
            ∧ ((∃ v, e.cold = some v ∧ (v.flags.near = true ∨ v.flags.suspect = true)) ∨ (e.cold = none ∧ e.cls = some .present)))
    measures →
    ∃ u, exec (.indexEvent t pins) s = .next u
      ∧ (∀ c0, s.eng.ctx = some c0 →
          flagIn u.alerts.word .measAbort = true
            ∧ (c0.kind = .unit → HasRoom 1 (advance t s) →
                { frame := .value (endedRecord s c0 .aborted), waiting := 0 } ∈ u.link.queue))
      ∧ (∀ st, held.or found = some st → (s.pages[st.page]).state = .locked →
          u.eng =
              { eng with
                recentPage := st.page, relays := { slot := some (s.pages[st.page]).stdSlot, unit := true, check := false }
                channels := .unit
                ctx := some
                  { kind := .unit, tag := tag, stamp := st, assumedPage := assumed, range := (s.pages[st.page]).range
                    gain := (s.pages[st.page]).gain, slot := (s.pages[st.page]).stdSlot, state := .settle
                    due := n + us (100 * s.ctl.items.settle), discards := 0, kept := 0, sums := ⟨0, 0⟩, fwd := none, rev := none
                    temperature := none, tempAbsent := false, startTime := n, limitDue := n + ms s.ctl.items.measLimit } }
            ∧ u.xSenses = .unit ∧ u.sSenses = .standard
            ∧ (∀ j : Fin 4, u.slotRelay j = decide (j = (s.pages[st.page]).stdSlot)) ∧ u.unitRelay = true ∧ u.checkRelay = false
            ∧ u.pullsHold = true ∧ IndexSends t s (abortedRecords s) u
            ∧ u.idx.measReq = true ∧ u.entryOf tag = some { entry with ownStage := .measuring })
      ∧ ((∀ st, held.or found = some st → (s.pages[st.page]).state ≠ .locked) →
          let r : ValueRecord :=
            { tag := tag, quality := .noRecipe, deviation := none, temperature := none
              flags :=
                { suspect := false, drift := false, driftStale := false, tempAbsent := false, saturated := false, near := false,
                  assumedPage := assumed, tcrAbsent := decide (k = .hot) }
              tcr := none }
          u.eng = eng ∧ (s.eng.ctx = none → u.idx.measReq = s.idx.measReq) ∧ (s.eng.ctx ≠ none → u.idx.measReq = false)
            ∧ u.entryOf tag = some { entry.fillSlot k ((r.held s.ctl.node).forSlot k) with ownStage := .done }
            ∧ IndexSends t s (abortedRecords s ++ [.value r]) u
            ∧ (HasRoom 2 (advance t s) → { frame := .value r, waiting := 0 } ∈ u.link.queue))

/-- R45, R46, R47, R60, R64, R89, R10, R145: the units that PRECISE, RETEST and THERMAL do not measure. On a unit of class EMPTY a CHECK measurement starts under the most recently used page, with the relays and the ADC channels in the check arrangement (X on the standard, S on the check resistor; RLY5 in the place of RLY4) and HOLD pulled low, or the unit is SKIPPED when that page is not LOCKED; a unit of class CONTACT or GROSS is SKIPPED, and at RETEST any other that its cold record does not call for; RETEST without an entry takes no work and makes none. SKIPPED starts no sequence and sends no record. A measurement of another unit still in progress is aborted first: MEAS_ABORT, and a VALUE for a UNIT alone (where its excitation was already off, the instant of the last turn-off stays: log entry 15, DEDUCED); request, relays and excitation are otherwise as they were. -/
def Obligations.IndexSkipsUnit : Prop :=
  ∀ (t : Instant) (pins : BitVec 2) (s : State) (p : Nat), s.resetHeld = false → (∀ e, s.idx.lastIndex = some e → e + ms 1 ≤ max s.now t) →
    s.ctl.run = .run → s.ctl.activity = .active → s.ctl.items.position = some p → p ≤ 31 → s.idx.retireLimit = some p →
    let tag := s.idx.count + 1 - BitVec.ofNat 16 p
    (∀ c0, s.eng.ctx = some c0 → c0.kind ≠ .coarse ∧ c0.tag ≠ tag) →
    let n := max s.now t
    let eng := if s.eng.ctx = none then s.eng else endedEngine n s.eng
    let page := s.pages[s.eng.recentPage]
    let aborts (u : State) : Prop :=
      (s.eng.ctx = none → flagIn u.alerts.word .measAbort = flagIn s.alerts.word .measAbort)
        ∧ (∀ c0, s.eng.ctx = some c0 →
          flagIn u.alerts.word .measAbort = true
            ∧ (c0.kind = .unit → HasRoom 1 (advance t s) →
                { frame := .value (endedRecord s c0 .aborted), waiting := 0 } ∈ u.link.queue))
        ∧ IndexSends t s (abortedRecords s) u
    let idle (u : State) : Prop := u.eng = eng ∧ (s.eng.ctx = none → u.idx.measReq = s.idx.measReq) ∧ (s.eng.ctx ≠ none → u.idx.measReq = false)
    let precise : Prop := roleOfCode s.ctl.role = some .precise ∨ roleOfCode s.ctl.role = some .thermal
    (∀ e : Entry, s.entryOf tag = some e →
        let notCalled : Prop :=
          roleOfCode s.ctl.role = some .retest
            ∧ ((∃ v, e.cold = some v ∧ v.flags.near = false ∧ v.flags.suspect = false) ∨ (e.cold = none ∧ e.cls ≠ some .present))
        let skipped (u : State) : Prop := idle u ∧ u.entryOf tag = some { e with ownStage := .skipped }
        (precise ∨ notCalled) →
        ∃ u, exec (.indexEvent t pins) s = .next u ∧ aborts u
          ∧ (precise → e.cls = some .contact ∨ e.cls = some .grossLow ∨ e.cls = some .grossHigh → skipped u)
          ∧ (notCalled → e.cls ≠ some .empty → skipped u)
          ∧ (e.cls = some .empty → page.state ≠ .locked → skipped u)
          ∧ (e.cls = some .empty → page.state = .locked →
              u.eng =
                  { eng with
                    relays := { slot := some page.stdSlot, unit := false, check := true }
                    channels := .check
                    ctx := some
                      { kind := .check, tag := tag, stamp := { page := s.eng.recentPage, digest := page.digest }
                        assumedPage := false, range := page.range, gain := page.gain, slot := page.stdSlot, state := .settle
                        due := n + us (100 * s.ctl.items.settle), discards := 0, kept := 0, sums := ⟨0, 0⟩, fwd := none, rev := none
                        temperature := none, tempAbsent := false, startTime := n, limitDue := n + ms s.ctl.items.measLimit } }
                ∧ u.xSenses = .standard ∧ u.sSenses = .checkResistor
                ∧ (∀ j : Fin 4, u.slotRelay j = decide (j = page.stdSlot)) ∧ u.unitRelay = false ∧ u.checkRelay = true ∧ u.pullsHold = true
                ∧ u.idx.measReq = true ∧ u.entryOf tag = some { e with ownStage := .measuring }))
      ∧ (roleOfCode s.ctl.role = some .retest → s.entryOf tag = none →
          ∃ u, exec (.indexEvent t pins) s = .next u ∧ aborts u ∧ idle u ∧ u.entryOf tag = none)

/-- R43, R60, R62, R66, R31, R145: an index event on a station that takes no work (not in RUN, not ACTIVE, or without a position) ends a sequence in progress as ABORTED and starts none. MEAS_ABORT is raised, and where the station sends unit records a UNIT measurement yields a VALUE of quality ABORTED, in its own slot too while the unit is in range under the new count, a COARSE measurement an ENTRY of class CONTACT, which fills an entry without a class, and a CHECK no record; the own stage is DONE, and a unit in range without an entry gets one from its record. Outside SORT no other unit record is sent. Where the excitation was already off (SETTLE, CONTACT, GAP) the instant of the last turn-off stays: log entry 15, DEDUCED. -/
def Obligations.IndexWithoutWork : Prop :=
  ∀ (t : Instant) (pins : BitVec 2) (s : State), s.resetHeld = false → (∀ e, s.idx.lastIndex = some e → e + ms 1 ≤ max s.now t) →
    (s.ctl.run ≠ .run ∨ s.ctl.activity ≠ .active ∨ s.ctl.items.position = none) →
    ∃ u, exec (.indexEvent t pins) s = .next u
      ∧ (s.eng.ctx = none → u.eng = s.eng ∧ u.idx.measReq = s.idx.measReq)
      ∧ (s.eng.ctx ≠ none → u.eng = endedEngine (max s.now t) s.eng ∧ u.idx.measReq = false ∧ flagIn u.alerts.word .measAbort = true)
      ∧ (∀ c, s.eng.ctx = some c →
          let queued (f : QFrame) : Prop := SendsUnits s → HasRoom 1 (advance t s) → { frame := f, waiting := 0 } ∈ u.link.queue
          let inRange : Prop := ∃ r, s.idx.retireLimit = some r ∧ (s.idx.count + 1 - c.tag).toNat ≤ r ∧ r ≤ 31
          let entryIs (f : Entry → Entry) : Prop :=
            roleOfCode s.ctl.role ≠ some .sort → inRange → ∀ e, s.entryOf c.tag = some e → u.entryOf c.tag = some { f e with ownStage := .done }
          let entryGets (f : Entry → Entry) : Prop :=
            roleOfCode s.ctl.role ≠ some .sort → inRange → s.entryOf c.tag = none → u.entryOf c.tag = some (f (Entry.blank c.tag .done))
          let fills (k : Slot) (e : Entry) : Entry := e.fillSlot k (((endedRecord s c .aborted).held s.ctl.node).forSlot k)
          let classes (e : Entry) : Entry :=
            if e.cls = none then { e with stamp := some c.stamp, cls := some .contact, coarse := none, assumedPage := false } else e
          (c.kind = .unit → queued (.value (endedRecord s c .aborted))
              ∧ ∀ k, s.role.bind slotOfRole = some k → entryIs (fills k) ∧ entryGets (fills k))
            ∧ (c.kind = .coarse → queued (.entry (endedEntry c)) ∧ entryIs classes ∧ entryGets classes)
            ∧ (c.kind = .check →
                entryIs id ∧ (roleOfCode s.ctl.role ≠ some .sort → s.entryOf c.tag = none → u.entryOf c.tag = none)))
      ∧ (roleOfCode s.ctl.role ≠ some .sort → IndexSends t s (abortedRecords s) u)

/-! ### The SORT decision -/

/-- R114 to R119, R75 to R78, R80: the reason table, row by row; a row is reached when no earlier row applies. The bins are examined in the order the page holds them, and the first that fits is the match. The values it reads are spelled out first: the default and the measured shift to 25 °C, the zero they may leave, agreement and nearness, the chosen value, α, and the order of deviations, in which −0 lies below +0. -/
def Obligations.ReasonTable : Prop :=
  let shift (n d : Int) : Int := n.sign * ((min 8388607 (roundedMag n d) : Nat) : Int)
  let shifted (dc : Dev) (q : Int) (d25 : Dev) : Prop :=
    (q = 0 → d25 = dc) ∧ (q ≠ 0 → d25.toInt = max (-8388607) (min 8388607 (dc.toInt - q)) ∧ (dc.toInt = q → d25 = ⟨false, 0⟩))
  let default (p : Page) (v : HeldValue) (d : Dev) : Dev := normaliseDefault p d v.temperature
  (∀ (p : Page) (dc : Dev),
      normaliseDefault p dc none = dc
        ∧ ∀ t : BitVec 12,
          shifted dc (shift (p.tcrDefault.toInt * ((t.toNat : Int) - 400)) 16) (normaliseDefault p dc (some t))
            ∧ (∀ (h : HeldValue) (dh α : Dev) (th : BitVec 12), h.quality = .good → h.deviation = some dh → h.tcr = some α →
                h.temperature = some th → t.toNat < th.toNat → t.toNat + p.tcrMinDt.toNat ≤ th.toNat →
                shifted dc (shift ((dh.toInt - dc.toInt) * ((t.toNat : Int) - 400)) ((th.toNat : Int) - t.toNat))
                  (normaliseChosen p dc (some t) (some h)))
            ∧ (∀ hot : Option HeldValue,
                (∀ h th, hot = some h → h.quality = .good → h.deviation.isSome = true → h.tcr.isSome = true → h.temperature = some th →
                    th.toNat ≤ t.toNat ∨ th.toNat < t.toNat + p.tcrMinDt.toNat) →
                normaliseChosen p dc (some t) hot = normaliseDefault p dc (some t)))
    ∧ (∀ (p : Page) (cold retest : HeldValue) (dc dr : Dev), cold.quality = .good → retest.quality = .good → cold.deviation = some dc →
        retest.deviation = some dr →
        (stageG p (some cold) (some retest) = false
          ↔ p.agreeLimit ≠ 0 ∧ p.agreeLimit.toNat < ((default p cold dc).toInt - (default p retest dr).toInt).natAbs))
    ∧ (∀ (p : Page) (cold retest : Option HeldValue),
        (∀ c r, cold = some c → retest = some r → c.quality ≠ .good ∨ c.deviation = none ∨ r.quality ≠ .good ∨ r.deviation = none) →
        stageG p cold retest = true)
    ∧ (∀ a b : Dev, devLe a b = true ↔ a.toInt < b.toInt ∨ (a.toInt = b.toInt ∧ (a.neg = true ∨ b.neg = false)))
    ∧ (∀ e : Entry,
        (∀ r d, e.retest = some r → r.quality = .good → r.deviation = some d → chosenValue e = some ⟨d, r, true⟩)
          ∧ ((∀ r, e.retest = some r → r.quality ≠ .good ∨ r.deviation = none) →
              (∀ v d, e.cold = some v → v.quality = .good → v.deviation = some d → chosenValue e = some ⟨d, v, false⟩)
                ∧ ((∀ v, e.cold = some v → v.quality ≠ .good ∨ v.deviation = none) → chosenValue e = none))
          ∧ (∀ h, e.hot = some h → h.quality = .good → alphaOf e = h.tcr)
          ∧ ((∀ h, e.hot = some h → h.quality ≠ .good) → alphaOf e = none))
    ∧ (∀ (p : Page) (d : Dev),
        (stageH p d = true
          ↔ p.guardBand ≠ 0
            ∧ ∃ b ∈ p.bins, (d.toInt - b.lower.toInt).natAbs ≤ p.guardBand.toNat ∨ (d.toInt - b.upper.toInt).natAbs ≤ p.guardBand.toNat))
    ∧ ∀ (s : State) (e : Entry) (st : PageStamp) (cls : EntryClass),
    (e.cls = none → judge s e = { page := none, reason := .noEntry, bin := none, gate := s.fallback })
      ∧ (e.cls = some .empty → judge s e = { page := e.stamp.map (·.page), reason := .empty, bin := none, gate := 0 })
      ∧ (e.cls = some cls → cls ≠ .empty → e.stamp = some st →
          ((s.pages[st.page]).state ≠ .locked → judge s e = { page := some st.page, reason := .noRecipe, bin := none, gate := s.fallback })
            ∧ ((s.pages[st.page]).state = .locked →
                (st.digest ≠ (s.pages[st.page]).digest → judge s e = { page := some st.page, reason := .digest, bin := none, gate := s.fallback })
                  ∧ (st.digest = (s.pages[st.page]).digest →
                      (cls = .contact →
                          judge s e = { page := some st.page, reason := .contact, bin := none, gate := (s.pages[st.page]).reworkGate })
                        ∧ ((cls = .grossLow ∨ cls = .grossHigh) →
                            judge s e = { page := some st.page, reason := .gross, bin := none, gate := (s.pages[st.page]).rejectGate })
                        ∧ (cls = .present → e.doubt = true →
                            judge s e = { page := some st.page, reason := .doubt, bin := none, gate := (s.pages[st.page]).reworkGate })
                        ∧ (cls = .present → e.doubt = false → chosenValue e = none →
                            judge s e = { page := some st.page, reason := .noValue, bin := none, gate := (s.pages[st.page]).reworkGate })
                        ∧ (cls = .present → e.doubt = false → ∀ v, chosenValue e = some v →
                            let page := s.pages[st.page]
                            let hotGood := ∃ h, e.hot = some h ∧ h.quality = .good
                            let near := stageH page (normaliseDefault page v.deviation v.record.temperature)
                            let d25 := normaliseChosen page v.deviation v.record.temperature e.hot
                            let fits (b : Bin) : Prop :=
                              devLe b.lower d25 = true ∧ devLe d25 b.upper = true
                                ∧ ∀ w, b.window = some w → ∃ α, alphaOf e = some α ∧ devLe w.1 α = true ∧ devLe α w.2 = true
                            let rework (r : Reason) : Provisional := { page := some st.page, reason := r, bin := none, gate := page.reworkGate }
                            (page.tcrRequired = true → ¬hotGood → judge s e = rework .noValue)
                              ∧ ((page.tcrRequired = false ∨ hotGood) →
                                  (v.record.flags.drift = true → judge s e = rework .drift)
                                    ∧ (v.record.flags.drift = false →
                                        (stageG page e.cold e.retest = false → judge s e = rework .disagree)
                                          ∧ (stageG page e.cold e.retest = true →
                                              (v.fromRetest = false → (near = true ∨ v.record.flags.suspect = true) →
                                                  judge s e = rework .guardBand)
                                                ∧ (v.fromRetest = true ∨ (near = false ∧ v.record.flags.suspect = false) →
                                                    (∀ before b after, page.bins = before ++ b :: after → (∀ x ∈ before, ¬fits x) → fits b →
                                                        judge s e
                                                          = { page := some st.page, reason := .binned, bin := some b.index, gate := b.gate })
                                                      ∧ ((∀ b ∈ page.bins, ¬fits b) →
                                                          judge s e
                                                            = { page := some st.page, reason := .noBin, bin := none
                                                                gate := page.rejectGate })))))))))

/-- R122: the capacity check. A full bin makes a BINNED verdict BIN_FULL at the page's OVERFLOW_GATE; every other verdict passes unchanged. -/
def Obligations.CapacityCheck : Prop :=
  ∀ (s : State) (v : Provisional),
    (∀ (p : Fin 4) (b : Fin 16) (bin : Bin), v.reason = .binned → v.page = some p → v.bin = some b → (s.pages[p]).binOf b = some bin →
        ((bin.capacity ≠ 0 ∧ s.binTally p b = bin.capacity →
            capacityCheck s v = { v with reason := .binFull, bin := none, gate := (s.pages[p]).overflowGate })
          ∧ (bin.capacity = 0 ∨ s.binTally p b < bin.capacity → capacityCheck s v = v)))
      ∧ (v.reason ≠ .binned → capacityCheck s v = v)

/-- R125: gate resolution, row by row: the verdict's gate, the output of its firing, and whether GATE_MISSED is raised. -/
def Obligations.GateResolution : Prop :=
  ∀ (s : State) (g : Fin 17),
    (g = 0 → resolveGate s g = (0, none, false))
      ∧ (∀ o : Fin 16, g.val = o.val + 1 → s.ctl.items.gatePos[o] ≠ 0 → resolveGate s g = (g, some o, false))
      ∧ (∀ o f : Fin 16, g.val = o.val + 1 → s.ctl.items.gatePos[o] = 0 → s.fallback.val = f.val + 1 → s.ctl.items.gatePos[f] ≠ 0 →
          resolveGate s g = (s.fallback, some f, false))
      ∧ (∀ o : Fin 16, g.val = o.val + 1 → s.ctl.items.gatePos[o] = 0 →
          (s.fallback = 0 ∨ ∃ f : Fin 16, s.fallback.val = f.val + 1 ∧ s.ctl.items.gatePos[f] = 0) → resolveGate s g = (0, none, true))

/-- R121, R123: the count of a verdict. Its reason tally goes up by one and stays at 65535, the bin tally with it when the reason is BINNED, and no other tally changes. -/
def Obligations.VerdictCounts : Prop :=
  ∀ (s : State) (v : Provisional),
    (∀ k : Fin 15, (countVerdict v s).gates.reasonTallies[k]
        = (if k = v.reason.place then tallyAdd s.gates.reasonTallies[k] 1 else s.gates.reasonTallies[k]))
      ∧ (∀ (p : Fin 4) (b : Fin 16), (countVerdict v s).binTally p b
          = (if v.reason = .binned ∧ v.page = some p ∧ v.bin = some b then tallyAdd (s.binTally p b) 1 else s.binTally p b))
      ∧ (∀ x : BitVec 16, tallyAdd x 1 = (if x = 65535 then x else x + 1))

/-! ### The measurement sequence -/

/-- R40, R49, R50, R51, R52, R53, R57: the timers of a sequence. SETTLE leads to the contact test of side A, which lasts 200 µs; the end of the off interval and of GAP switch the current on, forward and reverse, and begin the phase's conversions. The outputs follow: the test current of 1 mA on side A, or on CK1 for a CHECK (log entry 41), and no excitation; then the excitation of the RANGE held in the context, with the PGIA at the factor of its GAIN throughout (currents in nA). An expiry is taken at its due instant or later (log entry 2). -/
def Obligations.SequenceTimers : Prop :=
  ∀ (t : Instant) (s : State) (c : Ctx), s.resetHeld = false → s.eng.ctx = some c → c.due ≤ max s.now t →
    let a := advance t s
    let current : Nat := [100000000, 10000000, 1000000, 100000, 10000, 1000, 100].getD c.range.toNat 100
    let factor : Nat := [1, 2, 4, 8, 16, 32, 64, 128].getD c.gain.toNat 128
    (c.state = .settle →
        ∃ u, exec (.settleExpiry t) s = .next u
          ∧ Tail (a.withEng { s.eng with ctx := some { c with state := .contactA, due := max s.now t + us 200 } }) u
          ∧ u.contactOut = some (if c.kind = .check then .check1 else .sideA, 1000000) ∧ u.pgiaOut = some factor
          ∧ (s.eng.excitation = .off → u.excitationOut = none))
      ∧ (c.state = .fwdWait →
          ∃ u, exec (.offIntervalExpiry t) s = .next u
            ∧ Tail (a.withEng { s.eng with excitation := .forward, ctx := some (phaseCtx a .fwd c) }) u
            ∧ u.contactOut = none ∧ u.pgiaOut = some factor ∧ u.excitationOut = some (.forward, current))
      ∧ (c.state = .gap →
          ∃ u, exec (.gapExpiry t) s = .next u
            ∧ Tail (a.withEng { s.eng with excitation := .reverse, ctx := some (phaseCtx a .rev c) }) u
            ∧ u.contactOut = none ∧ u.pgiaOut = some factor ∧ u.excitationOut = some (.reverse, current))

/-- R40, R50, R51, R57: the contact test. A pair is closed below CONTACT_LIMIT (0.1 Ω a step, the operand in milliohms, log entry 6). Side A's end begins side B's test, with the test current of 1 mA on side B, or on CK2 for a CHECK (log entry 41); with both pairs closed the test current ends and the sequence enters FWD, whose current waits until the off interval since it last went off has passed. -/
def Obligations.ContactTestSides : Prop :=
  ∀ (t : Instant) (r : Nat) (s : State) (c : Ctx), s.resetHeld = false → s.eng.ctx = some c → c.due ≤ max s.now t →
    let a := advance t s
    let current : Nat := [100000000, 10000000, 1000000, 100000, 10000, 1000, 100].getD c.range.toNat 100
    (c.state = .contactA →
        ∃ u, exec (.contactTestEnd t r) s = .next u
          ∧ Tail
              (a.withEng
                { s.eng with
                  ctx := some { c with state := .contactB (decide (r < 100 * s.ctl.items.contactLimit)), due := max s.now t + us 200 } }) u
          ∧ u.contactOut = some (if c.kind = .check then .check2 else .sideB, 1000000))
      ∧ (c.state = .contactB true → r < 100 * s.ctl.items.contactLimit →
          (∀ o, s.eng.lastOff = some o → o + us (10 * s.ctl.items.gap) ≤ max s.now t) →
            ∃ u, exec (.contactTestEnd t r) s = .next u
              ∧ Tail (a.withEng { s.eng with excitation := .forward, ctx := some (phaseCtx a .fwd c) }) u
              ∧ u.contactOut = none ∧ u.excitationOut = some (.forward, current))
      ∧ (∀ o, c.state = .contactB true → r < 100 * s.ctl.items.contactLimit → s.eng.lastOff = some o →
          max s.now t < o + us (10 * s.ctl.items.gap) →
            ∃ u, exec (.contactTestEnd t r) s = .next u
              ∧ Tail (a.withEng { s.eng with ctx := some { c with state := .fwdWait, due := o + us (10 * s.ctl.items.gap) } }) u
              ∧ u.contactOut = none ∧ (s.eng.excitation = .off → u.excitationOut = none))

/-- R50, R54, R58, R59, R66, R23: a UNIT measurement that ends early, on an open contact, an overload or MEAS_LIMIT: excitation off, request clear, a VALUE of that quality without a value in the own slot of the entry and in the queue, the own stage DONE; a record that has come late, or whose entry is gone, is queued and enters no slot. A MEAS_LIMIT taken when the temperature conversion has ended finds a reading, a free value (log entry 38): it is discarded, but an open sensor raises TEMP_FAULT and sets TEMP_ABSENT. Where the excitation was already off (SETTLE, CONTACT, GAP) the instant of the last turn-off stays: log entry 15, DEDUCED. -/
def Obligations.UnitEndsEarly : Prop :=
  ∀ (t : Instant) (s : State) (c : Ctx) (k : Slot), s.resetHeld = false → s.eng.ctx = some c → UnitRun s c k →
    let a := advance t s
    let ended (r : ValueRecord) (b : State) := offerUnit (.value r) (ownValue k r (afterSequence b))
    let queued (r : ValueRecord) (u : State) : Prop := SendsUnits s → HasRoom 1 a → Queued a [.value r] u
    (∀ (r : Nat) (first : Bool), c.state = .contactB first → c.due ≤ max s.now t → (first = false ∨ 100 * s.ctl.items.contactLimit ≤ r) →
        ∃ u, exec (.contactTestEnd t r) s = .next u ∧ Tail (ended (endedRecord s c .contact) a) u ∧ queued (endedRecord s c .contact) u)
      ∧ (∀ x std : BitVec 24, (c.state = .fwd ∨ c.state = .rev) → c.due ≤ max s.now t → c.discards = 0 →
          (x = 0x7FFFFF ∨ x = 0x800000 ∨ std = 0x7FFFFF ∨ std = 0x800000) →
          ∃ u, exec (.conversionEnd t x std) s = .next u ∧ Tail (raise .overload (ended (endedRecord s c .overload) a)) u
            ∧ queued (endedRecord s c .overload) u)
      ∧ (c.limitDue ≤ max s.now t → (c.state ≠ .sampling ∨ max s.now t < c.due) →
          ∃ u, exec (.measLimitExpiry t) s = .next u ∧ Tail (raise .measTimeout (ended (endedRecord s c .timeout) a)) u
            ∧ queued (endedRecord s c .timeout) u)
      ∧ (c.limitDue ≤ max s.now t → c.state = .sampling → c.due ≤ max s.now t →
          let reading : BitVec 12 := (Config.freeBits s.freeDraws).extractLsb' 0 12
          let r := endedRecord s { c with tempAbsent := c.tempAbsent || reading == 4095 } .timeout
          ∃ u, exec (.measLimitExpiry t) s = .next u
            ∧ Tail (raise .measTimeout (ended r (raiseIf (reading == 4095) .tempFault (a.withFreeDraws (s.freeDraws + 1))))) u ∧ queued r u)

/-- R50, R56, R58, R59, R23: a COARSE measurement that ends early: EMPTY with both pairs open, CONTACT with one open or on MEAS_LIMIT, GROSS_HIGH with coarse +2047 when X stood at +8,388,607 and GROSS_LOW with −2047 in the other overloads. The ENTRY is queued, and enters the table while its unit is in range. (A COARSE measurement samples no temperature.) Where the excitation was already off (SETTLE, CONTACT) the instant of the last turn-off stays: log entry 15, DEDUCED. -/
def Obligations.CoarseEndsEarly : Prop :=
  ∀ (t : Instant) (s : State) (c : Ctx), s.resetHeld = false → s.eng.ctx = some c → CoarseRun s c →
    let a := advance t s
    let record (cls : EntryClass) (v : Option Coarse) : EntryRecord := { tag := c.tag, stamp := c.stamp, cls := cls, coarse := v }
    let ended (r : EntryRecord) := offerUnit (.entry r) (ownEntry r (afterSequence a))
    let queued (r : EntryRecord) (u : State) : Prop := SendsUnits s → HasRoom 1 a → Queued a [.entry r] u
    (∀ (r : Nat) (first : Bool) (cls : EntryClass), c.state = .contactB first → c.due ≤ max s.now t →
        ((first = false ∧ 100 * s.ctl.items.contactLimit ≤ r ∧ cls = .empty)
          ∨ (first = false ∧ r < 100 * s.ctl.items.contactLimit ∧ cls = .contact)
          ∨ (first = true ∧ 100 * s.ctl.items.contactLimit ≤ r ∧ cls = .contact)) →
        ∃ u, exec (.contactTestEnd t r) s = .next u ∧ Tail (ended (record cls none)) u ∧ queued (record cls none) u)
      ∧ (∀ (x std : BitVec 24) (cls : EntryClass) (v : Coarse), (c.state = .fwd ∨ c.state = .rev) → c.due ≤ max s.now t → c.discards = 0 →
          ((x = 0x7FFFFF ∧ cls = .grossHigh ∧ v = ⟨false, 2047⟩)
            ∨ (x ≠ 0x7FFFFF ∧ (x = 0x800000 ∨ std = 0x7FFFFF ∨ std = 0x800000) ∧ cls = .grossLow ∧ v = ⟨true, 2047⟩)) →
          ∃ u, exec (.conversionEnd t x std) s = .next u ∧ Tail (raise .overload (ended (record cls (some v)))) u
            ∧ queued (record cls (some v)) u)
      ∧ (c.limitDue ≤ max s.now t → c.state ≠ .sampling →
          ∃ u, exec (.measLimitExpiry t) s = .next u ∧ Tail (raise .measTimeout (ended (record .contact none))) u
            ∧ queued (record .contact none) u)

/-- R58, R59, R64, R69, R90 to R93: a CHECK measurement leaves no record. Ended early, by a contact, an overload or MEAS_LIMIT, it marks the own stage DONE and touches no drift slot; completed, its d_check (N is Sx minus Ss times 10,000,000, over Ss) enters the slot when Stages A to C pass: the first is the baseline, with a sample of +0, a later one a sample of its distance from the baseline; the ring keeps the last four and the staleness count is 0. STD_LOW is raised when Ss is too low, and a polarity failure leaves the slot alone. k is the rounded mean of a ring, absent while it is empty. A MEAS_LIMIT taken when the temperature conversion has ended finds a reading, a free value (log entry 38). Where the excitation was already off the instant of the last turn-off stays: log entry 15, DEDUCED. -/
def Obligations.CheckEnds : Prop :=
  ∀ (t : Instant) (s : State) (c : Ctx), s.resetHeld = false → s.eng.ctx = some c → c.kind = .check →
    let a := advance t s
    let done (b : State) := setStage c.tag .done b
    (∀ (r : Nat) (first : Bool), c.state = .contactB first → c.due ≤ max s.now t → (first = false ∨ 100 * s.ctl.items.contactLimit ≤ r) →
        ∃ u, exec (.contactTestEnd t r) s = .next u ∧ Tail (done (afterSequence a)) u)
      ∧ (∀ x std : BitVec 24, (c.state = .fwd ∨ c.state = .rev) → c.due ≤ max s.now t → c.discards = 0 →
          (x = 0x7FFFFF ∨ x = 0x800000 ∨ std = 0x7FFFFF ∨ std = 0x800000) →
          ∃ u, exec (.conversionEnd t x std) s = .next u ∧ Tail (raise .overload (done (afterSequence a))) u)
      ∧ (c.limitDue ≤ max s.now t → (c.state ≠ .sampling ∨ max s.now t < c.due) →
          ∃ u, exec (.measLimitExpiry t) s = .next u ∧ Tail (raise .measTimeout (done (afterSequence a))) u)
      ∧ (c.limitDue ≤ max s.now t → c.state = .sampling → c.due ≤ max s.now t →
          let b := raiseIf ((Config.freeBits s.freeDraws).extractLsb' 0 12 == (4095 : BitVec 12)) .tempFault (a.withFreeDraws (s.freeDraws + 1))
          ∃ u, exec (.measLimitExpiry t) s = .next u ∧ Tail (raise .measTimeout (done (afterSequence b))) u)
      ∧ (∀ (reading : BitVec 12) (f v : Pair), c.state = .sampling → c.due ≤ max s.now t → c.fwd = some f → c.rev = some v →
          let b := raiseIf (reading == 4095) .tempFault (afterSequence a)
          ∃ u, exec (.temperatureSampleEnd t reading) s = .next u
            ∧ (f.s - v.s < s.ctl.items.minStd * 4096 → Tail (done (raise .stdLow b)) u)
            ∧ ((s.ctl.items.minStd : Int) * 4096 ≤ f.s - v.s → f.x - v.x ≤ 0 → Tail (done b) u)
            ∧ ((s.ctl.items.minStd : Int) * 4096 ≤ f.s - v.s → 0 < f.s - v.s → 0 < f.x - v.x →
                let check := roundedDev ((f.x - v.x - (f.s - v.s)) * 10000000) (f.s - v.s)
                let slot := s.drift[c.slot]
                let taken (x : DriftSlot) := Tail (done (b.withDrift (s.drift.set c.slot x))) u
                (slot.baseline = none → taken { baseline := some check, ring := [⟨false, 0⟩], staleness := 0 })
                  ∧ ∀ base, slot.baseline = some base →
                    let ring := slot.ring ++ [roundedDev (check.toInt - base.toInt) 1]
                    taken { baseline := some base, ring := if 4 < ring.length then ring.tail else ring, staleness := 0 }))
      ∧ driftK [] = none
      ∧ ∀ ring : List Dev, ring ≠ [] → driftK ring = some (roundedDev (ring.map Dev.toInt).sum ring.length)

/-- R41, R51, R53: a conversion that is thrown away counts the discards down; one that is kept, and is not the last of its phase, adds its codes to the sums. Either way the next conversion begins. -/
def Obligations.ConversionCounts : Prop :=
  ∀ (t : Instant) (x std : BitVec 24) (s : State) (c : Ctx), s.resetHeld = false → s.eng.ctx = some c → c.due ≤ max s.now t →
    (c.state = .fwd ∨ c.state = .rev) →
    let a := advance t s
    let next := max s.now t + 625 * 2 ^ s.ctl.items.osr
    (0 < c.discards →
        ∃ u, exec (.conversionEnd t x std) s = .next u
          ∧ Tail (a.withEng { s.eng with ctx := some { c with discards := c.discards - 1, due := next } }) u)
      ∧ (c.discards = 0 → x ≠ 0x7FFFFF → x ≠ 0x800000 → std ≠ 0x7FFFFF → std ≠ 0x800000 → c.kept + 1 < s.ctl.items.phaseAvg →
          ∃ u, exec (.conversionEnd t x std) s = .next u
            ∧ Tail
                (a.withEng
                  { s.eng with
                    ctx := some { c with sums := ⟨c.sums.x + x.toInt, c.sums.s + std.toInt⟩, kept := c.kept + 1, due := next } }) u)

/-- R41, R51, R52, R53, R57: the last kept conversion of a phase. FWD leads to GAP with the excitation off and its instant recorded, REV to the temperature sample with the current still on; the averages are the sums over the kept conversions, rounded half away from zero. -/
def Obligations.PhaseEnds : Prop :=
  ∀ (t : Instant) (x std : BitVec 24) (s : State) (c : Ctx), s.resetHeld = false → s.eng.ctx = some c → c.due ≤ max s.now t →
    c.discards = 0 → x ≠ 0x7FFFFF → x ≠ 0x800000 → std ≠ 0x7FFFFF → std ≠ 0x800000 → s.ctl.items.phaseAvg ≤ c.kept + 1 →
    let a := advance t s
    let sums : Pair := ⟨c.sums.x + x.toInt, c.sums.s + std.toInt⟩
    let avg : Pair := ⟨rounded sums.x (c.kept + 1), rounded sums.s (c.kept + 1)⟩
    let c' : Ctx := { c with sums := sums, kept := c.kept + 1 }
    (c.state = .fwd → c.kind ≠ .coarse → s.eng.excitation = .forward →
        ∃ u, exec (.conversionEnd t x std) s = .next u
          ∧ Tail
              (a.withEng
                { s.eng with
                  excitation := .off, lastOff := some (max s.now t)
                  ctx := some { c' with state := .gap, fwd := some avg, due := max s.now t + us (10 * s.ctl.items.gap) } }) u)
      ∧ (c.state = .rev →
          ∃ u, exec (.conversionEnd t x std) s = .next u
            ∧ Tail (a.withEng { s.eng with ctx := some { c' with state := .sampling, rev := some avg, due := max s.now t + us 250 } }) u)

/-- R41, R55, R56, R81, R82: a COARSE measurement whose forward phase completes: excitation off, request clear, and an ENTRY with the context's tag, page and digest, in the table and the queue. Its coarse value is Xf minus Sf times 10,000 over Sf, rounded half away from zero and brought within ±2047, +0 when Xf equals Sf and −0 for a negative one that rounds to 0; its class comes from it and GROSS of the page. -/
def Obligations.CoarseCompletes : Prop :=
  ∀ (t : Instant) (x std : BitVec 24) (s : State) (c : Ctx), s.resetHeld = false → s.eng.ctx = some c → c.due ≤ max s.now t →
    c.discards = 0 → x ≠ 0x7FFFFF → x ≠ 0x800000 → std ≠ 0x7FFFFF → std ≠ 0x800000 → s.ctl.items.phaseAvg ≤ c.kept + 1 →
    CoarseRun s c → c.state = .fwd →
    let a := advance t s
    let f : Pair := ⟨rounded (c.sums.x + x.toInt) (c.kept + 1), rounded (c.sums.s + std.toInt) (c.kept + 1)⟩
    let record (cls : EntryClass) (v : Coarse) : EntryRecord := { tag := c.tag, stamp := c.stamp, cls := cls, coarse := some v }
    let gross := (s.pages[c.stamp.page]).gross.toNat
    let n : Int := (f.x - f.s) * 10000
    let v : Coarse := ⟨decide (n < 0), BitVec.ofNat 11 (min 2047 (roundedMag n f.s))⟩
    (f.s < s.ctl.items.minStd * 4096 →
        let r := if 0 ≤ f.x - f.s then record .grossHigh ⟨false, 2047⟩ else record .grossLow ⟨true, 2047⟩
        ∃ u, exec (.conversionEnd t x std) s = .next u ∧ Tail (offerUnit (.entry r) (ownEntry r (raise .stdLow (afterSequence a)))) u
          ∧ (SendsUnits s → HasRoom 1 a → Queued a [.entry r] u))
      ∧ ((s.ctl.items.minStd : Int) * 4096 ≤ f.s → 0 < f.s →
          let r := record (if v.mag.toNat ≤ gross then .present else if v.neg then .grossLow else .grossHigh) v
          ∃ u, exec (.conversionEnd t x std) s = .next u ∧ Tail (offerUnit (.entry r) (ownEntry r (afterSequence a))) u
            ∧ (SendsUnits s → HasRoom 1 a → Queued a [.entry r] u))

/-- R53, R54, R55, R66, R68, R83 to R85: the temperature sample ends a UNIT measurement: excitation off, request clear, TEMP_FAULT for reading 4095, and one VALUE, `completedRecord` of the averages under the context with its reading, in the own slot, the queue, and the own stage DONE. STD_LOW is raised when Ss is below its limit. The reading and the release step are one command: log entry 38. -/
def Obligations.TemperatureSampleEnds : Prop :=
  ∀ (t : Instant) (reading : BitVec 12) (s : State) (c : Ctx) (k : Slot) (f v : Pair), s.resetHeld = false → s.eng.ctx = some c →
    UnitRun s c k → c.state = .sampling → c.due ≤ max s.now t → c.fwd = some f → c.rev = some v →
    let a := advance t s
    let c' : Ctx := if reading = 4095 then { c with tempAbsent := true } else { c with temperature := some reading }
    let r := (completedRecord a c' f v).1
    let b := raiseIf (reading == 4095) .tempFault (afterSequence a)
    ∃ u, exec (.temperatureSampleEnd t reading) s = .next u
      ∧ Tail (offerUnit (.value r) (ownValue k r (if f.s - v.s < s.ctl.items.minStd * 4096 then raise .stdLow b else b))) u
      ∧ (SendsUnits s → HasRoom 1 a → Queued a [.value r] u)

/-- R67 to R74, R79, R94, R95, R97: what the record of a UNIT measurement says after its release step, on the averages of the two phases: Stages A to D with their saturation and the sign of a zero, the flags, THERMAL's coefficient from the cold side of its entry (Stage E), and NEAR at PRECISE alone (Stage H, on the value normalised in the default form; ReasonTable spells both out). -/
def Obligations.CompletedRecord : Prop :=
  (∀ e : Entry,
      (∀ r d t, e.retest = some r → r.quality = .good → r.deviation = some d → r.temperature = some t → coldSide (some e) = some (d, some t))
        ∧ ((∀ r, e.retest = some r → r.quality ≠ .good ∨ r.deviation = none ∨ r.temperature = none) →
            (∀ v d, e.cold = some v → v.quality = .good → v.deviation = some d → coldSide (some e) = some (d, v.temperature))
              ∧ ((∀ v, e.cold = some v → v.quality ≠ .good ∨ v.deviation = none) → coldSide (some e) = none)))
    ∧ coldSide none = none
    ∧ ∀ (s : State) (c : Ctx) (f v : Pair),
      let r := (completedRecord s c f v).1
      let sx := f.x - v.x
      let ss := f.s - v.s
      let limit : Int := s.ctl.items.minStd * 4096
      let page := s.pages[c.stamp.page]
      r.tag = c.tag ∧ r.temperature = c.temperature ∧ r.flags.tempAbsent = c.tempAbsent ∧ r.flags.assumedPage = c.assumedPage
        ∧ (s.role ≠ some .thermal → r.tcr = none ∧ r.flags.tcrAbsent = false)
        ∧ (ss < limit → r.quality = .stdLow) ∧ (limit ≤ ss → sx ≤ 0 → r.quality = .polarity)
        ∧ (ss < limit ∨ sx ≤ 0 →
            r.deviation = none ∧ r.tcr = none ∧ r.flags.tcrAbsent = (s.role == some .thermal) ∧ r.flags.suspect = false ∧ r.flags.drift = false
              ∧ r.flags.driftStale = false ∧ r.flags.saturated = false ∧ r.flags.near = false)
        ∧ (limit ≤ ss → 0 < sx → 0 < ss →
            let clamped (z : Int) : Int := max (-500000) (min 500000 z)
            let corr : Int :=
              clamped s.ctl.items.stdCert[c.slot].toInt + clamped s.ctl.items.channelTrim.toInt
                + clamped ((driftK (s.drift[c.slot]).ring).getD Dev.zero).toInt
            let raw : Int := (sx - ss) * 10000000
            let dRaw : Int := raw.sign * ((min 8388607 (roundedMag raw ss) : Nat) : Int)
            let x : Int := (dRaw * corr).sign * ((roundedMag (dRaw * corr) 10000000 : Nat) : Int)
            let sum : Int := dRaw + corr + x
            let saturates : Prop := 8388607 < roundedMag raw ss ∨ 8388607 < sum.natAbs
            r.quality = .good
              ∧ (r.flags.suspect = true ↔ s.ctl.items.offsetLimit ≠ 0 ∧ 64 * s.ctl.items.offsetLimit < (f.x + v.x).natAbs)
              ∧ (r.flags.drift = true
                  ↔ s.ctl.items.driftLimit ≠ 0 ∧ ∃ k, driftK (s.drift[c.slot]).ring = some k ∧ s.ctl.items.driftLimit < k.mag.toNat)
              ∧ (r.flags.driftStale = true ↔ 256 ≤ (s.drift[c.slot]).staleness)
              ∧ (s.role ≠ some .precise → r.flags.near = false)
              ∧ ∃ d, r.deviation = some d ∧ d.toInt = max (-8388607) (min 8388607 sum) ∧ (sum = 0 → d = ⟨decide (dRaw * corr < 0 ∧ x = 0), 0⟩)
                ∧ (s.role = some .precise → r.flags.near = stageH page (normaliseDefault page d c.temperature))
                ∧ (s.role ≠ some .thermal → (r.flags.saturated = true ↔ saturates))
                ∧ (s.role = some .thermal →
                    (∀ (dc : Dev) (tc th : BitVec 12), coldSide (s.entryOf c.tag) = some (dc, some tc) → c.temperature = some th →
                        let n : Int := (d.toInt - dc.toInt) * 16
                        let dt : Int := (th.toNat : Int) - tc.toNat
                        (page.tcrMinDt.toNat ≤ dt → 0 < dt →
                            r.tcr = some ⟨decide (n < 0), BitVec.ofNat 23 (min 8388607 (roundedMag n dt))⟩ ∧ r.flags.tcrAbsent = false
                              ∧ (r.flags.saturated = true ↔ saturates ∨ 8388607 < roundedMag n dt))
                          ∧ (dt < page.tcrMinDt.toNat ∨ dt ≤ 0 →
                              r.tcr = none ∧ r.flags.tcrAbsent = true ∧ (r.flags.saturated = true ↔ saturates)))
                      ∧ (c.temperature = none ∨ (∀ dc tc, coldSide (s.entryOf c.tag) ≠ some (dc, some tc)) →
                          r.tcr = none ∧ r.flags.tcrAbsent = true ∧ (r.flags.saturated = true ↔ saturates))))

/-! ### Gates -/

/-- R4, R33, R35, R113, R122 to R128, R131, R132: the index event of a SORT station in every state and activity, whatever it holds, with a POSITION and without one. Every firing in progress is cut off with GATE_OVERRUN, and every WAITING one whose unit has passed its gate, one at an ahead position included (log entry 45), is dropped with GATE_MISSED; their entries leave. Then, ACTIVE and in RUN or HALT, the unit that has just passed the SORT position is decided: by the reason table where an entry without a verdict is held, with reason NO_ENTRY where none is held and no firing is pending for the tag. The reason is counted, one VERDICT frame is queued before anything else, and where a gate resolves, no firing is pending for the tag (log entry 37, DEDUCED) and the list has room a firing is added; the entry keeps the verdict, own stage DONE, while a firing is pending for it. An entry that has its verdict and has not left is not decided again: a unit decided before, whose firing in progress this event cuts off as the unit passes SORT a second time after a negative realign, is decided NO_ENTRY (log entry 46). In any other activity or state, or without a POSITION, nothing is decided. A VERDICT that finds six frames held is not queued and sets TXQ_OVERFLOW; the verdict, the tallies and the firing stand all the same. Every entry beyond the retire limit, or beyond the SORT position without a firing, leaves, as PASSED where it has no verdict (in FAULT one with a verdict stays: log entry 19, DEDUCED). Last, every firing whose unit stands at its gate starts. The order of these acts inside the event is log entry 11, and the place of the VERDICT among the frames of the event log entry 12. -/
def Obligations.SortDecides : Prop :=
  ∀ (t : Instant) (pins : BitVec 2) (s : State), s.resetHeld = false →
    (∀ e, s.idx.lastIndex = some e → e + ms 1 ≤ max s.now t) → roleOfCode s.ctl.role = some .sort → s.eng.ctx = none →
    TableOk s → GatesOk s → FaultOk s → s.work = Work.empty →
    let n := max s.now t
    -- the SORT position and the retire limit, which are both absent where POSITION is
    let p := s.ctl.items.position.getD 0
    let r := s.idx.retireLimit.getD 0
    let pos (x : BitVec 16) : Nat := (s.idx.count + 1 - x).toNat
    let gateAt (g : Fin 16) : Nat := s.ctl.items.gatePos[g]
    let tag := s.idx.count - BitVec.ofNat 16 p
    -- the firings that stay, and the entry of the unit that has passed the SORT position
    let left := s.gates.firings.filter (fun f => f.stage == .waiting && decide (pos f.tag ≤ gateAt f.gate))
    let gone (x : BitVec 16) : Bool := s.gates.firings.any (fun f => f.tag == x) && !left.any (fun f => f.tag == x)
    let held := if gone tag then none else s.entryOf tag
    let pend := left.any (fun f => f.tag == tag)
    let decides : Bool :=
      s.ctl.items.position.isSome && s.ctl.activity == .active && (s.ctl.run == .run || s.ctl.run == .halt)
        && (match held with | some e => e.verdict.isNone | none => !pend)
    let v : Provisional :=
      match held with
      | some e => capacityCheck s (judge s e)
      | none => { page := none, reason := .noEntry, bin := none, gate := s.fallback }
    let g := resolveGate s v.gate
    let final : Verdict := { reason := v.reason, bin := v.bin, gate := g.1 }
    let passed : Nat :=
      s.table.entries.countP
        (fun e => e.verdict == none && decide (p < pos e.tag) && (decide (r < pos e.tag) || !left.any (fun f => f.tag == e.tag))
          && !(decides && held.isSome && e.tag == tag))
    let started (f : Firing) : FiringStage :=
      if pos f.tag = gateAt f.gate then (if s.ctl.items.fireDelay = 0 then .pullIn else .delay) else .waiting
    let aged := ((advance t s).link.queue.map QItem.age).filter (fun q => !q.isStale)
    ∃ u more, exec (.indexEvent t pins) s = .next u ∧ (∀ q ∈ more, q.frame = .hail ∨ q.frame = .alert)
      -- tallies and frame
      ∧ (∀ k : Fin 15, u.gates.reasonTallies[k]
          = tallyAdd s.gates.reasonTallies[k] ((if decides ∧ k = v.reason.place then 1 else 0) + (if k = passedPlace then passed else 0)))
      ∧ (∀ (q : Fin 4) (b : Fin 16), u.binTally q b
          = (if decides ∧ v.reason = .binned ∧ v.page = some q ∧ v.bin = some b then tallyAdd (s.binTally q b) 1 else s.binTally q b))
      ∧ (decides → aged.length < 6 → u.link.queue = aged ++ [{ frame := .verdict tag final, waiting := 0 }] ++ more)
      ∧ (decides → 6 ≤ aged.length → u.link.queue = aged ∧ flagIn u.alerts.word .txqOverflow = true)
      ∧ (decides = false → u.link.queue = aged ++ more)
      ∧ (s.ctl.items.position = none → decides = false ∧ s.table.entries = [] ∧ u.table.entries = [])
      -- firings cut off and dropped
      ∧ (∀ f ∈ s.gates.firings, f.stage ≠ .waiting → flagIn u.alerts.word .gateOverrun = true ∧ u.entryOf f.tag = none)
      ∧ (∀ f ∈ s.gates.firings, f.stage = .waiting → gateAt f.gate < pos f.tag →
          flagIn u.alerts.word .gateMissed = true ∧ u.entryOf f.tag = none)
      -- the decided unit
      ∧ (decides →
          (∀ o, g.2.1 = some o → pend = false → left.length < 32 →
              { tag := tag, gate := o, page := v.page, stage := started { tag := tag, gate := o, page := v.page, stage := .waiting } } ∈ u.gates.firings)
            ∧ (p < r → pend = true ∨ (g.2.1 ≠ none ∧ left.length < 32) →
                u.entryOf tag = held.map (fun e => { e with verdict := some final, ownStage := .done }))
            ∧ (pend = false → g.2.1 = none ∨ 32 ≤ left.length → (∀ f ∈ u.gates.firings, f.tag ≠ tag) ∧ u.entryOf tag = none)
            ∧ (g.2.2 = true ∨ (g.2.1 ≠ none ∧ pend = false ∧ 32 ≤ left.length) → flagIn u.alerts.word .gateMissed = true))
      -- the other entries
      ∧ (∀ e ∈ s.table.entries, (decides → e.tag ≠ tag) →
          u.entryOf e.tag
            = (if gone e.tag = false ∧ pos e.tag ≤ r
                  ∧ (pos e.tag ≤ p ∨ left.any (fun f => f.tag == e.tag) = true ∨ (s.ctl.run = .fault ∧ e.verdict ≠ none))
                then some e else none))
      ∧ (∀ e ∈ u.table.entries, ∃ x ∈ s.table.entries, x.tag = e.tag)
      -- the firings left, and those that start
      ∧ (∀ f ∈ left, { f with stage := started f } ∈ u.gates.firings)
      ∧ (∀ f ∈ u.gates.firings, (decides ∧ f.tag = tag) ∨ ∃ x ∈ left, f = { x with stage := started x })
      ∧ (∀ f ∈ u.gates.firings, pos f.tag = gateAt f.gate →
          u.idx.firingReq = true
            ∧ u.gates.drivers[f.gate]
                = (if s.ctl.items.fireDelay = 0 then
                    .pullIn f.tag (n + us (100 * min s.ctl.items.pullIn s.ctl.items.pulseWidth)) (n + us (100 * s.ctl.items.pulseWidth))
                  else .delay f.tag (n + us (100 * s.ctl.items.fireDelay))))
      ∧ ((∀ f ∈ u.gates.firings, pos f.tag ≠ gateAt f.gate) → u.idx.firingReq = false ∧ u.gates.drivers = Vector.replicate 16 .idle)

/-- R12, R35, R129, R130: the end of FIRE_DELAY takes the firing into PULL_IN, its output fully on, which lasts PULL_IN or PULSE_WIDTH, whichever is shorter; the end of PULL_IN takes it into HOLDING, its output on for HOLD_DUTY of 256, when the pulse lasts longer, and else ends the pulse at once: driver IDLE, the firing off the list, its entry removed, the request cleared when no firing in progress is left. -/
def Obligations.DelayAndPullInEnd : Prop :=
  ∀ (t : Instant) (g : Fin 16) (tag : BitVec 16) (s : State), s.resetHeld = false →
    let staged (st : FiringStage) : List Firing := s.gates.firings.map (fun f => if f.tag = tag then { f with stage := st } else f)
    let left := s.gates.firings.filter (fun f => f.tag ≠ tag)
    (∀ due, s.gates.drivers[g] = .delay tag due → due ≤ max s.now t →
        ∃ u, exec (.fireDelayExpiry t g) s = .next u
          ∧ Tail
              ((advance t s).withGates
                { s.gates with
                  drivers := s.gates.drivers.set g
                    (.pullIn tag (max s.now t + us (100 * min s.ctl.items.pullIn s.ctl.items.pulseWidth))
                      (max s.now t + us (100 * s.ctl.items.pulseWidth)))
                  firings := staged .pullIn }) u
          ∧ u.gateDrive g = .full)
      ∧ (∀ pullEnd pulseEnd, s.gates.drivers[g] = .pullIn tag pullEnd pulseEnd → pullEnd ≤ max s.now t → pullEnd < pulseEnd →
          ∃ u, exec (.pullInEnd t g) s = .next u
            ∧ Tail
                ((advance t s).withGates
                  { s.gates with drivers := s.gates.drivers.set g (.holding tag pulseEnd), firings := staged .holding }) u
            ∧ u.gateDrive g = .duty s.ctl.items.holdDuty)
      ∧ (∀ pullEnd pulseEnd, s.gates.drivers[g] = .pullIn tag pullEnd pulseEnd → pullEnd ≤ max s.now t → pulseEnd ≤ pullEnd →
          ∃ u, exec (.pullInEnd t g) s = .next u
            ∧ Tail
                ((removeTag tag ((advance t s).withGates { s.gates with drivers := s.gates.drivers.set g .idle, firings := left })).withIdx
                  { s.idx with firingReq := s.idx.firingReq && left.any (fun f => f.stage ≠ .waiting) }) u
            ∧ u.gateDrive g = .off ∧ u.gates.firings = left ∧ u.entryOf tag = none)

/-- R130, R12, R35: the end of PULSE_WIDTH, from HOLDING or from PULL_IN: the output goes off and its driver IDLE, the firing leaves the list and the entry the table, and the firing request is cleared when no firing in progress is left. -/
def Obligations.PulseEnds : Prop :=
  ∀ (t : Instant) (g : Fin 16) (tag : BitVec 16) (pulseEnd : Instant) (s : State), s.resetHeld = false → pulseEnd ≤ max s.now t →
    (s.gates.drivers[g] = .holding tag pulseEnd ∨ ∃ pullEnd, s.gates.drivers[g] = .pullIn tag pullEnd pulseEnd) →
    let left := s.gates.firings.filter (fun f => f.tag ≠ tag)
    ∃ u, exec (.pulseEnd t g) s = .next u
      ∧ Tail
          ((removeTag tag ((advance t s).withGates { s.gates with drivers := s.gates.drivers.set g .idle, firings := left })).withIdx
            { s.idx with firingReq := s.idx.firingReq && left.any (fun f => f.stage ≠ .waiting) }) u
      ∧ u.gateDrive g = .off ∧ u.gates.firings = left ∧ u.entryOf tag = none
      ∧ u.table.entries = s.table.entries.filter (fun e => e.tag ≠ tag)

/-! ### Timers -/

/-- R145, R169, R173: what each station state and activity admits to the queue, kind by kind. The hail timer offers a HAIL and starts again; the LISTEN timer takes the station from LISTEN to CONFIG, with a HAIL. One HAIL then stands in a queue that has room. With six frames held the six stay as they are and no HAIL joins them: TXQ_OVERFLOW is set, unless one of them is a HAIL not yet started, beside which no second is queued (one whose claim was lost is not yet started: log entry 42). -/
def Obligations.HailAndListenTimers : Prop :=
  (∀ (f : QFrame) (b : State),
      b.admits f = true
        ↔ match f with
          | .hail => True
          | .status _ => b.ctl.run ≠ .fault ∧ (b.ctl.run ≠ .listen ∨ b.ctl.activity = .muted)
          | .alert => b.ctl.run ≠ .fault ∧ b.ctl.run ≠ .listen ∧ b.ctl.activity ≠ .muted
          | .entry _ | .value _ | .verdict _ _ => SendsUnits b)
  ∧ ∀ (t d : Instant) (s : State), s.resetHeld = false → d ≤ max s.now t →
    let a := advance t s
    let unstarted := match a.link.tx with | some x => if x.won then a.link.queue else a.link.queue.tail | none => a.link.queue
    let full (u : State) : Prop :=
      s.work = Work.empty → 6 ≤ a.link.queue.length →
        u.link.queue = a.link.queue ∧ ((∀ q ∈ unstarted, q.frame ≠ .hail) → flagIn u.alerts.word .txqOverflow = true)
    (s.ctl.hailDue = some d →
        ∃ u, exec (.hailTimerExpiry t) s = .next u ∧ Tail (offerHail a) u
          ∧ u.ctl.hailDue = some (max s.now t + ms 250) ∧ (HasRoom 1 a → ∃ q ∈ u.link.queue, q.frame = .hail) ∧ full u)
      ∧ (s.ctl.run = .listen → s.ctl.listenDue = some d →
          ∃ u, exec (.listenExpiry t) s = .next u
            ∧ Tail (offerHail (a.withCtl { s.ctl with run := .config, listenDue := none })) u
            ∧ u.ctl.run = .config ∧ u.ctl.hailDue = some (max s.now t + ms 250)
            ∧ (HasRoom 1 a → ∃ q ∈ u.link.queue, q.frame = .hail) ∧ full u)

/-- R161, R163, R164, R165, R167, R169, R63, R147: the standby test asks for a row of a lower node that would be the active source of the own role: of that role, PRESENT, in RUN or HALT, ACTIVE. A peer that has been silent for 1000 ms raises PEER_SILENT, and the standby test is made again. A STANDBY station that finds no lower-numbered row qualifying takes over: ACTIVE, TAKEOVER raised, a HAIL offered. An ACTIVE station that finds one goes to STANDBY: its measurement ends without a record, its unit records leave the queue, a HAIL is offered (where its excitation was already off, the instant of the last turn-off stays: log entry 15, DEDUCED). In any other activity, and in FAULT, it stays as it is. The ADC channels stay as they are (log entry 44). The expiry is then taken: until a frame from the node ends the silence, a further PEER_SILENCE has no effect. For the own node, and for a peer never heard or not yet silent, the command has none either. (The realign that the tests may ask for is RealignMovesCount.) -/
def Obligations.PeerSilence : Prop :=
  (∀ b : State, b.lowerQualifies = true ↔ ∃ m : Fin 8, m < b.ctl.node ∧ sourceRow b b.ctl.role m = true)
  ∧ ∀ (t : Instant) (n : Fin 8) (s : State), s.resetHeld = false →
    let a := advance t s
    let b := a.withPeers (s.peers.set n { s.peers[n] with silenceTaken := true })
    ((n = s.ctl.node ∨ (s.peers[n]).heard = false ∨ max s.now t < (s.peers[n]).heardAt + ms 1000
          ∨ (s.peers[n]).silenceTaken = true) →
        ∃ u, exec (.peerSilence t n) s = .next u ∧ Tail a u)
      ∧ (n ≠ s.ctl.node → (s.peers[n]).heard = true → (s.peers[n]).heardAt + ms 1000 ≤ max s.now t → (s.peers[n]).silenceTaken = false →
          b.realignBy = none →
          ∃ u, exec (.peerSilence t n) s = .next u ∧ flagIn u.alerts.word .peerSilent = true
            ∧ (s.ctl.run ≠ .fault → s.ctl.activity = .standby → b.lowerQualifies = false →
                Tail (offerHail ((raise .takeover b).withCtl { s.ctl with activity := .active })) u)
            ∧ (s.ctl.run ≠ .fault → s.ctl.activity = .active → b.lowerQualifies = true →
                Tail (stoodBy b) u ∧ u.ctl.activity = .standby ∧ u.eng.ctx = none
                  ∧ (s.eng.ctx ≠ none → u.idx.measReq = false ∧ u.eng.excitation = .off ∧ u.eng.relays = ⟨none, false, false⟩)
                  ∧ (s.work = Work.empty → ∀ q ∈ u.link.queue, q.frame.isUnit = false))
            ∧ (s.ctl.run = .fault ∨ (s.ctl.activity = .active ∧ b.lowerQualifies = false)
                  ∨ (s.ctl.activity = .standby ∧ b.lowerQualifies = true) ∨ s.ctl.activity = .muted → Tail b u))

/-- R9, R16, R37, R170, R171, R61, R66, R132, R31, R147, R167: a realign, asked for when the station is not in FAULT and REALIGN_ENABLE is on, two rows of standing DOUBT hold the same disagreeing offset, no second value is held so, and no row neither ABSENT nor SILENT agrees with its ahead mark clear. It is reached through any command that updates a row or finds a peer silent: PEER_SILENCE, FRAME_DISCARD and every frame taken from another station, whatever its kind. The tests follow the row; when they ask for a realign, the count moves by the offset, every last offset is unknown and every ahead mark clear, entries out of range leave and the others are in doubt, INDEX_REALIGN is raised, and every WAITING firing whose unit has then passed its gate, one at an ahead position included (log entry 45), is dropped with GATE_MISSED and its entry. The counts captured with a frame in reception and with the own header move by the offset. A running sequence ends: a UNIT measurement with a VALUE of quality DOUBT, a COARSE one with an ENTRY of class CONTACT (queued where no lower-numbered row holds the own role: log entry 18, DESIGN CHOICE), a CHECK without a sample. The entries that stay are in doubt; the record of the sequence then enters the own slot, or gives the class, own stage DONE, and a unit in range without an entry gets one that is not in doubt. The standby test stands before the realign (a station that it takes to STANDBY discards its sequence) and again after it, on rows without offsets and ahead marks: STANDBY where a lower row then qualifies, its unit records out of the queue, else ACTIVE. All this is said of the state that the tests leave; where the frame is a unit record, what it then does in that state is EntryReceived, ValueReceived and VerdictLateAndAhead. -/
def Obligations.RealignMovesCount : Prop :=
  (∀ (d : BitVec 16) (b : State),
      let near (n : Fin 8) : Prop := (b.peers[n]).heard = true ∧ b.now < (b.peers[n]).heardAt + ms 1000
      let disagrees (n : Fin 8) (v : BitVec 16) : Prop :=
        near n ∧ (b.peers[n]).distrusted = false ∧ (b.peers[n]).offset = some { value := v, agrees := false }
      let twice (v : BitVec 16) : Prop := ∃ m n : Fin 8, m ≠ n ∧ disagrees m v ∧ disagrees n v
      b.realignBy = some d
        ↔ b.ctl.run ≠ .fault ∧ b.ctl.items.realignEnable = true ∧ d ≠ 0 ∧ twice d ∧ (∀ v, v ≠ 0 → v ≠ d → ¬twice v)
          ∧ ∀ (n : Fin 8) (o : Offset), near n → (b.peers[n]).ahead = false → (b.peers[n]).offset = some o → o.agrees = false)
  ∧ ∀ (c : Instr) (d : BitVec 16) (s b : State), s.resetHeld = false → s.ctl.run ≠ .fault → rowChanged c s = some b → b.realignBy = some d →
    let dropped (f : Firing) : Bool := f.stage == .waiting && decide (s.ctl.items.gatePos[f.gate] < (s.idx.count + d - f.tag).toNat)
    let w := peerTests b
    ∃ u, exec c s = .next u ∧ u.idx.count = s.idx.count + d ∧ u.idx.lastIndex = s.idx.lastIndex
      ∧ u.eng.ctx = none ∧ (s.eng.ctx ≠ none → u.idx.measReq = false) ∧ flagIn u.alerts.word .indexRealign = true
      ∧ (∀ m : Fin 8, { u.peers[m] with ahead := false } = { b.peers[m] with offset := none, ahead := false })
      ∧ (c.isRecord = false → ∀ m : Fin 8, (u.peers[m]).ahead = false) ∧ u.drift = s.drift ∧ u.pages = s.pages
      ∧ (∀ t n, c = .peerSilence t n →
          let shift (m : Mark) : Mark := { m with captured := m.captured + d }
          (s.link.tx = none → u.link.rx = s.link.rx.map shift)
            ∧ ∀ x, (advance t s).link.tx = some x →
              (u.link.tx = some { x with mark := shift x.mark } ∧ u.link.rx = s.link.rx.map shift)
                ∨ (x.won = false ∧ u.link.tx = none ∧ u.link.rx = some (shift x.mark)))
      ∧ (∀ x, s.eng.ctx = some x → (∀ m : Fin 8, m.val < s.ctl.node.val → (b.peers[m]).role ≠ some s.ctl.role) → SendsUnits s →
          HasRoom 1 (advance c.instant s) →
          (x.kind = .unit → { frame := .value (endedRecord s x .doubt), waiting := 0 } ∈ u.link.queue)
            ∧ (x.kind = .coarse →
                { frame := .entry { tag := x.tag, stamp := x.stamp, cls := .contact, coarse := none }, waiting := 0 } ∈ u.link.queue))
      ∧ ((s.gates.firings.map Firing.tag).Nodup →
          u.gates.firings = s.gates.firings.filter (fun f => !dropped f) ∧ u.gates.drivers = s.gates.drivers
            ∧ u.gates.binTallies = s.gates.binTallies
            ∧ (∀ f ∈ s.gates.firings, dropped f = true → flagIn u.alerts.word .gateMissed = true)
            ∧ (c.isRecord = false → ∀ f ∈ s.gates.firings, dropped f = true → u.entryOf f.tag = none)
            -- the Unit Table as the tests leave it
            ∧ (let inRange (x : BitVec 16) : Bool := w.classify x == .inRange && !s.gates.firings.any (fun f => dropped f && f.tag == x)
              let marked (x : BitVec 16) : Option Entry := if inRange x then (s.entryOf x).map (fun e => { e with doubt := true }) else none
              let ends : Prop := s.ctl.activity ≠ .active ∨ b.lowerQualifies = false
              (s.eng.ctx = none ∨ ¬ends →
                  w.table.entries = (s.table.entries.filter (fun e => inRange e.tag)).map (fun e => { e with doubt := true }))
                ∧ ∀ y, s.eng.ctx = some y → ends →
                  let e := (marked y.tag).getD (Entry.blank y.tag .none)
                  (∀ x, x ≠ y.tag ∨ inRange x = false → w.entryOf x = marked x)
                    ∧ (inRange y.tag = true →
                        (y.kind = .unit → ∀ k, s.role.bind slotOfRole = some k →
                            w.entryOf y.tag = some { e.fillSlot k (((endedRecord s y .doubt).held s.ctl.node).forSlot k) with ownStage := .done })
                          ∧ (y.kind = .coarse → e.cls = none →
                              w.entryOf y.tag
                                = some { e with stamp := some y.stamp, cls := some .contact, coarse := none, assumedPage := false, ownStage := .done })
                          ∧ (y.kind = .coarse → e.cls ≠ none → w.entryOf y.tag = some { e with ownStage := .done })
                          ∧ (y.kind = .check → w.entryOf y.tag = (marked y.tag).map (fun e => { e with ownStage := .done })))))
      -- the standby test made again
      ∧ (let z := b.withPeers (vmap (fun r => { r with offset := none, ahead := false }) b.peers)
        w.ctl.activity = (if s.ctl.activity = .muted then .muted else if z.lowerQualifies then .standby else .active)
          ∧ flagIn w.alerts.word .takeover = (flagIn s.alerts.word .takeover || (s.ctl.activity == .standby && !b.lowerQualifies))
          ∧ (w.ctl.activity ≠ s.ctl.activity → w.ctl.hailDue = some (b.now + ms 250))
          ∧ (c.isRecord = false → s.work = Work.empty → z.lowerQualifies = true →
              s.ctl.activity = .active ∨ (s.ctl.activity = .standby ∧ b.lowerQualifies = false) → ∀ q ∈ u.link.queue, q.frame.isUnit = false))
      ∧ (c.isRecord = false → u.table.entries = w.table.entries ∧ u.ctl.activity = w.ctl.activity)

/-! ### The line -/

/-- R139, R140, R143, R144, R149, R154, R155, R169, R185: the line becomes idle when two cell times have passed since the last cell start (the instant it is held by: log entry 10); an earlier LINE_IDLE has no effect. A deferring station starts its wait, (own node − last sender) modulo 16 cell times long, or own node cell times after a frame that stopped short with its header unread, and a wait of none is over; a station that is not deferring, or whose wait is over, starts the header cell of the head of its queue at once. The frame that starts is laid out cell by cell as the station then stands: count cells with count, state and activity; for a HAIL role, position, cause, current page, page-in-use flags and digests; for an ALERT the alert word, with positions 26 to 32 at 1 (bits that no layout assigns are 0: log entry 24, DEDUCED). -/
def Obligations.LineIdle : Prop :=
  ∀ (t : Instant) (s : State), s.resetHeld = false → s.link.tx = none →
    let a := advance t s
    let sender := if s.link.rx = none then s.link.lastSender else none
    let n : BitVec 4 := match sender with | some m => BitVec.ofNat 4 s.ctl.node.val - m | none => BitVec.ofNat 4 s.ctl.node.val
    let idle (d : Deferral) := a.withLink { s.link with rx := none, lineIdle := true, lastSender := sender, deferral := d }
    let starts (u : State) : Prop :=
      ∀ q rest, s.link.queue = q :: rest →
        ∃ x, u.link.tx = some x ∧ x.won = false ∧ x.mark.startedAt = max s.now t ∧ x.mark.captured = s.idx.count ∧ x.frame = q.frame
          ∧ x.cells = sentCells u q.frame
    (max s.now t < s.link.quietSince + us 12 → ∃ u, exec (.lineIdle t) s = .next u ∧ Tail a u)
      ∧ (s.link.quietSince + us 12 ≤ max s.now t →
          (s.link.deferral = .deferring → n ≠ 0 →
              ∃ u, exec (.lineIdle t) s = .next u ∧ Tail (idle (.waiting (max s.now t + us 6 * n.toNat))) u ∧ u.link.tx = none)
            ∧ (s.link.deferral = .deferring → n = 0 → ∃ u, exec (.lineIdle t) s = .next u ∧ Tail (idle .waitOver) u ∧ starts u)
            ∧ (s.link.deferral = .no → ∃ u, exec (.lineIdle t) s = .next u ∧ Tail (idle .no) u ∧ starts u))

/-- R138, R139, R140, R141, R143, R144, R154, R155, R8, R149, R148: first of all, at every command, a claim that is not lost by the end of its header cell is won: the frame leaves the queue, and goes on being sent; before that end, and with no claim on the line, nothing but the clock moves (log entry 28). The end of a deferral wait lets the head of the queue start, laid out cell by cell as the station then stands (bits that no layout assigns are 0: log entry 24, DEDUCED), as every frame is at its header start; what the station drives onto the line is every cell of the frame with its start mark and parity bit, one cell in each cell time from the header start; the start mark of another node's header on an idle line begins the reception, with the count and the edge window captured, and interrupts a wait; a start mark on a line that is not idle begins none and only delays the idle moment; the own frame, its claim won before or by this very command, is complete at the end of its check cell (log entry 35), whose start is then the last cell start. The edge window is closed at both ends (log entry 8). -/
def Obligations.LineEvents : Prop :=
  ∀ (t : Instant) (s : State), s.resetHeld = false →
    let a := advance t s
    (∀ x, s.link.tx = some x → x.won = false → x.mark.startedAt + us 6 ≤ max s.now t →
        a = (s.withNow (max s.now t)).withLink { s.link with tx := some { x with won := true }, queue := s.link.queue.tail })
      ∧ ((∀ x, s.link.tx = some x → x.won = true ∨ max s.now t < x.mark.startedAt + us 6) → a = s.withNow (max s.now t))
      ∧ (∀ due, s.link.tx = none → s.link.rx = none → s.link.lineIdle = true → s.link.deferral = .waiting due → due ≤ max s.now t →
        ∃ u, exec (.deferralWaitExpiry t) s = .next u ∧ Tail (a.withLink { s.link with deferral := .waitOver }) u
          ∧ (∀ q rest, s.link.queue = q :: rest →
              ∃ x, u.link.tx = some x ∧ x.won = false ∧ x.mark.startedAt = max s.now t ∧ x.mark.captured = s.idx.count ∧ x.frame = q.frame
                ∧ x.cells = sentCells u q.frame))
      ∧ (∀ (b : State) (f : QFrame), b.cellsOf f = sentCells b f)
      ∧ (∀ b : State, b.resetHeld = true ∨ b.link.tx = none → b.lineOut = none ∧ b.cellOut = none)
      ∧ (∀ (b : State) (x : Tx), b.resetHeld = false → b.link.tx = some x →
          b.lineOut = some (x.cells.map lineCell)
            ∧ (∀ (k : Nat) (c : Cell), x.cells[k]? = some c → x.mark.startedAt + us 6 * k ≤ b.now → b.now < x.mark.startedAt + us 6 * (k + 1) →
                b.cellOut = some (lineCell c))
            ∧ (x.mark.startedAt + us 6 * x.cells.length ≤ b.now → b.cellOut = none))
      ∧ (s.link.tx = none → s.link.lineIdle = true →
          ∃ u, exec (.frameStart t) s = .next u
            ∧ Tail
                (a.withLink
                  { s.link with
                    rx := some
                      { startedAt := max s.now t, captured := s.idx.count,
                        edgeNear := s.idx.lastIndex.any (fun e => decide (max s.now t ≤ e + us 6)) }
                    lineIdle := false
                    quietSince := max s.now t
                    deferral := if s.link.deferral = .no then .no else .deferring }) u)
      ∧ (s.link.lineIdle = false →
          ∃ u, exec (.frameStart t) s = .next u ∧ Tail (a.withLink { a.link with quietSince := max s.now t }) u)
      ∧ (∀ x, s.link.tx = some x → x.won = true ∨ x.mark.startedAt + us 6 ≤ max s.now t →
          (x.mark.startedAt + us 6 * x.cells.length ≤ max s.now t →
              ∃ u, exec (.frameSent t) s = .next u
                ∧ Tail
                    (a.withLink
                      { a.link with tx := none, quietSince := max s.link.quietSince (x.mark.startedAt + us 6 * (x.cells.length - 1)) }) u)
            ∧ (max s.now t < x.mark.startedAt + us 6 * x.cells.length → ∃ u, exec (.frameSent t) s = .next u ∧ Tail a u))
      ∧ ((∀ x, s.link.tx = some x → x.won = false ∧ max s.now t < x.mark.startedAt + us 6) →
          ∃ u, exec (.frameSent t) s = .next u ∧ Tail a u)

/-- R141, R142, R148, R149, R174: a claim lost in the header cell keeps the frame at the head of the queue and defers; a collision in the header cell loses the frame. At the end of the header cell the claim is won, if need be by this very command, and the frame has left the queue: a claim can no longer be lost, and a collision is a duplicate-node report. Each time the station stops driving and receives on from its own start mark; the last cell it started counts for the idle moment (log entry 10). Without a frame of its own on the line neither has an effect. The header cell ends one cell time after its start (log entry 28). -/
def Obligations.ClaimLostAndCollision : Prop :=
  ∀ (t : Instant) (s : State), s.resetHeld = false →
    let a := advance t s
    (s.link.tx = none →
        (∃ u, exec (.claimLost t) s = .next u ∧ Tail a u) ∧ ∃ u, exec (.collision t) s = .next u ∧ Tail a u)
      ∧ ∀ x : Tx, s.link.tx = some x →
        (x.won = false → max s.now t < x.mark.startedAt + us 6 →
            (∃ u, exec (.claimLost t) s = .next u
                ∧ Tail (a.withLink { s.link with tx := none, rx := some x.mark, lineIdle := false, deferral := .deferring }) u)
              ∧ ∃ u, exec (.collision t) s = .next u
                ∧ Tail
                    (a.withLink
                      { s.link with
                        tx := none, rx := some x.mark, lineIdle := false, quietSince := max s.link.quietSince x.mark.startedAt
                        queue := s.link.queue.tail }) u)
          ∧ (x.won = true ∨ x.mark.startedAt + us 6 ≤ max s.now t →
              let cell := x.mark.startedAt + us 6 * min (x.cells.length - 1) ((max s.now t - x.mark.startedAt) / us 6)
              let b := a.withLink
                { s.link with
                  tx := none, rx := some x.mark, lineIdle := false, quietSince := max s.link.quietSince cell
                  queue := if x.won then s.link.queue else s.link.queue.tail }
              (∃ u, exec (.claimLost t) s = .next u ∧ Tail a u)
                ∧ (s.ctl.run = .config ∨ s.ctl.run = .ready ∨ s.ctl.run = .run ∨ s.ctl.run = .halt →
                    ∃ u, exec (.collision t) s = .next u ∧ Tail (raise .dupNode b) u)
                ∧ (s.ctl.run = .listen →
                    ∃ u, exec (.collision t) s = .next u ∧ u.ctl.run = .fault ∧ u.ctl.faultReason = some .dupNode
                      ∧ flagIn u.alerts.word .dupNode = true ∧ u.assertsAlert = true ∧ u.ctl.hailDue = none ∧ u.ctl.listenDue = none
                      ∧ u.eng.ctx = none ∧ u.gates.firings = [] ∧ u.link.queue = [{ frame := .hail, waiting := 0 }])
                ∧ (s.ctl.run = .fault → ∃ u, exec (.collision t) s = .next u ∧ Tail b u))

/-- R143, R150, R160, R167: the frame in reception is discarded. It ends on the line and changes nothing else, but that a readable header of another station counts in its row: the error score goes up by one, to at most 15, and from 8 the row is distrusted; the standby test is then made, with the takeover or the entry to STANDBY it may ask for (there, with the excitation already off, the instant of the last turn-off stays: log entry 15, DEDUCED, and the ADC channels stay as they are: log entry 44, DEDUCED; a realign is RealignMovesCount). With no frame in reception there is nothing to discard. The cell start that the end of a frame leaves for the idle moment is log entry 10. -/
def Obligations.FrameDiscard : Prop :=
  ∀ (t : Instant) (s : State), s.resetHeld = false →
    (∀ sender : Option (BitVec 4), s.link.rx = none → ∃ u, exec (.frameDiscard t sender) s = .next u ∧ Tail (advance t s) u)
      ∧ (∀ sender : Option (BitVec 4), s.link.rx.isSome = true → (∀ m, sender = some m → m = BitVec.ofNat 4 s.ctl.node.val ∨ 8 ≤ m.toNat) →
          ∃ u, exec (.frameDiscard t sender) s = .next u ∧ Tail (endFrame sender (advance t s)) u)
      ∧ (∀ (m : Fin 8), s.link.rx.isSome = true → m ≠ s.ctl.node →
          let b := endFrame (some (BitVec.ofNat 4 m.val)) (advance t s)
          let row := s.peers[m]
          let score : BitVec 4 := if row.errorScore = 15 then 15 else row.errorScore + 1
          let after :=
            b.withPeers (s.peers.set m { row with errorScore := score, distrusted := row.distrusted || decide (8 ≤ score.toNat) })
          after.realignBy = none →
          ∃ u, exec (.frameDiscard t (some (BitVec.ofNat 4 m.val))) s = .next u ∧ Tail (tested after) u)

/-! ### Station frames taken -/

/-- R159, R151, R167, R185: a HAIL, an ALERT and a STATUS taken from another station update its row (heard, silence timer, state, activity, score, offset, ahead mark; a HAIL also role, position, cause and digests), the standby test is made, with the takeover or the entry to STANDBY it may ask for, and nothing else: the word of an ALERT frame sets no flag. At an entry to STANDBY with the excitation already off the instant of the last turn-off stays (log entry 15, DEDUCED), and the ADC channels stay as they are (log entry 44, DEDUCED); a realign is RealignMovesCount. A unit record from that station finds the same row and the same tests before its content is looked at. The cell start that the end of a frame leaves for the idle moment is log entry 10. That a silence which no PEER_SILENCE has reported raises nothing when the frame ends it is log entry 13. -/
def Obligations.StationFrameHeard : Prop :=
  ∀ (t : Instant) (h : FrameHead) (n : Fin 8) (m : Mark) (s : State), s.resetHeld = false → s.link.rx = some m →
    h.sender = BitVec.ofNat 4 n.val → n ≠ s.ctl.node →
    let row := s.peers[n]
    let score : BitVec 4 := if row.errorScore = 0 then 0 else row.errorScore - 1
    let off := h.count - m.captured
    let row' : PeerRow :=
      { row with
        heard := true, heardAt := max s.now t, silenceTaken := false, errorScore := score, distrusted := row.distrusted && score != 0, state := h.state,
        activity := h.activity, ahead := false
        offset := some { value := off, agrees := off == 0 || ((off == 1 || off == 65535) && m.edgeNear) } }
    let b := endFrame (some h.sender) (advance t s)
    let after := b.withPeers (s.peers.set n row')
    (after.realignBy = none →
        (∀ body : List Cell, ∃ u, exec (.statusReceived t h body) s = .next u ∧ Tail (tested after) u)
          ∧ (∀ word : BitVec 32, ∃ u, exec (.alertFrameReceived t h word) s = .next u ∧ Tail (tested after) u))
      ∧ (∀ body : HailBody,
          let hail : PeerRow :=
            { row' with
              role := some body.role, position := body.position, cause := body.cause
              digests := #v[body.digest0, body.digest1, body.digest2, body.digest3] }
          (b.withPeers (s.peers.set n hail)).realignBy = none →
            ∃ u, exec (.hailReceived t h body) s = .next u ∧ Tail (tested (b.withPeers (s.peers.set n hail))) u)
      ∧ rowHeard t n h none m s = after ∧ (after.realignBy = none → heardState t n h m s = refreshLevels (tested after))

/-- R20, R22, R25, R31, R151, R154, R165, R166: the active source of a role is the lowest row that is of that role, PRESENT, in RUN or HALT, and ACTIVE. An ENTRY taken from another station updates its row, and the tests follow. Of a defined class, from the active source of PROBE and in range, it creates the entry of a tag that has none, fills one without class, and is ignored on one that has a class. In FAULT, from a sender that is not PROBE or not the active source, and with an undefined class it changes nothing more. The coarse value is taken as carried (log entry 30). The tests rest on log entries 15, 18 and 44 where they end a measurement, and the cell start that the end of a frame leaves for the idle moment is log entry 10. That a silence which no PEER_SILENCE has reported raises nothing when the frame ends it is log entry 13. -/
def Obligations.EntryReceived : Prop :=
  (∀ (b : State) (r : BitVec 3) (k : Fin 8), b.activeSource r = some k ↔ sourceRow b r k = true ∧ ∀ m : Fin 8, m < k → sourceRow b r m = false)
  ∧ ∀ (t : Instant) (h : FrameHead) (body : EntryBody) (n : Fin 8) (m : Mark) (s : State), s.resetHeld = false → s.link.rx = some m →
    h.sender = BitVec.ofNat 4 n.val → n ≠ s.ctl.node →
    let a := heardState t n h m s
    let stamp : PageStamp := { page := pageOfBits body.page, digest := body.digest }
    ∃ u, exec (.entryReceived t h body) s = .next u
      ∧ (s.ctl.run = .fault ∨ (s.peers[n]).role ≠ some 0 ∨ a.activeSource 0 ≠ some n ∨ 5 ≤ body.cls.toNat → Tail a u)
      ∧ (∀ cls : EntryClass, body.cls = cls.code → (s.peers[n]).role = some 0 → a.activeSource 0 = some n → s.ctl.run ≠ .fault →
          a.classify body.tag = .inRange →
          (a.entryOf body.tag = none →
              Tail (addEntry { Entry.blank body.tag .none with stamp := some stamp, cls := some cls, coarse := body.coarse } a) u
                ∧ u.entryOf body.tag
                    = some
                        { tag := body.tag, stamp := some stamp, cls := some cls, coarse := body.coarse, cold := none, retest := none
                          hot := none, assumedPage := false, doubt := false, verdict := none, ownStage := .none })
            ∧ (∀ e, a.entryOf body.tag = some e → e.cls = none →
                Tail
                    (modifyEntry body.tag
                      (fun e => { e with stamp := some stamp, cls := some cls, coarse := body.coarse, assumedPage := false }) a) u)
            ∧ (∀ e, a.entryOf body.tag = some e → e.cls ≠ none → Tail a u))

/-- R20, R22, R26, R32, R151, R166: a VALUE taken from another station updates its row, and the tests follow. Of a defined quality, with a deviation exactly when it is GOOD, from the active source of a measuring role and in range, it creates an entry or fills the empty slot of its role, and is ignored when the slot holds a record. In FAULT, from a sender of another role or not the active source, with an undefined quality, and in range with a deviation that does not fit its quality it changes nothing more. Outside the hot slot no TCR is held (log entry 17). The tests rest on log entries 15, 18 and 44 where they end a measurement, and the cell start that the end of a frame leaves for the idle moment is log entry 10. That a silence which no PEER_SILENCE has reported raises nothing when the frame ends it is log entry 13. -/
def Obligations.ValueReceived : Prop :=
  ∀ (t : Instant) (h : FrameHead) (body : ValueBody) (n : Fin 8) (m : Mark) (s : State), s.resetHeld = false → s.link.rx = some m →
    h.sender = BitVec.ofNat 4 n.val → n ≠ s.ctl.node →
    let a := heardState t n h m s
    ∃ u, exec (.valueReceived t h body) s = .next u
      ∧ (s.ctl.run = .fault ∨ 9 ≤ body.quality.toNat ∨ (∀ r, (s.peers[n]).role = some r → r.toNat = 0 ∨ 4 ≤ r.toNat ∨ a.activeSource r ≠ some n) →
          Tail a u)
      ∧ (a.classify body.tag = .inRange → ¬(body.deviation.isSome = true ↔ body.quality = 0) → Tail a u)
      ∧ (∀ (q : Quality) (r : Role) (k : Slot), body.quality = q.code → (body.deviation.isSome = true ↔ q = .good) →
          ((r = .precise ∧ k = .cold) ∨ (r = .retest ∧ k = .retest) ∨ (r = .thermal ∧ k = .hot)) →
          (s.peers[n]).role = some r.code → a.activeSource r.code = some n → s.ctl.run ≠ .fault → a.classify body.tag = .inRange →
          let held : HeldValue :=
            { source := n, quality := q, deviation := body.deviation, temperature := body.temperature
              flags := if k = .hot then body.flags else { body.flags with tcrAbsent := false }
              tcr := if k = .hot then body.tcr else none }
          let put (e : Entry) : Entry :=
            match k with
            | .cold => { e with cold := some held }
            | .retest => { e with retest := some held }
            | .hot => { e with hot := some held }
          (a.entryOf body.tag = none →
              Tail (addEntry (put (Entry.blank body.tag .none)) a) u ∧ u.entryOf body.tag = some (put (Entry.blank body.tag .none)))
            ∧ ((a.entryOf body.tag).isSome = true →
                Tail (modifyEntry body.tag (fun e => if (e.slot k).isSome then e else put e) a) u))

/-- R6, R22, R23, R24, R151, R162, R166: a tag is ahead from position 32768 on, in range up to the retire limit, and late otherwise. A VERDICT taken from another station changes nothing in the table, whatever its class, and one that is not from the active source of SORT, that has reason 0 or 15, or that is taken in FAULT is discarded. A record that is not in range: a late ENTRY or VALUE raises UNIT_LATE on a SORT station with a retire limit and nothing elsewhere, and any record ahead sets the ahead mark of its sender's row, after which the tests are made again, the standby test before the realign test (log entry 40, DESIGN CHOICE). A late or ahead VALUE does so whether or not its deviation fits its quality (log entry 16, DEDUCED). The tests rest on log entries 15, 18 and 44 where they end a measurement, and the cell start that the end of a frame leaves for the idle moment is log entry 10. That a silence which no PEER_SILENCE has reported raises nothing when the frame ends it is log entry 13. -/
def Obligations.VerdictLateAndAhead : Prop :=
  (∀ (b : State) (x : BitVec 16),
      let pos := (b.idx.count - x).toNat
      let inRange : Prop := ∃ r, b.idx.retireLimit = some r ∧ pos ≤ r
      (b.classify x = .ahead ↔ 32768 ≤ pos) ∧ (b.classify x = .inRange ↔ pos < 32768 ∧ inRange) ∧ (b.classify x = .late ↔ pos < 32768 ∧ ¬inRange))
  ∧ ∀ (t : Instant) (h : FrameHead) (n : Fin 8) (m : Mark) (s : State), s.resetHeld = false → s.link.rx = some m →
    h.sender = BitVec.ofNat 4 n.val → n ≠ s.ctl.node →
    let a := heardState t n h m s
    let marked := peerTests (a.withPeers (a.peers.set n { a.peers[n] with ahead := true }))
    let lateIsTold : Prop := roleOfCode s.ctl.role = some .sort ∧ s.idx.retireLimit.isSome = true
    (∀ b : VerdictBody,
        ∃ u, exec (.verdictReceived t h b) s = .next u
          ∧ (s.ctl.run = .fault ∨ (s.peers[n]).role ≠ some 4 ∨ a.activeSource 4 ≠ some n ∨ b.reason = 0 ∨ b.reason = 15 → Tail a u)
          ∧ (a.classify b.tag ≠ .ahead → Tail a u)
          ∧ (s.ctl.run ≠ .fault → (s.peers[n]).role = some 4 → a.activeSource 4 = some n → b.reason ≠ 0 → b.reason ≠ 15 →
              a.classify b.tag = .ahead → Tail marked u))
      ∧ (s.ctl.run ≠ .fault →
          (∀ (b : EntryBody) (cls : EntryClass), (s.peers[n]).role = some 0 → a.activeSource 0 = some n → b.cls = cls.code →
              ∃ u, exec (.entryReceived t h b) s = .next u
                ∧ (a.classify b.tag = .late → lateIsTold → Tail (raise .unitLate a) u)
                ∧ (a.classify b.tag = .late → ¬lateIsTold → Tail a u)
                ∧ (a.classify b.tag = .ahead → Tail marked u))
            ∧ (∀ (b : ValueBody) (q : Quality) (r : Role), (r = .precise ∨ r = .retest ∨ r = .thermal) → (s.peers[n]).role = some r.code →
                a.activeSource r.code = some n → b.quality = q.code →
                ∃ u, exec (.valueReceived t h b) s = .next u
                  ∧ (a.classify b.tag = .late → lateIsTold → Tail (raise .unitLate a) u)
                  ∧ (a.classify b.tag = .late → ¬lateIsTold → Tail a u)
                  ∧ (a.classify b.tag = .ahead → Tail marked u)))

/-- R152, R174, R180, R147: a frame taken under the station's own node, of every kind, is a duplicate-node report and nothing else: DUP_NODE in CONFIG, READY, RUN and HALT, nothing in FAULT, and in LISTEN the entry to FAULT, with DUP_NODE raised, the hail and LISTEN timers stopped and the one HAIL of FAULT alone in the queue. That the entries stay at that entry to FAULT is log entry 19, DEDUCED. The cell start that the end of a frame leaves for the idle moment is log entry 10. -/
def Obligations.OwnNodeFrame : Prop :=
  ∀ (c : Instr) (h : FrameHead) (s : State), s.resetHeld = false → s.link.rx.isSome = true → c.frameHead = some h →
    h.sender = BitVec.ofNat 4 s.ctl.node.val →
    let b := endFrame (some h.sender) (advance c.instant s)
    (s.ctl.run ≠ .listen → s.ctl.run ≠ .fault → ∃ u, exec c s = .next u ∧ Tail (raise .dupNode b) u)
      ∧ (s.ctl.run = .fault → ∃ u, exec c s = .next u ∧ Tail b u)
      ∧ (s.ctl.run = .listen →
          ∃ u, exec c s = .next u ∧ u.ctl = { s.ctl with run := .fault, faultReason := some .dupNode, listenDue := none, hailDue := none }
            ∧ u.assertsAlert = true ∧ u.pullsHold = false ∧ u.link.queue = [{ frame := .hail, waiting := 0 }]
            ∧ (∀ f : AlertFlag, f ≠ .dupNode → flagIn u.alerts.word f = (flagIn s.alerts.word f || b.levelStands f))
            ∧ flagIn u.alerts.word .dupNode = true ∧ u.alerts.mask = s.alerts.mask ∧ u.alerts.master = s.alerts.master
            ∧ u.idx = { s.idx with measReq := false, firingReq := false } ∧ u.eng.ctx = none ∧ u.gates.firings = []
            ∧ u.gates.drivers = Vector.replicate 16 .idle ∧ u.gates.binTallies = s.gates.binTallies
            ∧ u.gates.reasonTallies = s.gates.reasonTallies ∧ u.table = s.table ∧ u.peers = s.peers ∧ u.pages = s.pages ∧ u.drift = s.drift)

/-! ### Console frames -/

/-- R149, R151: frames that go no further. A frame is obeyed when a console node sends it to this station or to all. A console frame that a console node sends to another station, and a station kind sent by a console node, end the frame on the line and do nothing else; a console kind sent by another station's node updates that station's row, the standby test is made, and nothing else (at an entry to STANDBY with the excitation already off the instant of the last turn-off stays: log entry 15, DEDUCED, and the ADC channels stay as they are: log entry 44, DEDUCED; a realign is RealignMovesCount); and a frame of any kind on a line where no frame was begun is ignored. The cell start that the end of a frame leaves for the idle moment is log entry 10. That a silence which no PEER_SILENCE has reported raises nothing when the frame ends it is log entry 13. -/
def Obligations.UnaddressedConsole : Prop :=
  ∀ (c : Instr) (s : State), s.resetHeld = false →
    (∀ h, s.link.rx.isSome = true → c.consoleHead = some h → 8 ≤ h.frame.sender.toNat → h.target ≠ BitVec.ofNat 4 s.ctl.node.val →
        h.target ≠ 15 → ∃ u, exec c s = .next u ∧ Tail (endFrame (some h.frame.sender) (advance c.instant s)) u)
      ∧ (∀ h, s.link.rx.isSome = true → c.frameHead = some h → c.consoleHead = none → 8 ≤ h.sender.toNat →
          ∃ u, exec c s = .next u ∧ Tail (endFrame (some h.sender) (advance c.instant s)) u)
      ∧ (∀ (h : ConsoleHead) (n : Fin 8) (m : Mark), s.link.rx = some m → c.consoleHead = some h → h.frame.sender = BitVec.ofNat 4 n.val →
          n ≠ s.ctl.node →
          let b := endFrame (some h.frame.sender) (advance c.instant s)
          let after := b.withPeers (s.peers.set n (heardRow (max s.now c.instant) h.frame none m s.peers[n]))
          after.realignBy = none → ∃ u, exec c s = .next u ∧ Tail (tested after) u)
      ∧ (s.link.rx = none → c.frameHead ≠ none → ∃ u, exec c s = .next u ∧ Tail (advance c.instant s) u)
      ∧ (∀ h : ConsoleHead, s.addressed h = true ↔ 8 ≤ h.frame.sender.toNat ∧ (h.target = BitVec.ofNat 4 s.ctl.node.val ∨ h.target = 15))

/-- R169, R177, R178: RUN, HALT and DRAIN by station state, role and drain mark; a change of the state code offers a HAIL, which starts the hail timer again. The undefined mode is refused in CONFIG, READY, RUN and HALT and ignored in LISTEN and FAULT. (Mode 3 comes as HALT: log entry 14.) The cell start that the end of a frame leaves for the idle moment is log entry 10. -/
def Obligations.RunHaltDrain : Prop :=
  ∀ (t : Instant) (h : ConsoleHead) (s : State), s.resetHeld = false → s.link.rx.isSome = true → s.addressed h = true →
    let a := consoleState t h s
    let moved (st : StationState) (drain : Bool) := offerHail (a.withCtl { s.ctl with run := st, drain := drain })
    let refused (f : AlertFlag) := raise f a
    -- RUN
    (∃ u, exec (.run t h) s = .next u
        ∧ (s.ctl.run = .listen ∨ s.ctl.run = .fault ∨ (s.ctl.run = .run ∧ s.ctl.drain = false) → Tail a u)
        ∧ (s.ctl.run = .config ∨ ((s.ctl.run = .ready ∨ s.ctl.run = .halt) ∧ ∀ p : Fin 4, (s.pages[p]).state ≠ .locked) →
            Tail (refused .runRefused) u)
        ∧ ((s.ctl.run = .ready ∨ s.ctl.run = .halt) → (∃ p : Fin 4, (s.pages[p]).state = .locked) → Tail (moved .run false) u)
        ∧ (s.ctl.run = .run → s.ctl.drain = true → Tail (moved .run false) u))
      -- HALT
      ∧ (∃ u, exec (.halt t h .halt) s = .next u
        ∧ (s.ctl.run = .listen ∨ s.ctl.run = .fault ∨ s.ctl.run = .halt → Tail a u)
        ∧ (s.ctl.run = .config ∨ s.ctl.run = .ready → Tail (refused .consoleError) u)
        ∧ (s.ctl.run = .run → Tail (moved .halt false) u))
      ∧ (∃ u, exec (.halt t h .undefinedMode) s = .next u
        ∧ (s.ctl.run = .listen ∨ s.ctl.run = .fault → Tail a u)
        ∧ (s.ctl.run ≠ .listen → s.ctl.run ≠ .fault → Tail (refused .consoleError) u))
      -- DRAIN
      ∧ (∃ u, exec (.drain t h) s = .next u
        ∧ (s.ctl.run = .listen ∨ s.ctl.run = .fault ∨ s.ctl.run = .halt → Tail a u)
        ∧ (s.ctl.run = .config ∨ s.ctl.run = .ready → Tail (refused .consoleError) u)
        ∧ (s.ctl.run = .run → (roleOfCode s.ctl.role = some .probe ∨ roleOfCode s.ctl.role = some .sort) → Tail (moved .halt false) u)
        ∧ (s.ctl.run = .run → s.ctl.drain = false →
            (roleOfCode s.ctl.role = some .precise ∨ roleOfCode s.ctl.role = some .retest ∨ roleOfCode s.ctl.role = some .thermal) →
            Tail (moved .run true) u))

/-- R175: SETUP of an item other than POSITION, GATE_POS and DONE: in CONFIG the item takes its clamped value (an unsigned one brought within its limits, a negative value, −0 too, at the lower; a signed one within ±500,000) (an item of the SORT gates group only on a SORT station, and is set aside elsewhere), an identifier not listed is refused; READY, RUN and HALT refuse, whatever the role (log entry 21), LISTEN and FAULT ignore. The cell start that the end of a frame leaves for the idle moment is log entry 10. -/
def Obligations.SetupItems : Prop :=
  ∀ (t : Instant) (h : ConsoleHead) (item : BitVec 8) (v : Dev) (s : State), s.resetHeld = false → s.link.rx.isSome = true → s.addressed h = true →
    plainSetupItem item = true →
    let a := consoleState t h s
    let unsigned (lo hi : Nat) : Nat := if v.neg then lo else max lo (min hi v.mag.toNat)
    let signed : Dev := ⟨v.neg, BitVec.ofNat 23 (min 500000 v.mag.toNat)⟩
    let sortOnly := 35 ≤ item.toNat ∧ item.toNat ≤ 39
    ∃ u, exec (.setup t h item v) s = .next u
      ∧ (s.ctl.run = .listen ∨ s.ctl.run = .fault → Tail a u)
      ∧ (s.ctl.run = .ready ∨ s.ctl.run = .run ∨ s.ctl.run = .halt → Tail (raise .consoleError a) u)
      ∧ (s.ctl.run = .config → sortOnly → roleOfCode s.ctl.role ≠ some .sort → Tail a u)
      ∧ (s.ctl.run = .config → (item = 0 ∨ 40 ≤ item.toNat) → Tail (raise .consoleError a) u)
      ∧ (s.ctl.run = .config → (sortOnly → roleOfCode s.ctl.role = some .sort) →
          let items (x : Items) := a.withCtl { s.ctl with items := x }
          let i := s.ctl.items
          (∀ k : Fin 4, item.toNat = k.val + 2 → Tail (items { i with stdCert := i.stdCert.set k signed }) u)
            ∧ (item = 6 → Tail (items { i with channelTrim := signed }) u)
            ∧ (item = 7 → Tail (items { i with settle := unsigned 1 255 }) u)
            ∧ (item = 8 → Tail (items { i with gap := unsigned 1 255 }) u)
            ∧ (item = 9 → Tail (items { i with measLimit := unsigned 1 255 }) u)
            ∧ (item = 10 → Tail (items { i with osr := unsigned 0 5 }) u)
            ∧ (item = 11 → Tail (items { i with phaseAvg := unsigned 1 16 }) u)
            ∧ (item = 12 → Tail (items { i with discard := unsigned 0 3 }) u)
            ∧ (item = 13 → Tail (items { i with contactLimit := unsigned 1 255 }) u)
            ∧ (item = 14 → Tail (items { i with offsetLimit := unsigned 0 4095 }) u)
            ∧ (item = 15 → Tail (items { i with minStd := unsigned 1 4095 }) u)
            ∧ (item = 16 → Tail (items { i with driftLimit := unsigned 0 500000 }) u)
            ∧ (item = 17 → Tail (items { i with realignEnable := unsigned 0 1 == 1 }) u)
            ∧ (item = 18 → Tail (items { i with broadcastAlerts := unsigned 0 1 == 1 }) u)
            ∧ (item = 35 → Tail (items { i with fireDelay := unsigned 0 255 }) u)
            ∧ (item = 36 → Tail (items { i with pullIn := unsigned 1 255 }) u)
            ∧ (item = 37 → Tail (items { i with pulseWidth := unsigned 1 255 }) u)
            ∧ (item = 38 → Tail (items { i with holdDuty := unsigned 0 255 }) u)
            ∧ (item = 39 → Tail (items { i with fallbackGate := some (Fin.ofNat 17 (unsigned 0 16)) }) u))

/-- R4, R5, R175, R176: POSITION, GATE_POS and DONE. In CONFIG POSITION and GATE_POS take their clamped value (a GATE_POS of 0 stays 0, −0 too by log entry 20; any other is brought within POSITION + 1, or 1 while POSITION is absent, to 31, a negative one to the lower limit; on a station that is not SORT it is set aside), the retire limit follows (POSITION, or on a SORT station the greatest of POSITION and the GATE_POS items), and the entries beyond it leave; DONE leads to READY when the held configuration is valid for the role, and else raises CONFIG_INCOMPLETE. In READY, RUN and HALT the three are refused with CONSOLE_ERROR, GATE_POS whatever the role (log entry 21, DEDUCED), in LISTEN and FAULT they are ignored. The cell start that the end of a frame leaves for the idle moment is log entry 10. -/
def Obligations.SetupLimitsAndDone : Prop :=
  ∀ (t : Instant) (h : ConsoleHead) (v : Dev) (s : State), s.resetHeld = false → s.link.rx.isSome = true → s.addressed h = true →
    let a := consoleState t h s
    let p : Nat := if v.neg then 1 else max 1 (min 31 v.mag.toNat)
    let turnedAway (u : State) : Prop :=
      (s.ctl.run = .listen ∨ s.ctl.run = .fault → Tail a u)
        ∧ (s.ctl.run = .ready ∨ s.ctl.run = .run ∨ s.ctl.run = .halt → Tail (raise .consoleError a) u)
    (∃ u, exec (.setupPosition t h v) s = .next u ∧ turnedAway u
        ∧ (s.ctl.run = .config →
            Tail (recomputeRetire (a.withCtl { s.ctl with items := { s.ctl.items with position := some p } })) u
              ∧ (roleOfCode s.ctl.role ≠ some .sort → u.idx.retireLimit = some p)
              ∧ (roleOfCode s.ctl.role = some .sort →
                  ∃ r, u.idx.retireLimit = some r ∧ p ≤ r ∧ (∀ g : Fin 16, s.ctl.items.gatePos[g] ≤ r)
                    ∧ (r = p ∨ ∃ g : Fin 16, s.ctl.items.gatePos[g] = r))
              ∧ (∀ r, u.idx.retireLimit = some r → u.table.entries = s.table.entries.filter (fun e => decide (u.posOf e.tag ≤ r)))))
      ∧ (∀ g : Fin 16,
          ∃ u, exec (.setupGatePos t h g v) s = .next u ∧ turnedAway u
            ∧ (s.ctl.run = .config → roleOfCode s.ctl.role ≠ some .sort → Tail a u)
            ∧ (s.ctl.run = .config → roleOfCode s.ctl.role = some .sort →
                let low := match s.ctl.items.position with | some q => q + 1 | none => 1
                let held : Nat := if v.mag = 0 then 0 else if v.neg then min 31 low else min 31 (max low v.mag.toNat)
                Tail
                    (recomputeRetire
                      (a.withCtl { s.ctl with items := { s.ctl.items with gatePos := s.ctl.items.gatePos.set g held } })) u
                  ∧ (s.ctl.items.position = none → u.idx.retireLimit = none ∧ u.table.entries = s.table.entries)
                  ∧ (∀ q, s.ctl.items.position = some q →
                      ∃ r, u.idx.retireLimit = some r ∧ q ≤ r ∧ held ≤ r ∧ (∀ k : Fin 16, k ≠ g → s.ctl.items.gatePos[k] ≤ r)
                        ∧ (r = q ∨ r = held ∨ ∃ k : Fin 16, k ≠ g ∧ s.ctl.items.gatePos[k] = r)
                        ∧ u.table.entries = s.table.entries.filter (fun e => decide (u.posOf e.tag ≤ r)))))
      ∧ (let valid :=
            ∃ q, s.ctl.items.position = some q
              ∧ (roleOfCode s.ctl.role = some .sort →
                  (∃ g : Fin 16, s.ctl.items.gatePos[g] ≠ 0) ∧ (∀ g : Fin 16, s.ctl.items.gatePos[g] ≠ 0 → q < s.ctl.items.gatePos[g])
                    ∧ s.ctl.items.fallbackGate ≠ none)
          ∃ u, exec (.done t h v) s = .next u ∧ turnedAway u
            ∧ (s.ctl.run = .config → valid → Tail (offerHail (a.withCtl { s.ctl with run := .ready })) u)
            ∧ (s.ctl.run = .config → ¬valid → Tail (raise .configIncomplete a) u))

/-- R102, R103, R104, R105: LOAD. In CONFIG, READY, RUN and HALT, on a page 0 to 3 that is not LOCKED, a parameter takes its clamped value (within its limits; a negative value of an unsigned one, −0 too, at the lower), a bin is written or replaced at its index with its window and clamped gate, every other bin staying as it was and in its order, a bin without limit fields is removed, and the page is LOADING; a LOCKED page, an undefined parameter, bin index 0 or above 16, exactly one TCR limit and a page above 3 are refused with CONSOLE_ERROR. In LISTEN and FAULT a LOAD is ignored. The cell start that the end of a frame leaves for the idle moment is log entry 10. -/
def Obligations.LoadPage : Prop :=
  ∀ (t : Instant) (h : ConsoleHead) (page : BitVec 4) (s : State), s.resetHeld = false → s.link.rx.isSome = true → s.addressed h = true →
    let a := consoleState t h s
    let refused := raise .consoleError a
    let unsigned (v : Dev) (lo hi : Nat) : Nat := if v.neg then lo else max lo (min hi v.mag.toNat)
    let pageIs (p : Fin 4) (x : Page) := a.withPages (s.pages.set p { x with state := .loading })
    (s.ctl.run = .listen ∨ s.ctl.run = .fault →
        (∀ field v, ∃ u, exec (.loadParameter t h page field v) s = .next u ∧ Tail a u)
          ∧ (∀ bin lower upper gate capacity lo hi,
              ∃ u, exec (.loadBin t h page bin lower upper gate capacity lo hi) s = .next u ∧ Tail a u)
          ∧ (∀ bin, ∃ u, exec (.loadBinRemove t h page bin) s = .next u ∧ Tail a u))
      ∧ (s.ctl.run ≠ .listen → s.ctl.run ≠ .fault →
          (∀ (field : BitVec 12) (v : Dev),
              ∃ u, exec (.loadParameter t h page field v) s = .next u
                ∧ (4 ≤ page.toNat ∨ field = 0 ∨ 13 ≤ field.toNat → Tail refused u)
                ∧ (∀ p : Fin 4, page.toNat = p.val →
                    ((s.pages[p]).state = .locked → Tail refused u)
                      ∧ ((s.pages[p]).state ≠ .locked →
                          let x := s.pages[p]
                          (field = 1 → Tail (pageIs p { x with range := BitVec.ofNat 3 (unsigned v 0 6) }) u)
                            ∧ (field = 2 → Tail (pageIs p { x with gain := BitVec.ofNat 3 (unsigned v 0 7) }) u)
                            ∧ (field = 3 → Tail (pageIs p { x with stdSlot := Fin.ofNat 4 (unsigned v 0 3) }) u)
                            ∧ (field = 4 → Tail (pageIs p { x with gross := BitVec.ofNat 11 (unsigned v 1 2047) }) u)
                            ∧ (field = 5 → Tail (pageIs p { x with guardBand := BitVec.ofNat 23 (unsigned v 0 8388607) }) u)
                            ∧ (field = 6 → Tail (pageIs p { x with agreeLimit := BitVec.ofNat 23 (unsigned v 0 8388607) }) u)
                            ∧ (field = 7 → Tail (pageIs p { x with tcrDefault := v }) u)
                            ∧ (field = 8 → Tail (pageIs p { x with tcrMinDt := BitVec.ofNat 12 (unsigned v 1 4095) }) u)
                            ∧ (field = 9 → Tail (pageIs p { x with tcrRequired := unsigned v 0 1 == 1 }) u)
                            ∧ (field = 10 → Tail (pageIs p { x with rejectGate := Fin.ofNat 17 (unsigned v 0 16) }) u)
                            ∧ (field = 11 → Tail (pageIs p { x with reworkGate := Fin.ofNat 17 (unsigned v 0 16) }) u)
                            ∧ (field = 12 → Tail (pageIs p { x with overflowGate := Fin.ofNat 17 (unsigned v 0 16) }) u))))
            ∧ (∀ (bin : BitVec 12) (lower upper : Dev) (gate : BitVec 12) (capacity : BitVec 16) (lo hi : Option Dev),
                ∃ u, exec (.loadBin t h page bin lower upper gate capacity lo hi) s = .next u
                  ∧ (4 ≤ page.toNat ∨ bin = 0 ∨ 17 ≤ bin.toNat ∨ lo.isSome ≠ hi.isSome → Tail refused u)
                  ∧ (∀ p : Fin 4, page.toNat = p.val → (s.pages[p]).state = .locked → Tail refused u)
                  ∧ (∀ (p : Fin 4) (b : Fin 16), page.toNat = p.val → (s.pages[p]).state ≠ .locked → bin.toNat = b.val + 1 →
                      (∀ window : Option (Dev × Dev), lo = window.map Prod.fst → hi = window.map Prod.snd →
                        let new : Bin :=
                          { index := b, lower := lower, upper := upper, window := window, gate := Fin.ofNat 17 (min 16 gate.toNat), capacity := capacity }
                        let bins := insertBin new (s.pages[p]).bins
                        Tail (pageIs p { s.pages[p] with bins := bins }) u ∧ new ∈ bins
                          ∧ bins.filter (fun x => x.index ≠ b) = (s.pages[p]).bins.filter (fun x => x.index ≠ b)
                          ∧ ((s.pages[p]).bins.Pairwise (fun x y => x.index < y.index) →
                              bins.Pairwise (fun x y => x.index < y.index) ∧ bins.filter (fun x => x.index = b) = [new]))))
            ∧ (∀ bin : BitVec 12,
                ∃ u, exec (.loadBinRemove t h page bin) s = .next u
                  ∧ (4 ≤ page.toNat ∨ bin = 0 ∨ 17 ≤ bin.toNat → Tail refused u)
                  ∧ (∀ p : Fin 4, page.toNat = p.val → (s.pages[p]).state = .locked → Tail refused u)
                  ∧ (∀ (p : Fin 4) (b : Fin 16), page.toNat = p.val → (s.pages[p]).state ≠ .locked → bin.toNat = b.val + 1 →
                      Tail (pageIs p { s.pages[p] with bins := (s.pages[p]).bins.filter (fun x => x.index ≠ b) }) u)))

/-- R102, R106, R107, R109, R110, R133: LOCK compares the expected digest with the page's: LOADING becomes LOCKED with the digest, or PAGE_LOCK_REFUSED; an EMPTY page is a CONSOLE_ERROR; a LOCKED page never changes. The digest is the sum, modulo 4096, of the page's contents cell by cell, 4095 for a sum of 0. ERASE of a page that an entry, a pending firing or the measurement context refers to raises PAGE_IN_USE; of any other it restores the EMPTY contents, and on a SORT station clears the page's bin tallies, and BIN_FULL when no bin is then full. A page above 3 is refused with CONSOLE_ERROR, and in LISTEN and FAULT both are ignored. The cell start that the end of a frame leaves for the idle moment is log entry 10. -/
def Obligations.LockAndErase : Prop :=
  ∀ (t : Instant) (h : ConsoleHead) (p : Fin 4) (s : State), s.resetHeld = false → s.link.rx.isSome = true → s.addressed h = true →
    let a := consoleState t h s
    let page := BitVec.ofNat 4 p.val
    let x := s.pages[p]
    -- the digest
    let unsigned (m : BitVec 23) : Nat := m.toNat / 4096 + m.toNat % 4096
    let signed (d : Dev) : Nat := (if d.neg then 2048 else 0) + unsigned d.mag
    let ofBin (b : Bin) : Nat :=
      b.index.val + 1 + (if b.window.isSome then 1 else 0) + signed b.lower + signed b.upper
        + (match b.window with | some w => signed w.1 + signed w.2 | none => 0) + b.gate.val + b.capacity.toNat / 4096
        + b.capacity.toNat % 4096
    let cells : Nat :=
      p.val + x.range.toNat + x.gain.toNat + x.stdSlot.val + x.gross.toNat + unsigned x.guardBand + unsigned x.agreeLimit
        + signed x.tcrDefault + x.tcrMinDt.toNat + (if x.tcrRequired then 1 else 0) + x.rejectGate.val + x.reworkGate.val
        + x.overflowGate.val + (x.bins.map ofBin).sum
    let d : BitVec 12 := if cells % 4096 = 0 then 4095 else BitVec.ofNat 12 cells
    -- the references
    let inUse : Prop :=
      (∃ e ∈ s.table.entries, ∃ st, e.stamp = some st ∧ st.page = p) ∨ (∃ f ∈ s.gates.firings, f.page = some p)
        ∨ ∃ c, s.eng.ctx = some c ∧ c.stamp.page = p
    let erased := a.withPages (s.pages.set p Page.cleared)
    pageDigest p x = d
      ∧ (∀ (field : BitVec 4) (expected : BitVec 12),
        (s.ctl.run = .listen ∨ s.ctl.run = .fault →
            (∃ u, exec (.lock t h field expected) s = .next u ∧ Tail a u) ∧ ∃ u, exec (.erase t h field) s = .next u ∧ Tail a u)
          ∧ (s.ctl.run ≠ .listen → s.ctl.run ≠ .fault → 4 ≤ field.toNat →
            (∃ u, exec (.lock t h field expected) s = .next u ∧ Tail (raise .consoleError a) u)
              ∧ ∃ u, exec (.erase t h field) s = .next u ∧ Tail (raise .consoleError a) u))
      ∧ (s.ctl.run ≠ .listen → s.ctl.run ≠ .fault →
          (∀ expected : BitVec 12,
              ∃ u, exec (.lock t h page expected) s = .next u
                ∧ (x.state = .empty → Tail (raise .consoleError a) u)
                ∧ (x.state ≠ .empty → d ≠ expected → Tail (raise .pageLockRefused a) u)
                ∧ (x.state = .loading → d = expected → Tail (a.withPages (s.pages.set p { x with state := .locked, digest := d })) u)
                ∧ (x.state = .locked → d = expected → Tail a u))
            ∧ ∃ u, exec (.erase t h page) s = .next u
              ∧ (inUse → Tail (raise .pageInUse a) u)
              ∧ (¬inUse → roleOfCode s.ctl.role ≠ some .sort → Tail erased u)
              ∧ (¬inUse → roleOfCode s.ctl.role = some .sort →
                  let full : Prop := ∃ q : Fin 4, ∃ b ∈ (u.pages[q]).bins, b.capacity ≠ 0 ∧ u.binTally q b.index = b.capacity
                  ∃ word,
                    Tail
                        ((erased.withGates { s.gates with binTallies := s.gates.binTallies.set p (Vector.replicate 16 0) }).withAlerts
                          { s.alerts with word := word }) u
                      ∧ (full → word = s.alerts.word) ∧ (¬full → word = s.alerts.word &&& ~~~AlertFlag.binFull.bit)))

/-- R95, R97, R133, R134, R145, R163, R164, R182, R183, R184, R185: BIN CLEAR sets one bin tally to 0 and clears BIN_FULL when no bin is full; a CLEAR of alert flags clears the flags it names but for a level flag whose condition stands: a row that is SILENT, one that is distrusted, one in DOUBT, a slot whose k is beyond DRIFT_LIMIT, a staleness count of 256 in the slot in service (the STD_SLOT of the most recently used page while that page is LOCKED), a full bin; a MASK sets mask and master enable, positions 26 to 32 reading as off, and ALERT follows them. In LISTEN all three are ignored; bad pages and bins and undefined CLEAR forms (log entry 14) are refused. A flag that goes from clear to set with its mask bit on and BROADCAST_ALERTS 1 offers an ALERT frame: shown on such a refusal with its level flags, one ALERT joins a queue with room unless one not yet started stands there (log entry 42) or the station is MUTED or in FAULT, and with six frames held TXQ_OVERFLOW is set. The place of the level flags at the end of the command is log entry 13. The cell start that the end of a frame leaves for the idle moment is log entry 10. -/
def Obligations.ClearAndMask : Prop :=
  ∀ (t : Instant) (h : ConsoleHead) (s : State), s.resetHeld = false → s.link.rx.isSome = true → s.addressed h = true →
    let a := consoleState t h s
    let k (ring : List Dev) : Dev := roundedDev (ring.map Dev.toInt).sum ring.length
    let stands (b : State) (f : AlertFlag) : Prop :=
      let silent (r : PeerRow) : Prop := r.heard = true ∧ r.heardAt + ms 1000 ≤ b.now
      match f with
      | .peerSilent => ∃ n : Fin 8, silent b.peers[n]
      | .peerDistrusted => ∃ n : Fin 8, (b.peers[n]).distrusted = true
      | .indexDoubt =>
        ∃ n : Fin 8, (b.peers[n]).heard = true ∧ ¬silent b.peers[n] ∧ (b.peers[n]).distrusted = false
          ∧ ((b.peers[n]).ahead = true ∨ ∃ o, (b.peers[n]).offset = some o ∧ o.agrees = false)
      | .driftLimit =>
        b.ctl.items.driftLimit ≠ 0
          ∧ ∃ j : Fin 4, (b.drift[j]).ring ≠ [] ∧ b.ctl.items.driftLimit < (k (b.drift[j]).ring).mag.toNat
      | .driftStale =>
        (b.pages[b.eng.recentPage]).state = .locked ∧ 256 ≤ (b.drift[(b.pages[b.eng.recentPage]).stdSlot]).staleness
      | .binFull => ∃ q : Fin 4, ∃ x ∈ (b.pages[q]).bins, x.capacity ≠ 0 ∧ b.binTally q x.index = x.capacity
      | _ => False
    (∀ (b : State) (f : AlertFlag), b.levelStands f = true ↔ stands b f)
      ∧ (∀ (page : BitVec 4) (bin : BitVec 8),
        ∃ u, exec (.binClear t h page bin) s = .next u
          ∧ (s.ctl.run = .listen → Tail a u)
          ∧ (s.ctl.run ≠ .listen → (4 ≤ page.toNat ∨ bin = 0 ∨ 17 ≤ bin.toNat) → Tail (raise .consoleError a) u)
          ∧ (∀ (p : Fin 4) (b : Fin 16), s.ctl.run ≠ .listen → page.toNat = p.val → bin.toNat = b.val + 1 →
              let full : Prop := ∃ q : Fin 4, ∃ x ∈ (u.pages[q]).bins, x.capacity ≠ 0 ∧ u.binTally q x.index = x.capacity
              ∃ word,
                Tail
                    ((a.withGates { s.gates with binTallies := s.gates.binTallies.set p ((s.gates.binTallies[p]).set b 0) }).withAlerts
                      { s.alerts with word := word }) u
                  ∧ (full → word = s.alerts.word) ∧ (¬full → word = s.alerts.word &&& ~~~AlertFlag.binFull.bit)
                  ∧ flagIn u.alerts.word .binFull = u.anyBinFull))
      ∧ (∀ named : BitVec 32,
          ∃ u, exec (.clearAlertFlags t h (.flags named)) s = .next u
            ∧ (s.ctl.run = .listen → Tail a u)
            ∧ (s.ctl.run ≠ .listen →
                ∃ word, Tail (a.withAlerts { s.alerts with word := word }) u
                  ∧ ∀ f : AlertFlag, flagIn word f = (flagIn s.alerts.word f && (!flagIn named f || a.levelStands f))))
      ∧ (∀ form : Fin 14,
          ∃ u, exec (.clearAlertFlags t h (.undefinedForm form)) s = .next u
            ∧ (s.ctl.run = .listen → Tail a u) ∧ (s.ctl.run ≠ .listen → Tail (raise .consoleError a) u))
      ∧ (∀ (word : BitVec 32) (master : Bool),
          ∃ u, exec (.mask t h word master) s = .next u
            ∧ (s.ctl.run = .listen → Tail a u)
            ∧ (s.ctl.run ≠ .listen →
                Tail (a.withAlerts { s.alerts with mask := word &&& 0xFFFFFF80, master := master }) u
                  ∧ (∀ f : AlertFlag, flagIn u.alerts.mask f = flagIn word f)
                  ∧ (u.assertsAlert = true
                      ↔ s.ctl.run = .fault ∨ (master = true ∧ ∃ f : AlertFlag, flagIn u.alerts.word f = true ∧ flagIn word f = true))))
      ∧ [AlertFlag.dupNode, .badRole, .configIncomplete, .runRefused, .consoleError, .pageLockRefused, .pageInUse, .peerSilent, .peerDistrusted,
          .indexDoubt, .indexRealign, .txqOverflow, .frameStale, .measTimeout, .measAbort, .overload, .stdLow, .driftLimit, .driftStale, .tempFault,
          .binFull, .unitLate, .gateOverrun, .gateMissed, .takeover].map AlertFlag.pos = List.range' 1 25
      ∧ (∀ (f : AlertFlag) (b : State),
          (flagIn b.alerts.word f = true → raise f b = b)
            ∧ (flagIn b.alerts.word f = false →
                raise f b
                  = (b.withAlerts { b.alerts with word := b.alerts.word ||| f.bit }).withWork
                      { b.work with alert := b.work.alert || (b.ctl.items.broadcastAlerts && flagIn b.alerts.mask f) }))
      ∧ (∀ form : Fin 14, s.ctl.run ≠ .listen → s.work = Work.empty →
          let rises (f : AlertFlag) : Prop := flagIn s.alerts.word f = false ∧ (f = .consoleError ∨ stands a f)
          let offered : Prop := s.ctl.items.broadcastAlerts = true ∧ ∃ f, rises f ∧ flagIn s.alerts.mask f = true
          let admitted : Prop := s.ctl.run ≠ .fault ∧ s.ctl.activity ≠ .muted
          let unstarted := match a.link.tx with | some x => if x.won then a.link.queue else a.link.queue.tail | none => a.link.queue
          let waits : Prop := ∃ q ∈ unstarted, q.frame = .alert
          ∃ u more, exec (.clearAlertFlags t h (.undefinedForm form)) s = .next u ∧ u.link.queue = a.link.queue ++ more
            ∧ (offered → admitted → ¬waits → a.link.queue.length + (if s.ctl.drain then 2 else 1) ≤ 6 →
                { frame := .alert, waiting := 0 } ∈ more ∧ more.countP (fun q => q.frame == .alert) = 1)
            ∧ (¬offered ∨ ¬admitted ∨ waits → ∀ q ∈ more, q.frame ≠ .alert)
            ∧ (offered → admitted → ¬waits → 6 ≤ a.link.queue.length → more = [] ∧ flagIn u.alerts.word .txqOverflow = true))

/-- R124, R136, R147, R168, R169, R181, R63: MUTE in CONFIG, READY, RUN and HALT makes the station MUTED and offers a HAIL: a running measurement ends without a record (where its excitation was already off, the instant of the last turn-off stays: log entry 15, DEDUCED; the ADC channels stay: log entry 44, DEDUCED); on a SORT station every firing is dropped with GATE_MISSED and its entry, every driver is IDLE, and the tallies stay but for the PASSED count of an entry dropped without a verdict; unit records and ALERT frames leave the queue. The station state, the drain mark, the reset cause, the rest of the Index Tracker and every flag but GATE_MISSED stay, up to the drain test and the level flags of the command's end. UNMUTE makes a MUTED station STANDBY or ACTIVE by the standby test, with a HAIL. LISTEN and FAULT ignore both. The cell start that the end of a frame leaves for the idle moment is log entry 10. -/
def Obligations.MuteAndUnmute : Prop :=
  ∀ (t : Instant) (h : ConsoleHead) (s : State), s.resetHeld = false → s.link.rx.isSome = true → s.addressed h = true →
    let a := consoleState t h s
    let fired (e : Entry) : Bool := s.gates.firings.any (fun f => f.tag == e.tag)
    let passed : Nat :=
      match s.ctl.items.position with
      | some p => s.table.entries.countP (fun e => fired e && e.verdict == none && decide (p < s.posOf e.tag) && decide (s.posOf e.tag ≤ 32767))
      | none => 0
    (∃ u, exec (.mute t h) s = .next u
        ∧ (s.ctl.run = .listen ∨ s.ctl.run = .fault ∨ s.ctl.activity = .muted → Tail a u)
        ∧ (s.ctl.run ≠ .listen → s.ctl.run ≠ .fault → s.ctl.activity ≠ .muted →
            Tail (mutedBy a) u ∧ u.eng.ctx = none
              -- Run Control, up to a drain that the mute completes
              ∧ (∃ st drain, u.ctl = { s.ctl with activity := .muted, hailDue := some (max s.now t + ms 250), run := st, drain := drain }
                  ∧ (s.ctl.drain = false ∨ s.ctl.run ≠ .run ∨ (∃ e ∈ u.table.entries, a.awaits e = true) → st = s.ctl.run ∧ drain = s.ctl.drain)
                  ∧ (s.ctl.drain = true → s.ctl.run = .run → (∀ e ∈ u.table.entries, a.awaits e = false) → st = .halt ∧ drain = false))
              -- the flags
              ∧ (∀ f : AlertFlag, f ≠ .txqOverflow → f ≠ .gateMissed → flagIn u.alerts.word f = (flagIn s.alerts.word f || a.levelStands f))
              ∧ flagIn u.alerts.word .gateMissed
                  = (flagIn s.alerts.word .gateMissed || (decide (roleOfCode s.ctl.role = some .sort) && !s.gates.firings.isEmpty))
              ∧ (HasRoom 1 a → flagIn u.alerts.word .txqOverflow = flagIn s.alerts.word .txqOverflow)
              ∧ (∃ meas fire, u.idx = { s.idx with measReq := meas, firingReq := fire })
              ∧ (HasRoom 1 a → ∃ q ∈ u.link.queue, q.frame = .hail)
              ∧ (s.eng.ctx ≠ none →
                  u.idx.measReq = false
                    ∧ u.eng = { endedEngine (max s.now t) s.eng with relays := { slot := none, unit := false, check := false } })
              ∧ (s.eng.ctx = none → u.eng = s.eng ∧ u.idx.measReq = s.idx.measReq)
              ∧ (roleOfCode s.ctl.role = some .sort →
                  u.gates.firings = [] ∧ u.gates.drivers = Vector.replicate 16 .idle ∧ (∀ g, u.gateDrive g = .off) ∧ u.idx.firingReq = false
                    ∧ (s.gates.firings ≠ [] → flagIn u.alerts.word .gateMissed = true)
                    ∧ u.table.entries = s.table.entries.filter (fun e => !fired e)
                    ∧ u.gates.binTallies = s.gates.binTallies
                    ∧ (∀ k : Fin 15, u.gates.reasonTallies[k]
                        = (if k = passedPlace then tallyAdd s.gates.reasonTallies[k] passed else s.gates.reasonTallies[k])))
              ∧ (roleOfCode s.ctl.role ≠ some .sort → u.gates = s.gates ∧ u.table = s.table ∧ u.idx.firingReq = s.idx.firingReq)
              ∧ (s.work = Work.empty → ∀ q ∈ u.link.queue, q.frame.isUnit = false ∧ q.frame ≠ .alert)
              ∧ u.pages = s.pages ∧ u.drift = s.drift ∧ u.peers = s.peers ∧ u.ctl.items = s.ctl.items ∧ u.idx.count = s.idx.count
              ∧ u.alerts.mask = s.alerts.mask ∧ u.alerts.master = s.alerts.master))
      ∧ ∃ u, exec (.unmute t h) s = .next u
        ∧ (s.ctl.run = .listen ∨ s.ctl.run = .fault ∨ s.ctl.activity ≠ .muted → Tail a u)
        ∧ (s.ctl.run ≠ .listen → s.ctl.run ≠ .fault → s.ctl.activity = .muted →
            Tail (offerHail (a.withCtl { s.ctl with activity := if a.lowerQualifies then .standby else .active })) u)

/-- R179, R38, R42, R63, R98, R137, R147, R158, R169, R182: RESTART. In FAULT it has no effect. In every other state it turns the excitation off and records the instant (already off, the instant held stays: log entry 15, DEDUCED), leaves the ADC channels as they are (log entry 44, DEDUCED), discards the measurement and releases the relays, empties table, last-removed memory, firings, tallies, drift slots, peer rows, flags and queue, ends a deferral and stops a claim still in its header cell, sets cause RESTART and ACTIVE, keeps count, pages, items and mask, and leads LISTEN to a LISTEN that starts again with a HAIL (log entry 22), CONFIG to CONFIG, and READY, RUN and HALT to READY. A change of state code or activity offers a HAIL. The cell start that the end of a frame leaves for the idle moment is log entry 10. -/
def Obligations.Restart : Prop :=
  ∀ (t : Instant) (h : ConsoleHead) (s : State), s.resetHeld = false → s.link.rx.isSome = true → s.addressed h = true →
    let a := consoleState t h s
    let hails := s.ctl.run = .run ∨ s.ctl.run = .halt ∨ s.ctl.run = .listen ∨ s.ctl.activity ≠ .active
    ∃ u, exec (.restart t h) s = .next u
      ∧ (s.ctl.run = .fault → Tail a u)
      ∧ (s.ctl.run ≠ .fault →
          u.table = { entries := [], lastRemoved := none }
            ∧ u.eng
                = { ctx := none, recentPage := s.eng.recentPage, excitation := .off
                    lastOff := if s.eng.excitation = .off then s.eng.lastOff else some (max s.now t), relays := ⟨none, false, false⟩
                    channels := s.eng.channels }
            ∧ u.drift = Vector.replicate 4 { baseline := none, ring := [], staleness := 0 }
            ∧ u.gates
                = { firings := [], drivers := Vector.replicate 16 .idle, binTallies := Vector.replicate 4 (Vector.replicate 16 0),
                    reasonTallies := Vector.replicate 15 0 }
            ∧ u.peers = Vector.replicate 8 PeerRow.cleared ∧ (∀ f : AlertFlag, f ≠ .txqOverflow → flagIn u.alerts.word f = false)
            ∧ u.alerts.mask = s.alerts.mask ∧ u.alerts.master = s.alerts.master ∧ u.pages = s.pages
            ∧ u.idx = { s.idx with measReq := false, firingReq := false }
            ∧ u.ctl.items = s.ctl.items ∧ u.ctl.node = s.ctl.node ∧ u.ctl.role = s.ctl.role ∧ u.ctl.cause = .restart
            ∧ u.ctl.activity = .active ∧ u.ctl.drain = false
            -- the line and the queue
            ∧ u.link.deferral = .no ∧ u.link.lineIdle = false
            ∧ (∀ x, a.link.tx = some x → x.won = true → u.link.tx = some x)
            ∧ (∀ x, a.link.tx = some x → x.won = false → a.link.queue ≠ [] → u.link.tx = none ∧ u.link.rx = some x.mark)
            ∧ (a.link.tx = none → u.link.tx = none)
            ∧ (hails → u.ctl.hailDue = some (max s.now t + ms 250) ∧ (s.work = Work.empty → u.link.queue = [{ frame := .hail, waiting := 0 }]))
            ∧ (¬hails → u.ctl.hailDue = s.ctl.hailDue ∧ (s.work = Work.empty → u.link.queue = []))
            -- where it leads
            ∧ (s.ctl.run = .config → u.ctl.run = .config)
            ∧ (s.ctl.run = .ready ∨ s.ctl.run = .run ∨ s.ctl.run = .halt → u.ctl.run = .ready)
            ∧ (s.ctl.run = .listen → u.ctl.run = .listen ∧ u.ctl.listenDue = some (max s.now t + ms 600)))

/-! ### Queries -/

/-- R145, R157, R186, R187: the QUERY commands. In CONFIG, READY, RUN and HALT each puts its STATUS reply at the queue's tail, laid out cell by cell from the state as it stands, with every bit that R157 assigns to nothing at 0 (log entry 24, DEDUCED), four frames for an entry, and changes nothing else; a reply for which the queue of six has no room is not queued, no part of it, the frames held stay as they are, and TXQ_OVERFLOW is set; a node, page, bin, reason or slot that does not exist, and an undefined item, are refused with CONSOLE_ERROR. The bits of a peer row that R157 leaves open are free values (log entry 23). In LISTEN and FAULT a QUERY of any item, whatever it asks for, gets no reply and raises nothing. (Undefined items come as QUERY_STATE: log entry 14; that a QUERY raises nothing in LISTEN and FAULT: log entry 29.) The cell start that the end of a frame leaves for the idle moment is log entry 10. -/
def Obligations.Queries : Prop :=
  ∀ (t : Instant) (h : ConsoleHead) (arg page : BitVec 4) (bin : BitVec 8) (tag : BitVec 16) (s : State), s.resetHeld = false →
    s.link.rx.isSome = true → s.addressed h = true →
    let a := consoleState t h s
    let replies (c : Instr) (b : State) (bodies : List (List Cell)) : Prop :=
      ∃ u, exec c s = .next u ∧ Tail (offerStatus bodies b) u ∧ (HasRoom bodies.length a → Queued a (bodies.map .status) u)
        ∧ (s.work = Work.empty → 6 < a.link.queue.length + bodies.length →
            flagIn u.alerts.word .txqOverflow = true
              ∧ ∃ more, u.link.queue = a.link.queue ++ more ∧ (∀ q ∈ more, q.frame = .hail ∨ q.frame = .alert)
                ∧ (6 ≤ a.link.queue.length → more = []))
    let refuses (c : Instr) : Prop := ∃ u, exec c s = .next u ∧ Tail (raise .consoleError a) u
    let silent (c : Instr) : Prop :=
      ∃ u, exec c s = .next u ∧ Tail a u
        ∧ (s.work = Work.empty → ∃ more, u.link.queue = a.link.queue ++ more ∧ ∀ q ∈ more, q.frame = .hail ∨ q.frame = .alert)
    (s.ctl.run ≠ .listen → s.ctl.run ≠ .fault →
        replies (.queryState t h .state arg) a [stateBody a arg.toNat]
          ∧ (∀ n : Fin 9, refuses (.queryState t h (.undefinedItem n) arg))
          ∧ replies (.queryAlertWord t h arg) a [alertBody a arg.toNat]
          ∧ (∀ n : Fin 8, arg.toNat = n.val →
              replies (.queryPeerRow t h arg) (a.withFreeDraws (s.freeDraws + 2))
                [peerBody a arg.toNat n (fun k => Config.freeBits (s.freeDraws + k))])
          ∧ (8 ≤ arg.toNat → refuses (.queryPeerRow t h arg))
          ∧ (∀ (p : Fin 4) (b : Fin 16), page.toNat = p.val → bin.toNat = b.val + 1 →
              replies (.queryBinTally t h arg page bin) a [[echo 3 arg.toNat, cellOf [(p.val, 8), (b.val + 1, 0)]] ++ pairOf (s.binTally p b).toNat])
          ∧ (4 ≤ page.toNat ∨ bin = 0 ∨ 17 ≤ bin.toNat → refuses (.queryBinTally t h arg page bin))
          ∧ (∀ k : Fin 15, arg.toNat = k.val + 1 → replies (.queryReasonTally t h arg) a [echo 4 arg.toNat :: pairOf (s.gates.reasonTallies[k]).toNat])
          ∧ (arg = 0 → refuses (.queryReasonTally t h arg))
          ∧ replies (.queryEntry t h arg tag) a (entryBodies a tag)
          ∧ (∀ k : Fin 4, arg.toNat = k.val → replies (.queryDriftSlot t h arg) a [driftBody a arg.toNat k])
          ∧ (4 ≤ arg.toNat → refuses (.queryDriftSlot t h arg)))
      ∧ (s.ctl.run = .listen ∨ s.ctl.run = .fault →
          (∀ item, silent (.queryState t h item arg)) ∧ silent (.queryAlertWord t h arg) ∧ silent (.queryPeerRow t h arg)
            ∧ silent (.queryBinTally t h arg page bin) ∧ silent (.queryReasonTally t h arg) ∧ silent (.queryEntry t h arg tag)
            ∧ silent (.queryDriftSlot t h arg))

/-! ### Invariants -/

/-- R10, R11, R40, R57, R180: in every step the measurement request stands exactly while a sequence runs, and current flows only in the states that call for it; and a station in FAULT goes on measuring nothing, driving no gate and hailing no more. -/
def Obligations.StepKeepsEngine : Prop :=
  (∀ s u : State, EngineOk s → step s = .next u → EngineOk u) ∧ ∀ s u : State, FaultOk s → step s = .next u → FaultOk u

/-- R140, R141, R145, R146, R182, R184: every step keeps the queue within 6 frames, its unit records fresh, a claim at its head, and the line not idle while a frame is on it; and keeps the alert word and the mask within the assigned positions. -/
def Obligations.StepKeepsQueue : Prop :=
  (∀ s u : State, QueueOk s → step s = .next u → QueueOk u) ∧ ∀ s u : State, AlertsOk s → step s = .next u → AlertsOk u

/-- R100, R101, R107, R108, R88, R92, R96: every step keeps the pages sound: a LOCKED page has its own digest, the bins stand in index order, the parameters in their ranges; and the drift slots: at most four samples, none without a baseline, and a staleness count of at most 256. -/
def Obligations.StepKeepsRecipe : Prop :=
  (∀ s u : State, RecipeOk s → step s = .next u → RecipeOk u) ∧ ∀ s u : State, DriftOk s → step s = .next u → DriftOk u

/-- R12, R120, R125, R126, R130, R131, R132, R136: every step keeps at most 32 firings, one for any tag, drivers and firings matched, and the firing request exactly while a firing is in progress; and keeps the list in due order: firings in progress first, then the WAITING ones by the index events to come and the gate number, each with an installed gate that its unit has not passed (a unit at an ahead position has passed it: log entry 45). -/
def Obligations.StepKeepsGates : Prop :=
  (∀ s u : State, GatesOk s → step s = .next u → GatesOk u)
    ∧ ∀ s u : State, GatesOk s → TableOk s → DueOk s → step s = .next u → DueOk u

/-- R5, R18, R34, R35, R37: every step keeps the entries in tag order, one for any tag, each within the retire limit, which is that of the role and the items. -/
def Obligations.StepKeepsTable : Prop := ∀ s u : State, TableOk s → step s = .next u → TableOk u

/-- The state after reset is sound in every part. -/
def Obligations.ResetSound : Prop :=
  EngineOk State.reset ∧ QueueOk State.reset ∧ RecipeOk State.reset ∧ GatesOk State.reset ∧ TableOk State.reset ∧ DriftOk State.reset
    ∧ AlertsOk State.reset ∧ FaultOk State.reset ∧ DueOk State.reset

/-! ### Whole-machine rules -/

/-- R108: a LOCKED page's contents and digest do not change until it is erased: only an ERASE or a hard reset changes it. A LOAD for it is refused: the pages stay, CONSOLE_ERROR is raised, and ALERT is asserted where its mask bit and the master enable are on. A LOCK leaves it as it is. -/
def Obligations.LockedPageStays : Prop :=
  (∀ (c : Instr) (s u : State) (p : Fin 4), exec c s = .next u → (s.pages[p]).state = .locked →
      (∀ t h page, c ≠ .erase t h page) → (∀ t cause node role page, c ≠ .hardReset t cause node role page) → u.pages[p] = s.pages[p])
    ∧ ∀ (t : Instant) (h : ConsoleHead) (page : BitVec 4) (p : Fin 4) (s : State), s.resetHeld = false → s.link.rx.isSome = true →
        s.addressed h = true →
        s.ctl.run ≠ .listen → s.ctl.run ≠ .fault → page.toNat = p.val → (s.pages[p]).state = .locked →
        let refuses (c : Instr) : Prop :=
          ∃ u, exec c s = .next u ∧ u.pages = s.pages ∧ flagIn u.alerts.word .consoleError = true
            ∧ (s.alerts.master = true → flagIn s.alerts.mask .consoleError = true → u.assertsAlert = true)
        (∀ field v, refuses (.loadParameter t h page field v))
          ∧ (∀ bin lower upper gate capacity lo hi, refuses (.loadBin t h page bin lower upper gate capacity lo hi))
          ∧ (∀ bin, refuses (.loadBinRemove t h page bin))
          ∧ ∀ digest, ∃ u, exec (.lock t h page digest) s = .next u ∧ u.pages = s.pages

/-- R175, R180: the configuration items change only in CONFIG, by the SETUP commands, and FAULT is left only by a hard reset, which alone changes node and role. -/
def Obligations.ItemsAndFaultStay : Prop :=
  ∀ (c : Instr) (s u : State), exec c s = .next u → (∀ t cause node role page, c ≠ .hardReset t cause node role page) →
    (s.ctl.run ≠ .config → u.ctl.items = s.ctl.items)
      ∧ ((∀ t h item v, c ≠ .setup t h item v) → (∀ t h v, c ≠ .setupPosition t h v) → (∀ t h g v, c ≠ .setupGatePos t h g v) →
          u.ctl.items = s.ctl.items)
      ∧ (s.ctl.run = .fault → u.ctl.run = .fault ∧ u.ctl.faultReason = s.ctl.faultReason)
      ∧ u.ctl.node = s.ctl.node ∧ u.ctl.role = s.ctl.role

/-! ### Frames on the line -/

/-- R138, R139, R144, R149, R151, R153 to R157: a cell on the line is its start mark, driven low, its twelve data bits from bit 11 to bit 0 and the bit that makes the number of ones odd, a 0 dominant and a 1 recessive; a receiver reads the cell c from such a cell alone, so that one with a parity error or cut off is none. Every command that is a frame, laid out as its cells on the line and taken from it, is that command again: no field of any layout is dropped or confused with another. (Bits that no layout assigns are 0: log entry 24; a STATUS whose echo names no answer is not well-formed: log entry 39.) -/
def Obligations.FrameRoundTrip : Prop :=
  (∀ c : Cell,
      let bits (p : Bool) : List Bool := [11, 10, 9, 8, 7, 6, 5, 4, 3, 2, 1, 0].map (fun k => c.getLsbD k) ++ [p]
      ∃ p : Bool, (bits p).count true % 2 = 1
        ∧ lineCell c = LineLevel.dominant :: (bits p).map (fun b => if b then LineLevel.recessive else LineLevel.dominant))
    ∧ (∀ (w : List LineLevel) (c : Cell), readCell w = some c ↔ w = lineCell c)
    ∧ ∀ (c : Instr) (cells : List Cell), c.wellFormed = true → encodeFrame c = some cells →
        receiveFrame c.instant (cells.map lineCell) = c
end

