-- ==== Sys2Proof/Laws/State.lean ====
section
/-! SUPPORT. Every field of the state after every setter, and a second write of one block, true by definition. -/

namespace Sys2Proof.Machine

@[simp] theorem State.withNow_now (s : State) (x : Instant) : (s.withNow x).now = x := rfl
@[simp] theorem State.withNow_resetHeld (s : State) (x : Instant) : (s.withNow x).resetHeld = s.resetHeld := rfl
@[simp] theorem State.withNow_idx (s : State) (x : Instant) : (s.withNow x).idx = s.idx := rfl
@[simp] theorem State.withNow_table (s : State) (x : Instant) : (s.withNow x).table = s.table := rfl
@[simp] theorem State.withNow_eng (s : State) (x : Instant) : (s.withNow x).eng = s.eng := rfl
@[simp] theorem State.withNow_drift (s : State) (x : Instant) : (s.withNow x).drift = s.drift := rfl
@[simp] theorem State.withNow_pages (s : State) (x : Instant) : (s.withNow x).pages = s.pages := rfl
@[simp] theorem State.withNow_gates (s : State) (x : Instant) : (s.withNow x).gates = s.gates := rfl
@[simp] theorem State.withNow_link (s : State) (x : Instant) : (s.withNow x).link = s.link := rfl
@[simp] theorem State.withNow_peers (s : State) (x : Instant) : (s.withNow x).peers = s.peers := rfl
@[simp] theorem State.withNow_ctl (s : State) (x : Instant) : (s.withNow x).ctl = s.ctl := rfl
@[simp] theorem State.withNow_alerts (s : State) (x : Instant) : (s.withNow x).alerts = s.alerts := rfl
@[simp] theorem State.withNow_work (s : State) (x : Instant) : (s.withNow x).work = s.work := rfl
@[simp] theorem State.withNow_freeDraws (s : State) (x : Instant) : (s.withNow x).freeDraws = s.freeDraws := rfl
@[simp] theorem State.withNow_pending (s : State) (x : Instant) : (s.withNow x).pending = s.pending := rfl

@[simp] theorem State.withResetHeld_now (s : State) (x : Bool) : (s.withResetHeld x).now = s.now := rfl
@[simp] theorem State.withResetHeld_resetHeld (s : State) (x : Bool) : (s.withResetHeld x).resetHeld = x := rfl
@[simp] theorem State.withResetHeld_idx (s : State) (x : Bool) : (s.withResetHeld x).idx = s.idx := rfl
@[simp] theorem State.withResetHeld_table (s : State) (x : Bool) : (s.withResetHeld x).table = s.table := rfl
@[simp] theorem State.withResetHeld_eng (s : State) (x : Bool) : (s.withResetHeld x).eng = s.eng := rfl
@[simp] theorem State.withResetHeld_drift (s : State) (x : Bool) : (s.withResetHeld x).drift = s.drift := rfl
@[simp] theorem State.withResetHeld_pages (s : State) (x : Bool) : (s.withResetHeld x).pages = s.pages := rfl
@[simp] theorem State.withResetHeld_gates (s : State) (x : Bool) : (s.withResetHeld x).gates = s.gates := rfl
@[simp] theorem State.withResetHeld_link (s : State) (x : Bool) : (s.withResetHeld x).link = s.link := rfl
@[simp] theorem State.withResetHeld_peers (s : State) (x : Bool) : (s.withResetHeld x).peers = s.peers := rfl
@[simp] theorem State.withResetHeld_ctl (s : State) (x : Bool) : (s.withResetHeld x).ctl = s.ctl := rfl
@[simp] theorem State.withResetHeld_alerts (s : State) (x : Bool) : (s.withResetHeld x).alerts = s.alerts := rfl
@[simp] theorem State.withResetHeld_work (s : State) (x : Bool) : (s.withResetHeld x).work = s.work := rfl
@[simp] theorem State.withResetHeld_freeDraws (s : State) (x : Bool) : (s.withResetHeld x).freeDraws = s.freeDraws := rfl
@[simp] theorem State.withResetHeld_pending (s : State) (x : Bool) : (s.withResetHeld x).pending = s.pending := rfl

@[simp] theorem State.withIdx_now (s : State) (x : IndexTracker) : (s.withIdx x).now = s.now := rfl
@[simp] theorem State.withIdx_resetHeld (s : State) (x : IndexTracker) : (s.withIdx x).resetHeld = s.resetHeld := rfl
@[simp] theorem State.withIdx_idx (s : State) (x : IndexTracker) : (s.withIdx x).idx = x := rfl
@[simp] theorem State.withIdx_table (s : State) (x : IndexTracker) : (s.withIdx x).table = s.table := rfl
@[simp] theorem State.withIdx_eng (s : State) (x : IndexTracker) : (s.withIdx x).eng = s.eng := rfl
@[simp] theorem State.withIdx_drift (s : State) (x : IndexTracker) : (s.withIdx x).drift = s.drift := rfl
@[simp] theorem State.withIdx_pages (s : State) (x : IndexTracker) : (s.withIdx x).pages = s.pages := rfl
@[simp] theorem State.withIdx_gates (s : State) (x : IndexTracker) : (s.withIdx x).gates = s.gates := rfl
@[simp] theorem State.withIdx_link (s : State) (x : IndexTracker) : (s.withIdx x).link = s.link := rfl
@[simp] theorem State.withIdx_peers (s : State) (x : IndexTracker) : (s.withIdx x).peers = s.peers := rfl
@[simp] theorem State.withIdx_ctl (s : State) (x : IndexTracker) : (s.withIdx x).ctl = s.ctl := rfl
@[simp] theorem State.withIdx_alerts (s : State) (x : IndexTracker) : (s.withIdx x).alerts = s.alerts := rfl
@[simp] theorem State.withIdx_work (s : State) (x : IndexTracker) : (s.withIdx x).work = s.work := rfl
@[simp] theorem State.withIdx_freeDraws (s : State) (x : IndexTracker) : (s.withIdx x).freeDraws = s.freeDraws := rfl
@[simp] theorem State.withIdx_pending (s : State) (x : IndexTracker) : (s.withIdx x).pending = s.pending := rfl

@[simp] theorem State.withTable_now (s : State) (x : UnitTable) : (s.withTable x).now = s.now := rfl
@[simp] theorem State.withTable_resetHeld (s : State) (x : UnitTable) : (s.withTable x).resetHeld = s.resetHeld := rfl
@[simp] theorem State.withTable_idx (s : State) (x : UnitTable) : (s.withTable x).idx = s.idx := rfl
@[simp] theorem State.withTable_table (s : State) (x : UnitTable) : (s.withTable x).table = x := rfl
@[simp] theorem State.withTable_eng (s : State) (x : UnitTable) : (s.withTable x).eng = s.eng := rfl
@[simp] theorem State.withTable_drift (s : State) (x : UnitTable) : (s.withTable x).drift = s.drift := rfl
@[simp] theorem State.withTable_pages (s : State) (x : UnitTable) : (s.withTable x).pages = s.pages := rfl
@[simp] theorem State.withTable_gates (s : State) (x : UnitTable) : (s.withTable x).gates = s.gates := rfl
@[simp] theorem State.withTable_link (s : State) (x : UnitTable) : (s.withTable x).link = s.link := rfl
@[simp] theorem State.withTable_peers (s : State) (x : UnitTable) : (s.withTable x).peers = s.peers := rfl
@[simp] theorem State.withTable_ctl (s : State) (x : UnitTable) : (s.withTable x).ctl = s.ctl := rfl
@[simp] theorem State.withTable_alerts (s : State) (x : UnitTable) : (s.withTable x).alerts = s.alerts := rfl
@[simp] theorem State.withTable_work (s : State) (x : UnitTable) : (s.withTable x).work = s.work := rfl
@[simp] theorem State.withTable_freeDraws (s : State) (x : UnitTable) : (s.withTable x).freeDraws = s.freeDraws := rfl
@[simp] theorem State.withTable_pending (s : State) (x : UnitTable) : (s.withTable x).pending = s.pending := rfl

@[simp] theorem State.withEng_now (s : State) (x : Engine) : (s.withEng x).now = s.now := rfl
@[simp] theorem State.withEng_resetHeld (s : State) (x : Engine) : (s.withEng x).resetHeld = s.resetHeld := rfl
@[simp] theorem State.withEng_idx (s : State) (x : Engine) : (s.withEng x).idx = s.idx := rfl
@[simp] theorem State.withEng_table (s : State) (x : Engine) : (s.withEng x).table = s.table := rfl
@[simp] theorem State.withEng_eng (s : State) (x : Engine) : (s.withEng x).eng = x := rfl
@[simp] theorem State.withEng_drift (s : State) (x : Engine) : (s.withEng x).drift = s.drift := rfl
@[simp] theorem State.withEng_pages (s : State) (x : Engine) : (s.withEng x).pages = s.pages := rfl
@[simp] theorem State.withEng_gates (s : State) (x : Engine) : (s.withEng x).gates = s.gates := rfl
@[simp] theorem State.withEng_link (s : State) (x : Engine) : (s.withEng x).link = s.link := rfl
@[simp] theorem State.withEng_peers (s : State) (x : Engine) : (s.withEng x).peers = s.peers := rfl
@[simp] theorem State.withEng_ctl (s : State) (x : Engine) : (s.withEng x).ctl = s.ctl := rfl
@[simp] theorem State.withEng_alerts (s : State) (x : Engine) : (s.withEng x).alerts = s.alerts := rfl
@[simp] theorem State.withEng_work (s : State) (x : Engine) : (s.withEng x).work = s.work := rfl
@[simp] theorem State.withEng_freeDraws (s : State) (x : Engine) : (s.withEng x).freeDraws = s.freeDraws := rfl
@[simp] theorem State.withEng_pending (s : State) (x : Engine) : (s.withEng x).pending = s.pending := rfl

@[simp] theorem State.withDrift_now (s : State) (x : Vector DriftSlot 4) : (s.withDrift x).now = s.now := rfl
@[simp] theorem State.withDrift_resetHeld (s : State) (x : Vector DriftSlot 4) : (s.withDrift x).resetHeld = s.resetHeld := rfl
@[simp] theorem State.withDrift_idx (s : State) (x : Vector DriftSlot 4) : (s.withDrift x).idx = s.idx := rfl
@[simp] theorem State.withDrift_table (s : State) (x : Vector DriftSlot 4) : (s.withDrift x).table = s.table := rfl
@[simp] theorem State.withDrift_eng (s : State) (x : Vector DriftSlot 4) : (s.withDrift x).eng = s.eng := rfl
@[simp] theorem State.withDrift_drift (s : State) (x : Vector DriftSlot 4) : (s.withDrift x).drift = x := rfl
@[simp] theorem State.withDrift_pages (s : State) (x : Vector DriftSlot 4) : (s.withDrift x).pages = s.pages := rfl
@[simp] theorem State.withDrift_gates (s : State) (x : Vector DriftSlot 4) : (s.withDrift x).gates = s.gates := rfl
@[simp] theorem State.withDrift_link (s : State) (x : Vector DriftSlot 4) : (s.withDrift x).link = s.link := rfl
@[simp] theorem State.withDrift_peers (s : State) (x : Vector DriftSlot 4) : (s.withDrift x).peers = s.peers := rfl
@[simp] theorem State.withDrift_ctl (s : State) (x : Vector DriftSlot 4) : (s.withDrift x).ctl = s.ctl := rfl
@[simp] theorem State.withDrift_alerts (s : State) (x : Vector DriftSlot 4) : (s.withDrift x).alerts = s.alerts := rfl
@[simp] theorem State.withDrift_work (s : State) (x : Vector DriftSlot 4) : (s.withDrift x).work = s.work := rfl
@[simp] theorem State.withDrift_freeDraws (s : State) (x : Vector DriftSlot 4) : (s.withDrift x).freeDraws = s.freeDraws := rfl
@[simp] theorem State.withDrift_pending (s : State) (x : Vector DriftSlot 4) : (s.withDrift x).pending = s.pending := rfl

@[simp] theorem State.withPages_now (s : State) (x : Vector Page 4) : (s.withPages x).now = s.now := rfl
@[simp] theorem State.withPages_resetHeld (s : State) (x : Vector Page 4) : (s.withPages x).resetHeld = s.resetHeld := rfl
@[simp] theorem State.withPages_idx (s : State) (x : Vector Page 4) : (s.withPages x).idx = s.idx := rfl
@[simp] theorem State.withPages_table (s : State) (x : Vector Page 4) : (s.withPages x).table = s.table := rfl
@[simp] theorem State.withPages_eng (s : State) (x : Vector Page 4) : (s.withPages x).eng = s.eng := rfl
@[simp] theorem State.withPages_drift (s : State) (x : Vector Page 4) : (s.withPages x).drift = s.drift := rfl
@[simp] theorem State.withPages_pages (s : State) (x : Vector Page 4) : (s.withPages x).pages = x := rfl
@[simp] theorem State.withPages_gates (s : State) (x : Vector Page 4) : (s.withPages x).gates = s.gates := rfl
@[simp] theorem State.withPages_link (s : State) (x : Vector Page 4) : (s.withPages x).link = s.link := rfl
@[simp] theorem State.withPages_peers (s : State) (x : Vector Page 4) : (s.withPages x).peers = s.peers := rfl
@[simp] theorem State.withPages_ctl (s : State) (x : Vector Page 4) : (s.withPages x).ctl = s.ctl := rfl
@[simp] theorem State.withPages_alerts (s : State) (x : Vector Page 4) : (s.withPages x).alerts = s.alerts := rfl
@[simp] theorem State.withPages_work (s : State) (x : Vector Page 4) : (s.withPages x).work = s.work := rfl
@[simp] theorem State.withPages_freeDraws (s : State) (x : Vector Page 4) : (s.withPages x).freeDraws = s.freeDraws := rfl
@[simp] theorem State.withPages_pending (s : State) (x : Vector Page 4) : (s.withPages x).pending = s.pending := rfl

@[simp] theorem State.withGates_now (s : State) (x : Gates) : (s.withGates x).now = s.now := rfl
@[simp] theorem State.withGates_resetHeld (s : State) (x : Gates) : (s.withGates x).resetHeld = s.resetHeld := rfl
@[simp] theorem State.withGates_idx (s : State) (x : Gates) : (s.withGates x).idx = s.idx := rfl
@[simp] theorem State.withGates_table (s : State) (x : Gates) : (s.withGates x).table = s.table := rfl
@[simp] theorem State.withGates_eng (s : State) (x : Gates) : (s.withGates x).eng = s.eng := rfl
@[simp] theorem State.withGates_drift (s : State) (x : Gates) : (s.withGates x).drift = s.drift := rfl
@[simp] theorem State.withGates_pages (s : State) (x : Gates) : (s.withGates x).pages = s.pages := rfl
@[simp] theorem State.withGates_gates (s : State) (x : Gates) : (s.withGates x).gates = x := rfl
@[simp] theorem State.withGates_link (s : State) (x : Gates) : (s.withGates x).link = s.link := rfl
@[simp] theorem State.withGates_peers (s : State) (x : Gates) : (s.withGates x).peers = s.peers := rfl
@[simp] theorem State.withGates_ctl (s : State) (x : Gates) : (s.withGates x).ctl = s.ctl := rfl
@[simp] theorem State.withGates_alerts (s : State) (x : Gates) : (s.withGates x).alerts = s.alerts := rfl
@[simp] theorem State.withGates_work (s : State) (x : Gates) : (s.withGates x).work = s.work := rfl
@[simp] theorem State.withGates_freeDraws (s : State) (x : Gates) : (s.withGates x).freeDraws = s.freeDraws := rfl
@[simp] theorem State.withGates_pending (s : State) (x : Gates) : (s.withGates x).pending = s.pending := rfl

@[simp] theorem State.withLink_now (s : State) (x : Link) : (s.withLink x).now = s.now := rfl
@[simp] theorem State.withLink_resetHeld (s : State) (x : Link) : (s.withLink x).resetHeld = s.resetHeld := rfl
@[simp] theorem State.withLink_idx (s : State) (x : Link) : (s.withLink x).idx = s.idx := rfl
@[simp] theorem State.withLink_table (s : State) (x : Link) : (s.withLink x).table = s.table := rfl
@[simp] theorem State.withLink_eng (s : State) (x : Link) : (s.withLink x).eng = s.eng := rfl
@[simp] theorem State.withLink_drift (s : State) (x : Link) : (s.withLink x).drift = s.drift := rfl
@[simp] theorem State.withLink_pages (s : State) (x : Link) : (s.withLink x).pages = s.pages := rfl
@[simp] theorem State.withLink_gates (s : State) (x : Link) : (s.withLink x).gates = s.gates := rfl
@[simp] theorem State.withLink_link (s : State) (x : Link) : (s.withLink x).link = x := rfl
@[simp] theorem State.withLink_peers (s : State) (x : Link) : (s.withLink x).peers = s.peers := rfl
@[simp] theorem State.withLink_ctl (s : State) (x : Link) : (s.withLink x).ctl = s.ctl := rfl
@[simp] theorem State.withLink_alerts (s : State) (x : Link) : (s.withLink x).alerts = s.alerts := rfl
@[simp] theorem State.withLink_work (s : State) (x : Link) : (s.withLink x).work = s.work := rfl
@[simp] theorem State.withLink_freeDraws (s : State) (x : Link) : (s.withLink x).freeDraws = s.freeDraws := rfl
@[simp] theorem State.withLink_pending (s : State) (x : Link) : (s.withLink x).pending = s.pending := rfl

@[simp] theorem State.withPeers_now (s : State) (x : Vector PeerRow 8) : (s.withPeers x).now = s.now := rfl
@[simp] theorem State.withPeers_resetHeld (s : State) (x : Vector PeerRow 8) : (s.withPeers x).resetHeld = s.resetHeld := rfl
@[simp] theorem State.withPeers_idx (s : State) (x : Vector PeerRow 8) : (s.withPeers x).idx = s.idx := rfl
@[simp] theorem State.withPeers_table (s : State) (x : Vector PeerRow 8) : (s.withPeers x).table = s.table := rfl
@[simp] theorem State.withPeers_eng (s : State) (x : Vector PeerRow 8) : (s.withPeers x).eng = s.eng := rfl
@[simp] theorem State.withPeers_drift (s : State) (x : Vector PeerRow 8) : (s.withPeers x).drift = s.drift := rfl
@[simp] theorem State.withPeers_pages (s : State) (x : Vector PeerRow 8) : (s.withPeers x).pages = s.pages := rfl
@[simp] theorem State.withPeers_gates (s : State) (x : Vector PeerRow 8) : (s.withPeers x).gates = s.gates := rfl
@[simp] theorem State.withPeers_link (s : State) (x : Vector PeerRow 8) : (s.withPeers x).link = s.link := rfl
@[simp] theorem State.withPeers_peers (s : State) (x : Vector PeerRow 8) : (s.withPeers x).peers = x := rfl
@[simp] theorem State.withPeers_ctl (s : State) (x : Vector PeerRow 8) : (s.withPeers x).ctl = s.ctl := rfl
@[simp] theorem State.withPeers_alerts (s : State) (x : Vector PeerRow 8) : (s.withPeers x).alerts = s.alerts := rfl
@[simp] theorem State.withPeers_work (s : State) (x : Vector PeerRow 8) : (s.withPeers x).work = s.work := rfl
@[simp] theorem State.withPeers_freeDraws (s : State) (x : Vector PeerRow 8) : (s.withPeers x).freeDraws = s.freeDraws := rfl
@[simp] theorem State.withPeers_pending (s : State) (x : Vector PeerRow 8) : (s.withPeers x).pending = s.pending := rfl

@[simp] theorem State.withCtl_now (s : State) (x : RunControl) : (s.withCtl x).now = s.now := rfl
@[simp] theorem State.withCtl_resetHeld (s : State) (x : RunControl) : (s.withCtl x).resetHeld = s.resetHeld := rfl
@[simp] theorem State.withCtl_idx (s : State) (x : RunControl) : (s.withCtl x).idx = s.idx := rfl
@[simp] theorem State.withCtl_table (s : State) (x : RunControl) : (s.withCtl x).table = s.table := rfl
@[simp] theorem State.withCtl_eng (s : State) (x : RunControl) : (s.withCtl x).eng = s.eng := rfl
@[simp] theorem State.withCtl_drift (s : State) (x : RunControl) : (s.withCtl x).drift = s.drift := rfl
@[simp] theorem State.withCtl_pages (s : State) (x : RunControl) : (s.withCtl x).pages = s.pages := rfl
@[simp] theorem State.withCtl_gates (s : State) (x : RunControl) : (s.withCtl x).gates = s.gates := rfl
@[simp] theorem State.withCtl_link (s : State) (x : RunControl) : (s.withCtl x).link = s.link := rfl
@[simp] theorem State.withCtl_peers (s : State) (x : RunControl) : (s.withCtl x).peers = s.peers := rfl
@[simp] theorem State.withCtl_ctl (s : State) (x : RunControl) : (s.withCtl x).ctl = x := rfl
@[simp] theorem State.withCtl_alerts (s : State) (x : RunControl) : (s.withCtl x).alerts = s.alerts := rfl
@[simp] theorem State.withCtl_work (s : State) (x : RunControl) : (s.withCtl x).work = s.work := rfl
@[simp] theorem State.withCtl_freeDraws (s : State) (x : RunControl) : (s.withCtl x).freeDraws = s.freeDraws := rfl
@[simp] theorem State.withCtl_pending (s : State) (x : RunControl) : (s.withCtl x).pending = s.pending := rfl

@[simp] theorem State.withAlerts_now (s : State) (x : Alerts) : (s.withAlerts x).now = s.now := rfl
@[simp] theorem State.withAlerts_resetHeld (s : State) (x : Alerts) : (s.withAlerts x).resetHeld = s.resetHeld := rfl
@[simp] theorem State.withAlerts_idx (s : State) (x : Alerts) : (s.withAlerts x).idx = s.idx := rfl
@[simp] theorem State.withAlerts_table (s : State) (x : Alerts) : (s.withAlerts x).table = s.table := rfl
@[simp] theorem State.withAlerts_eng (s : State) (x : Alerts) : (s.withAlerts x).eng = s.eng := rfl
@[simp] theorem State.withAlerts_drift (s : State) (x : Alerts) : (s.withAlerts x).drift = s.drift := rfl
@[simp] theorem State.withAlerts_pages (s : State) (x : Alerts) : (s.withAlerts x).pages = s.pages := rfl
@[simp] theorem State.withAlerts_gates (s : State) (x : Alerts) : (s.withAlerts x).gates = s.gates := rfl
@[simp] theorem State.withAlerts_link (s : State) (x : Alerts) : (s.withAlerts x).link = s.link := rfl
@[simp] theorem State.withAlerts_peers (s : State) (x : Alerts) : (s.withAlerts x).peers = s.peers := rfl
@[simp] theorem State.withAlerts_ctl (s : State) (x : Alerts) : (s.withAlerts x).ctl = s.ctl := rfl
@[simp] theorem State.withAlerts_alerts (s : State) (x : Alerts) : (s.withAlerts x).alerts = x := rfl
@[simp] theorem State.withAlerts_work (s : State) (x : Alerts) : (s.withAlerts x).work = s.work := rfl
@[simp] theorem State.withAlerts_freeDraws (s : State) (x : Alerts) : (s.withAlerts x).freeDraws = s.freeDraws := rfl
@[simp] theorem State.withAlerts_pending (s : State) (x : Alerts) : (s.withAlerts x).pending = s.pending := rfl

@[simp] theorem State.withWork_now (s : State) (x : Work) : (s.withWork x).now = s.now := rfl
@[simp] theorem State.withWork_resetHeld (s : State) (x : Work) : (s.withWork x).resetHeld = s.resetHeld := rfl
@[simp] theorem State.withWork_idx (s : State) (x : Work) : (s.withWork x).idx = s.idx := rfl
@[simp] theorem State.withWork_table (s : State) (x : Work) : (s.withWork x).table = s.table := rfl
@[simp] theorem State.withWork_eng (s : State) (x : Work) : (s.withWork x).eng = s.eng := rfl
@[simp] theorem State.withWork_drift (s : State) (x : Work) : (s.withWork x).drift = s.drift := rfl
@[simp] theorem State.withWork_pages (s : State) (x : Work) : (s.withWork x).pages = s.pages := rfl
@[simp] theorem State.withWork_gates (s : State) (x : Work) : (s.withWork x).gates = s.gates := rfl
@[simp] theorem State.withWork_link (s : State) (x : Work) : (s.withWork x).link = s.link := rfl
@[simp] theorem State.withWork_peers (s : State) (x : Work) : (s.withWork x).peers = s.peers := rfl
@[simp] theorem State.withWork_ctl (s : State) (x : Work) : (s.withWork x).ctl = s.ctl := rfl
@[simp] theorem State.withWork_alerts (s : State) (x : Work) : (s.withWork x).alerts = s.alerts := rfl
@[simp] theorem State.withWork_work (s : State) (x : Work) : (s.withWork x).work = x := rfl
@[simp] theorem State.withWork_freeDraws (s : State) (x : Work) : (s.withWork x).freeDraws = s.freeDraws := rfl
@[simp] theorem State.withWork_pending (s : State) (x : Work) : (s.withWork x).pending = s.pending := rfl

@[simp] theorem State.withFreeDraws_now (s : State) (x : Nat) : (s.withFreeDraws x).now = s.now := rfl
@[simp] theorem State.withFreeDraws_resetHeld (s : State) (x : Nat) : (s.withFreeDraws x).resetHeld = s.resetHeld := rfl
@[simp] theorem State.withFreeDraws_idx (s : State) (x : Nat) : (s.withFreeDraws x).idx = s.idx := rfl
@[simp] theorem State.withFreeDraws_table (s : State) (x : Nat) : (s.withFreeDraws x).table = s.table := rfl
@[simp] theorem State.withFreeDraws_eng (s : State) (x : Nat) : (s.withFreeDraws x).eng = s.eng := rfl
@[simp] theorem State.withFreeDraws_drift (s : State) (x : Nat) : (s.withFreeDraws x).drift = s.drift := rfl
@[simp] theorem State.withFreeDraws_pages (s : State) (x : Nat) : (s.withFreeDraws x).pages = s.pages := rfl
@[simp] theorem State.withFreeDraws_gates (s : State) (x : Nat) : (s.withFreeDraws x).gates = s.gates := rfl
@[simp] theorem State.withFreeDraws_link (s : State) (x : Nat) : (s.withFreeDraws x).link = s.link := rfl
@[simp] theorem State.withFreeDraws_peers (s : State) (x : Nat) : (s.withFreeDraws x).peers = s.peers := rfl
@[simp] theorem State.withFreeDraws_ctl (s : State) (x : Nat) : (s.withFreeDraws x).ctl = s.ctl := rfl
@[simp] theorem State.withFreeDraws_alerts (s : State) (x : Nat) : (s.withFreeDraws x).alerts = s.alerts := rfl
@[simp] theorem State.withFreeDraws_work (s : State) (x : Nat) : (s.withFreeDraws x).work = s.work := rfl
@[simp] theorem State.withFreeDraws_freeDraws (s : State) (x : Nat) : (s.withFreeDraws x).freeDraws = x := rfl
@[simp] theorem State.withFreeDraws_pending (s : State) (x : Nat) : (s.withFreeDraws x).pending = s.pending := rfl

@[simp] theorem State.withPending_now (s : State) (x : List Instr) : (s.withPending x).now = s.now := rfl
@[simp] theorem State.withPending_resetHeld (s : State) (x : List Instr) : (s.withPending x).resetHeld = s.resetHeld := rfl
@[simp] theorem State.withPending_idx (s : State) (x : List Instr) : (s.withPending x).idx = s.idx := rfl
@[simp] theorem State.withPending_table (s : State) (x : List Instr) : (s.withPending x).table = s.table := rfl
@[simp] theorem State.withPending_eng (s : State) (x : List Instr) : (s.withPending x).eng = s.eng := rfl
@[simp] theorem State.withPending_drift (s : State) (x : List Instr) : (s.withPending x).drift = s.drift := rfl
@[simp] theorem State.withPending_pages (s : State) (x : List Instr) : (s.withPending x).pages = s.pages := rfl
@[simp] theorem State.withPending_gates (s : State) (x : List Instr) : (s.withPending x).gates = s.gates := rfl
@[simp] theorem State.withPending_link (s : State) (x : List Instr) : (s.withPending x).link = s.link := rfl
@[simp] theorem State.withPending_peers (s : State) (x : List Instr) : (s.withPending x).peers = s.peers := rfl
@[simp] theorem State.withPending_ctl (s : State) (x : List Instr) : (s.withPending x).ctl = s.ctl := rfl
@[simp] theorem State.withPending_alerts (s : State) (x : List Instr) : (s.withPending x).alerts = s.alerts := rfl
@[simp] theorem State.withPending_work (s : State) (x : List Instr) : (s.withPending x).work = s.work := rfl
@[simp] theorem State.withPending_freeDraws (s : State) (x : List Instr) : (s.withPending x).freeDraws = s.freeDraws := rfl
@[simp] theorem State.withPending_pending (s : State) (x : List Instr) : (s.withPending x).pending = x := rfl

/-! ### A second write of one block -/

@[simp] theorem State.withNow_withNow (s : State) (x y : Instant) : (s.withNow x).withNow y = s.withNow y := rfl
@[simp] theorem State.withResetHeld_withResetHeld (s : State) (x y : Bool) : (s.withResetHeld x).withResetHeld y = s.withResetHeld y := rfl
@[simp] theorem State.withIdx_withIdx (s : State) (x y : IndexTracker) : (s.withIdx x).withIdx y = s.withIdx y := rfl
@[simp] theorem State.withTable_withTable (s : State) (x y : UnitTable) : (s.withTable x).withTable y = s.withTable y := rfl
@[simp] theorem State.withEng_withEng (s : State) (x y : Engine) : (s.withEng x).withEng y = s.withEng y := rfl
@[simp] theorem State.withDrift_withDrift (s : State) (x y : Vector DriftSlot 4) : (s.withDrift x).withDrift y = s.withDrift y := rfl
@[simp] theorem State.withPages_withPages (s : State) (x y : Vector Page 4) : (s.withPages x).withPages y = s.withPages y := rfl
@[simp] theorem State.withGates_withGates (s : State) (x y : Gates) : (s.withGates x).withGates y = s.withGates y := rfl
@[simp] theorem State.withLink_withLink (s : State) (x y : Link) : (s.withLink x).withLink y = s.withLink y := rfl
@[simp] theorem State.withPeers_withPeers (s : State) (x y : Vector PeerRow 8) : (s.withPeers x).withPeers y = s.withPeers y := rfl
@[simp] theorem State.withCtl_withCtl (s : State) (x y : RunControl) : (s.withCtl x).withCtl y = s.withCtl y := rfl
@[simp] theorem State.withAlerts_withAlerts (s : State) (x y : Alerts) : (s.withAlerts x).withAlerts y = s.withAlerts y := rfl
@[simp] theorem State.withWork_withWork (s : State) (x y : Work) : (s.withWork x).withWork y = s.withWork y := rfl
@[simp] theorem State.withFreeDraws_withFreeDraws (s : State) (x y : Nat) : (s.withFreeDraws x).withFreeDraws y = s.withFreeDraws y := rfl
@[simp] theorem State.withPending_withPending (s : State) (x y : List Instr) : (s.withPending x).withPending y = s.withPending y := rfl

end Sys2Proof.Machine
end

