-- ==== Sys2Proof/Laws/KeepOps.lean ====
section
/-! SUPPORT. What the shared operations of Ops.lean and Transmit.lean leave as it was: one lemma for each operation and each block (or part of a block) that it does not touch. -/

-- One lemma after the other: elaborated side by side, the lemmas of one operation wait for its unfolding, each on a thread of its own.
set_option Elab.async false

namespace Sys2Proof.Machine

/-- What every step of a fold leaves as it was, the fold leaves as it was. -/
theorem foldl_keeps {α β : Type} (g : State → β) (op : State → α → State) (h : ∀ a x, g (op a x) = g a) (l : List α) (s : State) :
    g (l.foldl op s) = g s := by
  induction l generalizing s with
  | nil => rfl
  | cons x xs ih => rw [List.foldl_cons, ih, h]

@[simp] theorem raise_now (f : AlertFlag) (s : State) : (raise f s).now = s.now := by
  unfold raise; dsimp only; (repeat' split) <;> simp
@[simp] theorem raise_resetHeld (f : AlertFlag) (s : State) : (raise f s).resetHeld = s.resetHeld := by
  unfold raise; dsimp only; (repeat' split) <;> simp
@[simp] theorem raise_idx (f : AlertFlag) (s : State) : (raise f s).idx = s.idx := by
  unfold raise; dsimp only; (repeat' split) <;> simp
@[simp] theorem raise_table (f : AlertFlag) (s : State) : (raise f s).table = s.table := by
  unfold raise; dsimp only; (repeat' split) <;> simp
@[simp] theorem raise_eng (f : AlertFlag) (s : State) : (raise f s).eng = s.eng := by
  unfold raise; dsimp only; (repeat' split) <;> simp
@[simp] theorem raise_drift (f : AlertFlag) (s : State) : (raise f s).drift = s.drift := by
  unfold raise; dsimp only; (repeat' split) <;> simp
@[simp] theorem raise_pages (f : AlertFlag) (s : State) : (raise f s).pages = s.pages := by
  unfold raise; dsimp only; (repeat' split) <;> simp
@[simp] theorem raise_gates (f : AlertFlag) (s : State) : (raise f s).gates = s.gates := by
  unfold raise; dsimp only; (repeat' split) <;> simp
@[simp] theorem raise_link (f : AlertFlag) (s : State) : (raise f s).link = s.link := by
  unfold raise; dsimp only; (repeat' split) <;> simp
@[simp] theorem raise_peers (f : AlertFlag) (s : State) : (raise f s).peers = s.peers := by
  unfold raise; dsimp only; (repeat' split) <;> simp
@[simp] theorem raise_ctl (f : AlertFlag) (s : State) : (raise f s).ctl = s.ctl := by
  unfold raise; dsimp only; (repeat' split) <;> simp
@[simp] theorem raise_alerts_mask (f : AlertFlag) (s : State) : (raise f s).alerts.mask = s.alerts.mask := by
  unfold raise; dsimp only; (repeat' split) <;> simp
@[simp] theorem raise_alerts_master (f : AlertFlag) (s : State) : (raise f s).alerts.master = s.alerts.master := by
  unfold raise; dsimp only; (repeat' split) <;> simp
@[simp] theorem raise_work_units (f : AlertFlag) (s : State) : (raise f s).work.units = s.work.units := by
  unfold raise; dsimp only; (repeat' split) <;> simp
@[simp] theorem raise_work_status (f : AlertFlag) (s : State) : (raise f s).work.status = s.work.status := by
  unfold raise; dsimp only; (repeat' split) <;> simp
@[simp] theorem raise_freeDraws (f : AlertFlag) (s : State) : (raise f s).freeDraws = s.freeDraws := by
  unfold raise; dsimp only; (repeat' split) <;> simp
@[simp] theorem raise_pending (f : AlertFlag) (s : State) : (raise f s).pending = s.pending := by
  unfold raise; dsimp only; (repeat' split) <;> simp
@[simp] theorem raiseIf_now (c : Bool) (f : AlertFlag) (s : State) : (raiseIf c f s).now = s.now := by
  unfold raiseIf; split <;> simp
@[simp] theorem raiseIf_resetHeld (c : Bool) (f : AlertFlag) (s : State) : (raiseIf c f s).resetHeld = s.resetHeld := by
  unfold raiseIf; split <;> simp
@[simp] theorem raiseIf_idx (c : Bool) (f : AlertFlag) (s : State) : (raiseIf c f s).idx = s.idx := by
  unfold raiseIf; split <;> simp
@[simp] theorem raiseIf_table (c : Bool) (f : AlertFlag) (s : State) : (raiseIf c f s).table = s.table := by
  unfold raiseIf; split <;> simp
@[simp] theorem raiseIf_eng (c : Bool) (f : AlertFlag) (s : State) : (raiseIf c f s).eng = s.eng := by
  unfold raiseIf; split <;> simp
@[simp] theorem raiseIf_drift (c : Bool) (f : AlertFlag) (s : State) : (raiseIf c f s).drift = s.drift := by
  unfold raiseIf; split <;> simp
@[simp] theorem raiseIf_pages (c : Bool) (f : AlertFlag) (s : State) : (raiseIf c f s).pages = s.pages := by
  unfold raiseIf; split <;> simp
@[simp] theorem raiseIf_gates (c : Bool) (f : AlertFlag) (s : State) : (raiseIf c f s).gates = s.gates := by
  unfold raiseIf; split <;> simp
@[simp] theorem raiseIf_link (c : Bool) (f : AlertFlag) (s : State) : (raiseIf c f s).link = s.link := by
  unfold raiseIf; split <;> simp
@[simp] theorem raiseIf_peers (c : Bool) (f : AlertFlag) (s : State) : (raiseIf c f s).peers = s.peers := by
  unfold raiseIf; split <;> simp
@[simp] theorem raiseIf_ctl (c : Bool) (f : AlertFlag) (s : State) : (raiseIf c f s).ctl = s.ctl := by
  unfold raiseIf; split <;> simp
@[simp] theorem raiseIf_alerts_mask (c : Bool) (f : AlertFlag) (s : State) : (raiseIf c f s).alerts.mask = s.alerts.mask := by
  unfold raiseIf; split <;> simp
@[simp] theorem raiseIf_alerts_master (c : Bool) (f : AlertFlag) (s : State) : (raiseIf c f s).alerts.master = s.alerts.master := by
  unfold raiseIf; split <;> simp
@[simp] theorem raiseIf_work_units (c : Bool) (f : AlertFlag) (s : State) : (raiseIf c f s).work.units = s.work.units := by
  unfold raiseIf; split <;> simp
@[simp] theorem raiseIf_work_status (c : Bool) (f : AlertFlag) (s : State) : (raiseIf c f s).work.status = s.work.status := by
  unfold raiseIf; split <;> simp
@[simp] theorem raiseIf_freeDraws (c : Bool) (f : AlertFlag) (s : State) : (raiseIf c f s).freeDraws = s.freeDraws := by
  unfold raiseIf; split <;> simp
@[simp] theorem raiseIf_pending (c : Bool) (f : AlertFlag) (s : State) : (raiseIf c f s).pending = s.pending := by
  unfold raiseIf; split <;> simp
@[simp] theorem setMeasReq_now (b : Bool) (s : State) : (setMeasReq b s).now = s.now := by simp [setMeasReq]
@[simp] theorem setMeasReq_resetHeld (b : Bool) (s : State) : (setMeasReq b s).resetHeld = s.resetHeld := by simp [setMeasReq]
@[simp] theorem setMeasReq_idx_count (b : Bool) (s : State) : (setMeasReq b s).idx.count = s.idx.count := by simp [setMeasReq]
@[simp] theorem setMeasReq_idx_lastIndex (b : Bool) (s : State) : (setMeasReq b s).idx.lastIndex = s.idx.lastIndex := by simp [setMeasReq]
@[simp] theorem setMeasReq_idx_retireLimit (b : Bool) (s : State) : (setMeasReq b s).idx.retireLimit = s.idx.retireLimit := by simp [setMeasReq]
@[simp] theorem setMeasReq_idx_currentPage (b : Bool) (s : State) : (setMeasReq b s).idx.currentPage = s.idx.currentPage := by simp [setMeasReq]
@[simp] theorem setMeasReq_idx_firingReq (b : Bool) (s : State) : (setMeasReq b s).idx.firingReq = s.idx.firingReq := by simp [setMeasReq]
@[simp] theorem setMeasReq_table (b : Bool) (s : State) : (setMeasReq b s).table = s.table := by simp [setMeasReq]
@[simp] theorem setMeasReq_eng (b : Bool) (s : State) : (setMeasReq b s).eng = s.eng := by simp [setMeasReq]
@[simp] theorem setMeasReq_drift (b : Bool) (s : State) : (setMeasReq b s).drift = s.drift := by simp [setMeasReq]
@[simp] theorem setMeasReq_pages (b : Bool) (s : State) : (setMeasReq b s).pages = s.pages := by simp [setMeasReq]
@[simp] theorem setMeasReq_gates (b : Bool) (s : State) : (setMeasReq b s).gates = s.gates := by simp [setMeasReq]
@[simp] theorem setMeasReq_link (b : Bool) (s : State) : (setMeasReq b s).link = s.link := by simp [setMeasReq]
@[simp] theorem setMeasReq_peers (b : Bool) (s : State) : (setMeasReq b s).peers = s.peers := by simp [setMeasReq]
@[simp] theorem setMeasReq_ctl (b : Bool) (s : State) : (setMeasReq b s).ctl = s.ctl := by simp [setMeasReq]
@[simp] theorem setMeasReq_alerts (b : Bool) (s : State) : (setMeasReq b s).alerts = s.alerts := by simp [setMeasReq]
@[simp] theorem setMeasReq_work (b : Bool) (s : State) : (setMeasReq b s).work = s.work := by simp [setMeasReq]
@[simp] theorem setMeasReq_freeDraws (b : Bool) (s : State) : (setMeasReq b s).freeDraws = s.freeDraws := by simp [setMeasReq]
@[simp] theorem setMeasReq_pending (b : Bool) (s : State) : (setMeasReq b s).pending = s.pending := by simp [setMeasReq]
@[simp] theorem setFiringReq_now (b : Bool) (s : State) : (setFiringReq b s).now = s.now := by simp [setFiringReq]
@[simp] theorem setFiringReq_resetHeld (b : Bool) (s : State) : (setFiringReq b s).resetHeld = s.resetHeld := by simp [setFiringReq]
@[simp] theorem setFiringReq_idx_count (b : Bool) (s : State) : (setFiringReq b s).idx.count = s.idx.count := by simp [setFiringReq]
@[simp] theorem setFiringReq_idx_lastIndex (b : Bool) (s : State) : (setFiringReq b s).idx.lastIndex = s.idx.lastIndex := by simp [setFiringReq]
@[simp] theorem setFiringReq_idx_retireLimit (b : Bool) (s : State) : (setFiringReq b s).idx.retireLimit = s.idx.retireLimit := by simp [setFiringReq]
@[simp] theorem setFiringReq_idx_currentPage (b : Bool) (s : State) : (setFiringReq b s).idx.currentPage = s.idx.currentPage := by simp [setFiringReq]
@[simp] theorem setFiringReq_idx_measReq (b : Bool) (s : State) : (setFiringReq b s).idx.measReq = s.idx.measReq := by simp [setFiringReq]
@[simp] theorem setFiringReq_table (b : Bool) (s : State) : (setFiringReq b s).table = s.table := by simp [setFiringReq]
@[simp] theorem setFiringReq_eng (b : Bool) (s : State) : (setFiringReq b s).eng = s.eng := by simp [setFiringReq]
@[simp] theorem setFiringReq_drift (b : Bool) (s : State) : (setFiringReq b s).drift = s.drift := by simp [setFiringReq]
@[simp] theorem setFiringReq_pages (b : Bool) (s : State) : (setFiringReq b s).pages = s.pages := by simp [setFiringReq]
@[simp] theorem setFiringReq_gates (b : Bool) (s : State) : (setFiringReq b s).gates = s.gates := by simp [setFiringReq]
@[simp] theorem setFiringReq_link (b : Bool) (s : State) : (setFiringReq b s).link = s.link := by simp [setFiringReq]
@[simp] theorem setFiringReq_peers (b : Bool) (s : State) : (setFiringReq b s).peers = s.peers := by simp [setFiringReq]
@[simp] theorem setFiringReq_ctl (b : Bool) (s : State) : (setFiringReq b s).ctl = s.ctl := by simp [setFiringReq]
@[simp] theorem setFiringReq_alerts (b : Bool) (s : State) : (setFiringReq b s).alerts = s.alerts := by simp [setFiringReq]
@[simp] theorem setFiringReq_work (b : Bool) (s : State) : (setFiringReq b s).work = s.work := by simp [setFiringReq]
@[simp] theorem setFiringReq_freeDraws (b : Bool) (s : State) : (setFiringReq b s).freeDraws = s.freeDraws := by simp [setFiringReq]
@[simp] theorem setFiringReq_pending (b : Bool) (s : State) : (setFiringReq b s).pending = s.pending := by simp [setFiringReq]
@[simp] theorem offerUnit_now (f : QFrame) (s : State) : (offerUnit f s).now = s.now := by simp [offerUnit]
@[simp] theorem offerUnit_resetHeld (f : QFrame) (s : State) : (offerUnit f s).resetHeld = s.resetHeld := by simp [offerUnit]
@[simp] theorem offerUnit_idx (f : QFrame) (s : State) : (offerUnit f s).idx = s.idx := by simp [offerUnit]
@[simp] theorem offerUnit_table (f : QFrame) (s : State) : (offerUnit f s).table = s.table := by simp [offerUnit]
@[simp] theorem offerUnit_eng (f : QFrame) (s : State) : (offerUnit f s).eng = s.eng := by simp [offerUnit]
@[simp] theorem offerUnit_drift (f : QFrame) (s : State) : (offerUnit f s).drift = s.drift := by simp [offerUnit]
@[simp] theorem offerUnit_pages (f : QFrame) (s : State) : (offerUnit f s).pages = s.pages := by simp [offerUnit]
@[simp] theorem offerUnit_gates (f : QFrame) (s : State) : (offerUnit f s).gates = s.gates := by simp [offerUnit]
@[simp] theorem offerUnit_link (f : QFrame) (s : State) : (offerUnit f s).link = s.link := by simp [offerUnit]
@[simp] theorem offerUnit_peers (f : QFrame) (s : State) : (offerUnit f s).peers = s.peers := by simp [offerUnit]
@[simp] theorem offerUnit_ctl (f : QFrame) (s : State) : (offerUnit f s).ctl = s.ctl := by simp [offerUnit]
@[simp] theorem offerUnit_alerts (f : QFrame) (s : State) : (offerUnit f s).alerts = s.alerts := by simp [offerUnit]
@[simp] theorem offerUnit_work_status (f : QFrame) (s : State) : (offerUnit f s).work.status = s.work.status := by simp [offerUnit]
@[simp] theorem offerUnit_freeDraws (f : QFrame) (s : State) : (offerUnit f s).freeDraws = s.freeDraws := by simp [offerUnit]
@[simp] theorem offerUnit_pending (f : QFrame) (s : State) : (offerUnit f s).pending = s.pending := by simp [offerUnit]
@[simp] theorem offerStatus_now (bodies : List (List Cell)) (s : State) : (offerStatus bodies s).now = s.now := by simp [offerStatus]
@[simp] theorem offerStatus_resetHeld (bodies : List (List Cell)) (s : State) : (offerStatus bodies s).resetHeld = s.resetHeld := by simp [offerStatus]
@[simp] theorem offerStatus_idx (bodies : List (List Cell)) (s : State) : (offerStatus bodies s).idx = s.idx := by simp [offerStatus]
@[simp] theorem offerStatus_table (bodies : List (List Cell)) (s : State) : (offerStatus bodies s).table = s.table := by simp [offerStatus]
@[simp] theorem offerStatus_eng (bodies : List (List Cell)) (s : State) : (offerStatus bodies s).eng = s.eng := by simp [offerStatus]
@[simp] theorem offerStatus_drift (bodies : List (List Cell)) (s : State) : (offerStatus bodies s).drift = s.drift := by simp [offerStatus]
@[simp] theorem offerStatus_pages (bodies : List (List Cell)) (s : State) : (offerStatus bodies s).pages = s.pages := by simp [offerStatus]
@[simp] theorem offerStatus_gates (bodies : List (List Cell)) (s : State) : (offerStatus bodies s).gates = s.gates := by simp [offerStatus]
@[simp] theorem offerStatus_link (bodies : List (List Cell)) (s : State) : (offerStatus bodies s).link = s.link := by simp [offerStatus]
@[simp] theorem offerStatus_peers (bodies : List (List Cell)) (s : State) : (offerStatus bodies s).peers = s.peers := by simp [offerStatus]
@[simp] theorem offerStatus_ctl (bodies : List (List Cell)) (s : State) : (offerStatus bodies s).ctl = s.ctl := by simp [offerStatus]
@[simp] theorem offerStatus_alerts (bodies : List (List Cell)) (s : State) : (offerStatus bodies s).alerts = s.alerts := by simp [offerStatus]
@[simp] theorem offerStatus_work_units (bodies : List (List Cell)) (s : State) : (offerStatus bodies s).work.units = s.work.units := by simp [offerStatus]
@[simp] theorem offerStatus_freeDraws (bodies : List (List Cell)) (s : State) : (offerStatus bodies s).freeDraws = s.freeDraws := by simp [offerStatus]
@[simp] theorem offerStatus_pending (bodies : List (List Cell)) (s : State) : (offerStatus bodies s).pending = s.pending := by simp [offerStatus]
@[simp] theorem offerHail_now (s : State) : (offerHail s).now = s.now := by simp [offerHail]
@[simp] theorem offerHail_resetHeld (s : State) : (offerHail s).resetHeld = s.resetHeld := by simp [offerHail]
@[simp] theorem offerHail_idx (s : State) : (offerHail s).idx = s.idx := by simp [offerHail]
@[simp] theorem offerHail_table (s : State) : (offerHail s).table = s.table := by simp [offerHail]
@[simp] theorem offerHail_eng (s : State) : (offerHail s).eng = s.eng := by simp [offerHail]
@[simp] theorem offerHail_drift (s : State) : (offerHail s).drift = s.drift := by simp [offerHail]
@[simp] theorem offerHail_pages (s : State) : (offerHail s).pages = s.pages := by simp [offerHail]
@[simp] theorem offerHail_gates (s : State) : (offerHail s).gates = s.gates := by simp [offerHail]
@[simp] theorem offerHail_link (s : State) : (offerHail s).link = s.link := by simp [offerHail]
@[simp] theorem offerHail_peers (s : State) : (offerHail s).peers = s.peers := by simp [offerHail]
@[simp] theorem offerHail_ctl_node (s : State) : (offerHail s).ctl.node = s.ctl.node := by simp [offerHail]
@[simp] theorem offerHail_ctl_role (s : State) : (offerHail s).ctl.role = s.ctl.role := by simp [offerHail]
@[simp] theorem offerHail_ctl_run (s : State) : (offerHail s).ctl.run = s.ctl.run := by simp [offerHail]
@[simp] theorem offerHail_ctl_faultReason (s : State) : (offerHail s).ctl.faultReason = s.ctl.faultReason := by simp [offerHail]
@[simp] theorem offerHail_ctl_drain (s : State) : (offerHail s).ctl.drain = s.ctl.drain := by simp [offerHail]
@[simp] theorem offerHail_ctl_activity (s : State) : (offerHail s).ctl.activity = s.ctl.activity := by simp [offerHail]
@[simp] theorem offerHail_ctl_cause (s : State) : (offerHail s).ctl.cause = s.ctl.cause := by simp [offerHail]
@[simp] theorem offerHail_ctl_listenDue (s : State) : (offerHail s).ctl.listenDue = s.ctl.listenDue := by simp [offerHail]
@[simp] theorem offerHail_ctl_items (s : State) : (offerHail s).ctl.items = s.ctl.items := by simp [offerHail]
@[simp] theorem offerHail_alerts (s : State) : (offerHail s).alerts = s.alerts := by simp [offerHail]
@[simp] theorem offerHail_work_units (s : State) : (offerHail s).work.units = s.work.units := by simp [offerHail]
@[simp] theorem offerHail_work_status (s : State) : (offerHail s).work.status = s.work.status := by simp [offerHail]
@[simp] theorem offerHail_freeDraws (s : State) : (offerHail s).freeDraws = s.freeDraws := by simp [offerHail]
@[simp] theorem offerHail_pending (s : State) : (offerHail s).pending = s.pending := by simp [offerHail]
@[simp] theorem setStation_now (st : StationState) (drain : Bool) (s : State) : (setStation st drain s).now = s.now := by
  unfold setStation; dsimp only; (repeat' split) <;> simp
@[simp] theorem setStation_resetHeld (st : StationState) (drain : Bool) (s : State) : (setStation st drain s).resetHeld = s.resetHeld := by
  unfold setStation; dsimp only; (repeat' split) <;> simp
@[simp] theorem setStation_idx (st : StationState) (drain : Bool) (s : State) : (setStation st drain s).idx = s.idx := by
  unfold setStation; dsimp only; (repeat' split) <;> simp
@[simp] theorem setStation_table (st : StationState) (drain : Bool) (s : State) : (setStation st drain s).table = s.table := by
  unfold setStation; dsimp only; (repeat' split) <;> simp
@[simp] theorem setStation_eng (st : StationState) (drain : Bool) (s : State) : (setStation st drain s).eng = s.eng := by
  unfold setStation; dsimp only; (repeat' split) <;> simp
@[simp] theorem setStation_drift (st : StationState) (drain : Bool) (s : State) : (setStation st drain s).drift = s.drift := by
  unfold setStation; dsimp only; (repeat' split) <;> simp
@[simp] theorem setStation_pages (st : StationState) (drain : Bool) (s : State) : (setStation st drain s).pages = s.pages := by
  unfold setStation; dsimp only; (repeat' split) <;> simp
@[simp] theorem setStation_gates (st : StationState) (drain : Bool) (s : State) : (setStation st drain s).gates = s.gates := by
  unfold setStation; dsimp only; (repeat' split) <;> simp
@[simp] theorem setStation_link (st : StationState) (drain : Bool) (s : State) : (setStation st drain s).link = s.link := by
  unfold setStation; dsimp only; (repeat' split) <;> simp
@[simp] theorem setStation_peers (st : StationState) (drain : Bool) (s : State) : (setStation st drain s).peers = s.peers := by
  unfold setStation; dsimp only; (repeat' split) <;> simp
@[simp] theorem setStation_ctl_node (st : StationState) (drain : Bool) (s : State) : (setStation st drain s).ctl.node = s.ctl.node := by
  unfold setStation; dsimp only; (repeat' split) <;> simp
@[simp] theorem setStation_ctl_role (st : StationState) (drain : Bool) (s : State) : (setStation st drain s).ctl.role = s.ctl.role := by
  unfold setStation; dsimp only; (repeat' split) <;> simp
@[simp] theorem setStation_ctl_faultReason (st : StationState) (drain : Bool) (s : State) : (setStation st drain s).ctl.faultReason = s.ctl.faultReason := by
  unfold setStation; dsimp only; (repeat' split) <;> simp
@[simp] theorem setStation_ctl_activity (st : StationState) (drain : Bool) (s : State) : (setStation st drain s).ctl.activity = s.ctl.activity := by
  unfold setStation; dsimp only; (repeat' split) <;> simp
@[simp] theorem setStation_ctl_cause (st : StationState) (drain : Bool) (s : State) : (setStation st drain s).ctl.cause = s.ctl.cause := by
  unfold setStation; dsimp only; (repeat' split) <;> simp
@[simp] theorem setStation_ctl_listenDue (st : StationState) (drain : Bool) (s : State) : (setStation st drain s).ctl.listenDue = s.ctl.listenDue := by
  unfold setStation; dsimp only; (repeat' split) <;> simp
@[simp] theorem setStation_ctl_items (st : StationState) (drain : Bool) (s : State) : (setStation st drain s).ctl.items = s.ctl.items := by
  unfold setStation; dsimp only; (repeat' split) <;> simp
@[simp] theorem setStation_alerts (st : StationState) (drain : Bool) (s : State) : (setStation st drain s).alerts = s.alerts := by
  unfold setStation; dsimp only; (repeat' split) <;> simp
@[simp] theorem setStation_work_units (st : StationState) (drain : Bool) (s : State) : (setStation st drain s).work.units = s.work.units := by
  unfold setStation; dsimp only; (repeat' split) <;> simp
@[simp] theorem setStation_work_status (st : StationState) (drain : Bool) (s : State) : (setStation st drain s).work.status = s.work.status := by
  unfold setStation; dsimp only; (repeat' split) <;> simp
@[simp] theorem setStation_freeDraws (st : StationState) (drain : Bool) (s : State) : (setStation st drain s).freeDraws = s.freeDraws := by
  unfold setStation; dsimp only; (repeat' split) <;> simp
@[simp] theorem setStation_pending (st : StationState) (drain : Bool) (s : State) : (setStation st drain s).pending = s.pending := by
  unfold setStation; dsimp only; (repeat' split) <;> simp
@[simp] theorem setActivity_now (a : Activity) (s : State) : (setActivity a s).now = s.now := by
  unfold setActivity; split <;> simp
@[simp] theorem setActivity_resetHeld (a : Activity) (s : State) : (setActivity a s).resetHeld = s.resetHeld := by
  unfold setActivity; split <;> simp
@[simp] theorem setActivity_idx (a : Activity) (s : State) : (setActivity a s).idx = s.idx := by
  unfold setActivity; split <;> simp
@[simp] theorem setActivity_table (a : Activity) (s : State) : (setActivity a s).table = s.table := by
  unfold setActivity; split <;> simp
@[simp] theorem setActivity_eng (a : Activity) (s : State) : (setActivity a s).eng = s.eng := by
  unfold setActivity; split <;> simp
@[simp] theorem setActivity_drift (a : Activity) (s : State) : (setActivity a s).drift = s.drift := by
  unfold setActivity; split <;> simp
@[simp] theorem setActivity_pages (a : Activity) (s : State) : (setActivity a s).pages = s.pages := by
  unfold setActivity; split <;> simp
@[simp] theorem setActivity_gates (a : Activity) (s : State) : (setActivity a s).gates = s.gates := by
  unfold setActivity; split <;> simp
@[simp] theorem setActivity_link (a : Activity) (s : State) : (setActivity a s).link = s.link := by
  unfold setActivity; split <;> simp
@[simp] theorem setActivity_peers (a : Activity) (s : State) : (setActivity a s).peers = s.peers := by
  unfold setActivity; split <;> simp
@[simp] theorem setActivity_ctl_node (a : Activity) (s : State) : (setActivity a s).ctl.node = s.ctl.node := by
  unfold setActivity; split <;> simp
@[simp] theorem setActivity_ctl_role (a : Activity) (s : State) : (setActivity a s).ctl.role = s.ctl.role := by
  unfold setActivity; split <;> simp
@[simp] theorem setActivity_ctl_run (a : Activity) (s : State) : (setActivity a s).ctl.run = s.ctl.run := by
  unfold setActivity; split <;> simp
@[simp] theorem setActivity_ctl_faultReason (a : Activity) (s : State) : (setActivity a s).ctl.faultReason = s.ctl.faultReason := by
  unfold setActivity; split <;> simp
@[simp] theorem setActivity_ctl_drain (a : Activity) (s : State) : (setActivity a s).ctl.drain = s.ctl.drain := by
  unfold setActivity; split <;> simp
@[simp] theorem setActivity_ctl_cause (a : Activity) (s : State) : (setActivity a s).ctl.cause = s.ctl.cause := by
  unfold setActivity; split <;> simp
@[simp] theorem setActivity_ctl_listenDue (a : Activity) (s : State) : (setActivity a s).ctl.listenDue = s.ctl.listenDue := by
  unfold setActivity; split <;> simp
@[simp] theorem setActivity_ctl_items (a : Activity) (s : State) : (setActivity a s).ctl.items = s.ctl.items := by
  unfold setActivity; split <;> simp
@[simp] theorem setActivity_alerts (a : Activity) (s : State) : (setActivity a s).alerts = s.alerts := by
  unfold setActivity; split <;> simp
@[simp] theorem setActivity_work_units (a : Activity) (s : State) : (setActivity a s).work.units = s.work.units := by
  unfold setActivity; split <;> simp
@[simp] theorem setActivity_work_status (a : Activity) (s : State) : (setActivity a s).work.status = s.work.status := by
  unfold setActivity; split <;> simp
@[simp] theorem setActivity_freeDraws (a : Activity) (s : State) : (setActivity a s).freeDraws = s.freeDraws := by
  unfold setActivity; split <;> simp
@[simp] theorem setActivity_pending (a : Activity) (s : State) : (setActivity a s).pending = s.pending := by
  unfold setActivity; split <;> simp
@[simp] theorem keepQueued_now (keep : QItem → Bool) (s : State) : (keepQueued keep s).now = s.now := by simp [keepQueued]
@[simp] theorem keepQueued_resetHeld (keep : QItem → Bool) (s : State) : (keepQueued keep s).resetHeld = s.resetHeld := by simp [keepQueued]
@[simp] theorem keepQueued_idx (keep : QItem → Bool) (s : State) : (keepQueued keep s).idx = s.idx := by simp [keepQueued]
@[simp] theorem keepQueued_table (keep : QItem → Bool) (s : State) : (keepQueued keep s).table = s.table := by simp [keepQueued]
@[simp] theorem keepQueued_eng (keep : QItem → Bool) (s : State) : (keepQueued keep s).eng = s.eng := by simp [keepQueued]
@[simp] theorem keepQueued_drift (keep : QItem → Bool) (s : State) : (keepQueued keep s).drift = s.drift := by simp [keepQueued]
@[simp] theorem keepQueued_pages (keep : QItem → Bool) (s : State) : (keepQueued keep s).pages = s.pages := by simp [keepQueued]
@[simp] theorem keepQueued_gates (keep : QItem → Bool) (s : State) : (keepQueued keep s).gates = s.gates := by simp [keepQueued]
@[simp] theorem keepQueued_link_lineIdle (keep : QItem → Bool) (s : State) : (keepQueued keep s).link.lineIdle = s.link.lineIdle := by simp [keepQueued]
@[simp] theorem keepQueued_link_quietSince (keep : QItem → Bool) (s : State) : (keepQueued keep s).link.quietSince = s.link.quietSince := by simp [keepQueued]
@[simp] theorem keepQueued_link_deferral (keep : QItem → Bool) (s : State) : (keepQueued keep s).link.deferral = s.link.deferral := by simp [keepQueued]
@[simp] theorem keepQueued_link_lastSender (keep : QItem → Bool) (s : State) : (keepQueued keep s).link.lastSender = s.link.lastSender := by simp [keepQueued]
@[simp] theorem keepQueued_peers (keep : QItem → Bool) (s : State) : (keepQueued keep s).peers = s.peers := by simp [keepQueued]
@[simp] theorem keepQueued_ctl (keep : QItem → Bool) (s : State) : (keepQueued keep s).ctl = s.ctl := by simp [keepQueued]
@[simp] theorem keepQueued_alerts (keep : QItem → Bool) (s : State) : (keepQueued keep s).alerts = s.alerts := by simp [keepQueued]
@[simp] theorem keepQueued_work (keep : QItem → Bool) (s : State) : (keepQueued keep s).work = s.work := by simp [keepQueued]
@[simp] theorem keepQueued_freeDraws (keep : QItem → Bool) (s : State) : (keepQueued keep s).freeDraws = s.freeDraws := by simp [keepQueued]
@[simp] theorem keepQueued_pending (keep : QItem → Bool) (s : State) : (keepQueued keep s).pending = s.pending := by simp [keepQueued]
@[simp] theorem countReason_now (place : Fin 15) (n : Nat) (s : State) : (countReason place n s).now = s.now := by simp [countReason]
@[simp] theorem countReason_resetHeld (place : Fin 15) (n : Nat) (s : State) : (countReason place n s).resetHeld = s.resetHeld := by simp [countReason]
@[simp] theorem countReason_idx (place : Fin 15) (n : Nat) (s : State) : (countReason place n s).idx = s.idx := by simp [countReason]
@[simp] theorem countReason_table (place : Fin 15) (n : Nat) (s : State) : (countReason place n s).table = s.table := by simp [countReason]
@[simp] theorem countReason_eng (place : Fin 15) (n : Nat) (s : State) : (countReason place n s).eng = s.eng := by simp [countReason]
@[simp] theorem countReason_drift (place : Fin 15) (n : Nat) (s : State) : (countReason place n s).drift = s.drift := by simp [countReason]
@[simp] theorem countReason_pages (place : Fin 15) (n : Nat) (s : State) : (countReason place n s).pages = s.pages := by simp [countReason]
@[simp] theorem countReason_gates_firings (place : Fin 15) (n : Nat) (s : State) : (countReason place n s).gates.firings = s.gates.firings := by simp [countReason]
@[simp] theorem countReason_gates_drivers (place : Fin 15) (n : Nat) (s : State) : (countReason place n s).gates.drivers = s.gates.drivers := by simp [countReason]
@[simp] theorem countReason_gates_binTallies (place : Fin 15) (n : Nat) (s : State) : (countReason place n s).gates.binTallies = s.gates.binTallies := by simp [countReason]
@[simp] theorem countReason_link (place : Fin 15) (n : Nat) (s : State) : (countReason place n s).link = s.link := by simp [countReason]
@[simp] theorem countReason_peers (place : Fin 15) (n : Nat) (s : State) : (countReason place n s).peers = s.peers := by simp [countReason]
@[simp] theorem countReason_ctl (place : Fin 15) (n : Nat) (s : State) : (countReason place n s).ctl = s.ctl := by simp [countReason]
@[simp] theorem countReason_alerts (place : Fin 15) (n : Nat) (s : State) : (countReason place n s).alerts = s.alerts := by simp [countReason]
@[simp] theorem countReason_work (place : Fin 15) (n : Nat) (s : State) : (countReason place n s).work = s.work := by simp [countReason]
@[simp] theorem countReason_freeDraws (place : Fin 15) (n : Nat) (s : State) : (countReason place n s).freeDraws = s.freeDraws := by simp [countReason]
@[simp] theorem countReason_pending (place : Fin 15) (n : Nat) (s : State) : (countReason place n s).pending = s.pending := by simp [countReason]
@[simp] theorem setBinTally_now (p : Fin 4) (b : Fin 16) (v : BitVec 16) (s : State) : (setBinTally p b v s).now = s.now := by simp [setBinTally]
@[simp] theorem setBinTally_resetHeld (p : Fin 4) (b : Fin 16) (v : BitVec 16) (s : State) : (setBinTally p b v s).resetHeld = s.resetHeld := by simp [setBinTally]
@[simp] theorem setBinTally_idx (p : Fin 4) (b : Fin 16) (v : BitVec 16) (s : State) : (setBinTally p b v s).idx = s.idx := by simp [setBinTally]
@[simp] theorem setBinTally_table (p : Fin 4) (b : Fin 16) (v : BitVec 16) (s : State) : (setBinTally p b v s).table = s.table := by simp [setBinTally]
@[simp] theorem setBinTally_eng (p : Fin 4) (b : Fin 16) (v : BitVec 16) (s : State) : (setBinTally p b v s).eng = s.eng := by simp [setBinTally]
@[simp] theorem setBinTally_drift (p : Fin 4) (b : Fin 16) (v : BitVec 16) (s : State) : (setBinTally p b v s).drift = s.drift := by simp [setBinTally]
@[simp] theorem setBinTally_pages (p : Fin 4) (b : Fin 16) (v : BitVec 16) (s : State) : (setBinTally p b v s).pages = s.pages := by simp [setBinTally]
@[simp] theorem setBinTally_gates_firings (p : Fin 4) (b : Fin 16) (v : BitVec 16) (s : State) : (setBinTally p b v s).gates.firings = s.gates.firings := by simp [setBinTally]
@[simp] theorem setBinTally_gates_drivers (p : Fin 4) (b : Fin 16) (v : BitVec 16) (s : State) : (setBinTally p b v s).gates.drivers = s.gates.drivers := by simp [setBinTally]
@[simp] theorem setBinTally_gates_reasonTallies (p : Fin 4) (b : Fin 16) (v : BitVec 16) (s : State) : (setBinTally p b v s).gates.reasonTallies = s.gates.reasonTallies := by simp [setBinTally]
@[simp] theorem setBinTally_link (p : Fin 4) (b : Fin 16) (v : BitVec 16) (s : State) : (setBinTally p b v s).link = s.link := by simp [setBinTally]
@[simp] theorem setBinTally_peers (p : Fin 4) (b : Fin 16) (v : BitVec 16) (s : State) : (setBinTally p b v s).peers = s.peers := by simp [setBinTally]
@[simp] theorem setBinTally_ctl (p : Fin 4) (b : Fin 16) (v : BitVec 16) (s : State) : (setBinTally p b v s).ctl = s.ctl := by simp [setBinTally]
@[simp] theorem setBinTally_alerts (p : Fin 4) (b : Fin 16) (v : BitVec 16) (s : State) : (setBinTally p b v s).alerts = s.alerts := by simp [setBinTally]
@[simp] theorem setBinTally_work (p : Fin 4) (b : Fin 16) (v : BitVec 16) (s : State) : (setBinTally p b v s).work = s.work := by simp [setBinTally]
@[simp] theorem setBinTally_freeDraws (p : Fin 4) (b : Fin 16) (v : BitVec 16) (s : State) : (setBinTally p b v s).freeDraws = s.freeDraws := by simp [setBinTally]
@[simp] theorem setBinTally_pending (p : Fin 4) (b : Fin 16) (v : BitVec 16) (s : State) : (setBinTally p b v s).pending = s.pending := by simp [setBinTally]
@[simp] theorem settleBinFull_now (s : State) : (settleBinFull s).now = s.now := by
  unfold settleBinFull; split <;> simp
@[simp] theorem settleBinFull_resetHeld (s : State) : (settleBinFull s).resetHeld = s.resetHeld := by
  unfold settleBinFull; split <;> simp
@[simp] theorem settleBinFull_idx (s : State) : (settleBinFull s).idx = s.idx := by
  unfold settleBinFull; split <;> simp
@[simp] theorem settleBinFull_table (s : State) : (settleBinFull s).table = s.table := by
  unfold settleBinFull; split <;> simp
@[simp] theorem settleBinFull_eng (s : State) : (settleBinFull s).eng = s.eng := by
  unfold settleBinFull; split <;> simp
@[simp] theorem settleBinFull_drift (s : State) : (settleBinFull s).drift = s.drift := by
  unfold settleBinFull; split <;> simp
@[simp] theorem settleBinFull_pages (s : State) : (settleBinFull s).pages = s.pages := by
  unfold settleBinFull; split <;> simp
@[simp] theorem settleBinFull_gates (s : State) : (settleBinFull s).gates = s.gates := by
  unfold settleBinFull; split <;> simp
@[simp] theorem settleBinFull_link (s : State) : (settleBinFull s).link = s.link := by
  unfold settleBinFull; split <;> simp
@[simp] theorem settleBinFull_peers (s : State) : (settleBinFull s).peers = s.peers := by
  unfold settleBinFull; split <;> simp
@[simp] theorem settleBinFull_ctl (s : State) : (settleBinFull s).ctl = s.ctl := by
  unfold settleBinFull; split <;> simp
@[simp] theorem settleBinFull_alerts_mask (s : State) : (settleBinFull s).alerts.mask = s.alerts.mask := by
  unfold settleBinFull; split <;> simp
@[simp] theorem settleBinFull_alerts_master (s : State) : (settleBinFull s).alerts.master = s.alerts.master := by
  unfold settleBinFull; split <;> simp
@[simp] theorem settleBinFull_work (s : State) : (settleBinFull s).work = s.work := by
  unfold settleBinFull; split <;> simp
@[simp] theorem settleBinFull_freeDraws (s : State) : (settleBinFull s).freeDraws = s.freeDraws := by
  unfold settleBinFull; split <;> simp
@[simp] theorem settleBinFull_pending (s : State) : (settleBinFull s).pending = s.pending := by
  unfold settleBinFull; split <;> simp
@[simp] theorem addEntry_now (e : Entry) (s : State) : (addEntry e s).now = s.now := by simp [addEntry]
@[simp] theorem addEntry_resetHeld (e : Entry) (s : State) : (addEntry e s).resetHeld = s.resetHeld := by simp [addEntry]
@[simp] theorem addEntry_idx (e : Entry) (s : State) : (addEntry e s).idx = s.idx := by simp [addEntry]
@[simp] theorem addEntry_table_lastRemoved (e : Entry) (s : State) : (addEntry e s).table.lastRemoved = s.table.lastRemoved := by simp [addEntry]
@[simp] theorem addEntry_eng (e : Entry) (s : State) : (addEntry e s).eng = s.eng := by simp [addEntry]
@[simp] theorem addEntry_drift (e : Entry) (s : State) : (addEntry e s).drift = s.drift := by simp [addEntry]
@[simp] theorem addEntry_pages (e : Entry) (s : State) : (addEntry e s).pages = s.pages := by simp [addEntry]
@[simp] theorem addEntry_gates (e : Entry) (s : State) : (addEntry e s).gates = s.gates := by simp [addEntry]
@[simp] theorem addEntry_link (e : Entry) (s : State) : (addEntry e s).link = s.link := by simp [addEntry]
@[simp] theorem addEntry_peers (e : Entry) (s : State) : (addEntry e s).peers = s.peers := by simp [addEntry]
@[simp] theorem addEntry_ctl (e : Entry) (s : State) : (addEntry e s).ctl = s.ctl := by simp [addEntry]
@[simp] theorem addEntry_alerts (e : Entry) (s : State) : (addEntry e s).alerts = s.alerts := by simp [addEntry]
@[simp] theorem addEntry_work (e : Entry) (s : State) : (addEntry e s).work = s.work := by simp [addEntry]
@[simp] theorem addEntry_freeDraws (e : Entry) (s : State) : (addEntry e s).freeDraws = s.freeDraws := by simp [addEntry]
@[simp] theorem addEntry_pending (e : Entry) (s : State) : (addEntry e s).pending = s.pending := by simp [addEntry]
@[simp] theorem modifyEntry_now (tag : BitVec 16) (f : Entry → Entry) (s : State) : (modifyEntry tag f s).now = s.now := by simp [modifyEntry]
@[simp] theorem modifyEntry_resetHeld (tag : BitVec 16) (f : Entry → Entry) (s : State) : (modifyEntry tag f s).resetHeld = s.resetHeld := by simp [modifyEntry]
@[simp] theorem modifyEntry_idx (tag : BitVec 16) (f : Entry → Entry) (s : State) : (modifyEntry tag f s).idx = s.idx := by simp [modifyEntry]
@[simp] theorem modifyEntry_table_lastRemoved (tag : BitVec 16) (f : Entry → Entry) (s : State) : (modifyEntry tag f s).table.lastRemoved = s.table.lastRemoved := by simp [modifyEntry]
@[simp] theorem modifyEntry_eng (tag : BitVec 16) (f : Entry → Entry) (s : State) : (modifyEntry tag f s).eng = s.eng := by simp [modifyEntry]
@[simp] theorem modifyEntry_drift (tag : BitVec 16) (f : Entry → Entry) (s : State) : (modifyEntry tag f s).drift = s.drift := by simp [modifyEntry]
@[simp] theorem modifyEntry_pages (tag : BitVec 16) (f : Entry → Entry) (s : State) : (modifyEntry tag f s).pages = s.pages := by simp [modifyEntry]
@[simp] theorem modifyEntry_gates (tag : BitVec 16) (f : Entry → Entry) (s : State) : (modifyEntry tag f s).gates = s.gates := by simp [modifyEntry]
@[simp] theorem modifyEntry_link (tag : BitVec 16) (f : Entry → Entry) (s : State) : (modifyEntry tag f s).link = s.link := by simp [modifyEntry]
@[simp] theorem modifyEntry_peers (tag : BitVec 16) (f : Entry → Entry) (s : State) : (modifyEntry tag f s).peers = s.peers := by simp [modifyEntry]
@[simp] theorem modifyEntry_ctl (tag : BitVec 16) (f : Entry → Entry) (s : State) : (modifyEntry tag f s).ctl = s.ctl := by simp [modifyEntry]
@[simp] theorem modifyEntry_alerts (tag : BitVec 16) (f : Entry → Entry) (s : State) : (modifyEntry tag f s).alerts = s.alerts := by simp [modifyEntry]
@[simp] theorem modifyEntry_work (tag : BitVec 16) (f : Entry → Entry) (s : State) : (modifyEntry tag f s).work = s.work := by simp [modifyEntry]
@[simp] theorem modifyEntry_freeDraws (tag : BitVec 16) (f : Entry → Entry) (s : State) : (modifyEntry tag f s).freeDraws = s.freeDraws := by simp [modifyEntry]
@[simp] theorem modifyEntry_pending (tag : BitVec 16) (f : Entry → Entry) (s : State) : (modifyEntry tag f s).pending = s.pending := by simp [modifyEntry]
@[simp] theorem setStage_now (tag : BitVec 16) (st : OwnStage) (s : State) : (setStage tag st s).now = s.now := by simp [setStage]
@[simp] theorem setStage_resetHeld (tag : BitVec 16) (st : OwnStage) (s : State) : (setStage tag st s).resetHeld = s.resetHeld := by simp [setStage]
@[simp] theorem setStage_idx (tag : BitVec 16) (st : OwnStage) (s : State) : (setStage tag st s).idx = s.idx := by simp [setStage]
@[simp] theorem setStage_table_lastRemoved (tag : BitVec 16) (st : OwnStage) (s : State) : (setStage tag st s).table.lastRemoved = s.table.lastRemoved := by simp [setStage]
@[simp] theorem setStage_eng (tag : BitVec 16) (st : OwnStage) (s : State) : (setStage tag st s).eng = s.eng := by simp [setStage]
@[simp] theorem setStage_drift (tag : BitVec 16) (st : OwnStage) (s : State) : (setStage tag st s).drift = s.drift := by simp [setStage]
@[simp] theorem setStage_pages (tag : BitVec 16) (st : OwnStage) (s : State) : (setStage tag st s).pages = s.pages := by simp [setStage]
@[simp] theorem setStage_gates (tag : BitVec 16) (st : OwnStage) (s : State) : (setStage tag st s).gates = s.gates := by simp [setStage]
@[simp] theorem setStage_link (tag : BitVec 16) (st : OwnStage) (s : State) : (setStage tag st s).link = s.link := by simp [setStage]
@[simp] theorem setStage_peers (tag : BitVec 16) (st : OwnStage) (s : State) : (setStage tag st s).peers = s.peers := by simp [setStage]
@[simp] theorem setStage_ctl (tag : BitVec 16) (st : OwnStage) (s : State) : (setStage tag st s).ctl = s.ctl := by simp [setStage]
@[simp] theorem setStage_alerts (tag : BitVec 16) (st : OwnStage) (s : State) : (setStage tag st s).alerts = s.alerts := by simp [setStage]
@[simp] theorem setStage_work (tag : BitVec 16) (st : OwnStage) (s : State) : (setStage tag st s).work = s.work := by simp [setStage]
@[simp] theorem setStage_freeDraws (tag : BitVec 16) (st : OwnStage) (s : State) : (setStage tag st s).freeDraws = s.freeDraws := by simp [setStage]
@[simp] theorem setStage_pending (tag : BitVec 16) (st : OwnStage) (s : State) : (setStage tag st s).pending = s.pending := by simp [setStage]
@[simp] theorem rememberRemoved_now (out : List Entry) (s : State) : (rememberRemoved out s).now = s.now := by
  unfold rememberRemoved; dsimp only; (repeat' split) <;> simp
@[simp] theorem rememberRemoved_resetHeld (out : List Entry) (s : State) : (rememberRemoved out s).resetHeld = s.resetHeld := by
  unfold rememberRemoved; dsimp only; (repeat' split) <;> simp
@[simp] theorem rememberRemoved_idx (out : List Entry) (s : State) : (rememberRemoved out s).idx = s.idx := by
  unfold rememberRemoved; dsimp only; (repeat' split) <;> simp
@[simp] theorem rememberRemoved_eng (out : List Entry) (s : State) : (rememberRemoved out s).eng = s.eng := by
  unfold rememberRemoved; dsimp only; (repeat' split) <;> simp
@[simp] theorem rememberRemoved_drift (out : List Entry) (s : State) : (rememberRemoved out s).drift = s.drift := by
  unfold rememberRemoved; dsimp only; (repeat' split) <;> simp
@[simp] theorem rememberRemoved_pages (out : List Entry) (s : State) : (rememberRemoved out s).pages = s.pages := by
  unfold rememberRemoved; dsimp only; (repeat' split) <;> simp
@[simp] theorem rememberRemoved_gates (out : List Entry) (s : State) : (rememberRemoved out s).gates = s.gates := by
  unfold rememberRemoved; dsimp only; (repeat' split) <;> simp
@[simp] theorem rememberRemoved_link (out : List Entry) (s : State) : (rememberRemoved out s).link = s.link := by
  unfold rememberRemoved; dsimp only; (repeat' split) <;> simp
@[simp] theorem rememberRemoved_peers (out : List Entry) (s : State) : (rememberRemoved out s).peers = s.peers := by
  unfold rememberRemoved; dsimp only; (repeat' split) <;> simp
@[simp] theorem rememberRemoved_ctl (out : List Entry) (s : State) : (rememberRemoved out s).ctl = s.ctl := by
  unfold rememberRemoved; dsimp only; (repeat' split) <;> simp
@[simp] theorem rememberRemoved_alerts (out : List Entry) (s : State) : (rememberRemoved out s).alerts = s.alerts := by
  unfold rememberRemoved; dsimp only; (repeat' split) <;> simp
@[simp] theorem rememberRemoved_work_units (out : List Entry) (s : State) : (rememberRemoved out s).work.units = s.work.units := by
  unfold rememberRemoved; dsimp only; (repeat' split) <;> simp
@[simp] theorem rememberRemoved_work_status (out : List Entry) (s : State) : (rememberRemoved out s).work.status = s.work.status := by
  unfold rememberRemoved; dsimp only; (repeat' split) <;> simp
@[simp] theorem rememberRemoved_freeDraws (out : List Entry) (s : State) : (rememberRemoved out s).freeDraws = s.freeDraws := by
  unfold rememberRemoved; dsimp only; (repeat' split) <;> simp
@[simp] theorem rememberRemoved_pending (out : List Entry) (s : State) : (rememberRemoved out s).pending = s.pending := by
  unfold rememberRemoved; dsimp only; (repeat' split) <;> simp
@[simp] theorem removeEntries_now (gone : Entry → Bool) (s : State) : (removeEntries gone s).now = s.now := by
  unfold removeEntries; dsimp only; (repeat' split) <;> simp
@[simp] theorem removeEntries_resetHeld (gone : Entry → Bool) (s : State) : (removeEntries gone s).resetHeld = s.resetHeld := by
  unfold removeEntries; dsimp only; (repeat' split) <;> simp
@[simp] theorem removeEntries_idx (gone : Entry → Bool) (s : State) : (removeEntries gone s).idx = s.idx := by
  unfold removeEntries; dsimp only; (repeat' split) <;> simp
@[simp] theorem removeEntries_eng (gone : Entry → Bool) (s : State) : (removeEntries gone s).eng = s.eng := by
  unfold removeEntries; dsimp only; (repeat' split) <;> simp
@[simp] theorem removeEntries_drift (gone : Entry → Bool) (s : State) : (removeEntries gone s).drift = s.drift := by
  unfold removeEntries; dsimp only; (repeat' split) <;> simp
@[simp] theorem removeEntries_pages (gone : Entry → Bool) (s : State) : (removeEntries gone s).pages = s.pages := by
  unfold removeEntries; dsimp only; (repeat' split) <;> simp
@[simp] theorem removeEntries_gates_firings (gone : Entry → Bool) (s : State) : (removeEntries gone s).gates.firings = s.gates.firings := by
  unfold removeEntries; dsimp only; (repeat' split) <;> simp
@[simp] theorem removeEntries_gates_drivers (gone : Entry → Bool) (s : State) : (removeEntries gone s).gates.drivers = s.gates.drivers := by
  unfold removeEntries; dsimp only; (repeat' split) <;> simp
@[simp] theorem removeEntries_gates_binTallies (gone : Entry → Bool) (s : State) : (removeEntries gone s).gates.binTallies = s.gates.binTallies := by
  unfold removeEntries; dsimp only; (repeat' split) <;> simp
@[simp] theorem removeEntries_link (gone : Entry → Bool) (s : State) : (removeEntries gone s).link = s.link := by
  unfold removeEntries; dsimp only; (repeat' split) <;> simp
@[simp] theorem removeEntries_peers (gone : Entry → Bool) (s : State) : (removeEntries gone s).peers = s.peers := by
  unfold removeEntries; dsimp only; (repeat' split) <;> simp
@[simp] theorem removeEntries_ctl (gone : Entry → Bool) (s : State) : (removeEntries gone s).ctl = s.ctl := by
  unfold removeEntries; dsimp only; (repeat' split) <;> simp
@[simp] theorem removeEntries_alerts (gone : Entry → Bool) (s : State) : (removeEntries gone s).alerts = s.alerts := by
  unfold removeEntries; dsimp only; (repeat' split) <;> simp
@[simp] theorem removeEntries_work_units (gone : Entry → Bool) (s : State) : (removeEntries gone s).work.units = s.work.units := by
  unfold removeEntries; dsimp only; (repeat' split) <;> simp
@[simp] theorem removeEntries_work_status (gone : Entry → Bool) (s : State) : (removeEntries gone s).work.status = s.work.status := by
  unfold removeEntries; dsimp only; (repeat' split) <;> simp
@[simp] theorem removeEntries_freeDraws (gone : Entry → Bool) (s : State) : (removeEntries gone s).freeDraws = s.freeDraws := by
  unfold removeEntries; dsimp only; (repeat' split) <;> simp
@[simp] theorem removeEntries_pending (gone : Entry → Bool) (s : State) : (removeEntries gone s).pending = s.pending := by
  unfold removeEntries; dsimp only; (repeat' split) <;> simp
@[simp] theorem removeTag_now (tag : BitVec 16) (s : State) : (removeTag tag s).now = s.now := by simp [removeTag]
@[simp] theorem removeTag_resetHeld (tag : BitVec 16) (s : State) : (removeTag tag s).resetHeld = s.resetHeld := by simp [removeTag]
@[simp] theorem removeTag_idx (tag : BitVec 16) (s : State) : (removeTag tag s).idx = s.idx := by simp [removeTag]
@[simp] theorem removeTag_eng (tag : BitVec 16) (s : State) : (removeTag tag s).eng = s.eng := by simp [removeTag]
@[simp] theorem removeTag_drift (tag : BitVec 16) (s : State) : (removeTag tag s).drift = s.drift := by simp [removeTag]
@[simp] theorem removeTag_pages (tag : BitVec 16) (s : State) : (removeTag tag s).pages = s.pages := by simp [removeTag]
@[simp] theorem removeTag_gates_firings (tag : BitVec 16) (s : State) : (removeTag tag s).gates.firings = s.gates.firings := by simp [removeTag]
@[simp] theorem removeTag_gates_drivers (tag : BitVec 16) (s : State) : (removeTag tag s).gates.drivers = s.gates.drivers := by simp [removeTag]
@[simp] theorem removeTag_gates_binTallies (tag : BitVec 16) (s : State) : (removeTag tag s).gates.binTallies = s.gates.binTallies := by simp [removeTag]
@[simp] theorem removeTag_link (tag : BitVec 16) (s : State) : (removeTag tag s).link = s.link := by simp [removeTag]
@[simp] theorem removeTag_peers (tag : BitVec 16) (s : State) : (removeTag tag s).peers = s.peers := by simp [removeTag]
@[simp] theorem removeTag_ctl (tag : BitVec 16) (s : State) : (removeTag tag s).ctl = s.ctl := by simp [removeTag]
@[simp] theorem removeTag_alerts (tag : BitVec 16) (s : State) : (removeTag tag s).alerts = s.alerts := by simp [removeTag]
@[simp] theorem removeTag_work_units (tag : BitVec 16) (s : State) : (removeTag tag s).work.units = s.work.units := by simp [removeTag]
@[simp] theorem removeTag_work_status (tag : BitVec 16) (s : State) : (removeTag tag s).work.status = s.work.status := by simp [removeTag]
@[simp] theorem removeTag_freeDraws (tag : BitVec 16) (s : State) : (removeTag tag s).freeDraws = s.freeDraws := by simp [removeTag]
@[simp] theorem removeTag_pending (tag : BitVec 16) (s : State) : (removeTag tag s).pending = s.pending := by simp [removeTag]
@[simp] theorem recomputeRetire_now (s : State) : (recomputeRetire s).now = s.now := by
  unfold recomputeRetire; dsimp only; (repeat' split) <;> simp
@[simp] theorem recomputeRetire_resetHeld (s : State) : (recomputeRetire s).resetHeld = s.resetHeld := by
  unfold recomputeRetire; dsimp only; (repeat' split) <;> simp
@[simp] theorem recomputeRetire_idx_count (s : State) : (recomputeRetire s).idx.count = s.idx.count := by
  unfold recomputeRetire; dsimp only; (repeat' split) <;> simp
@[simp] theorem recomputeRetire_idx_lastIndex (s : State) : (recomputeRetire s).idx.lastIndex = s.idx.lastIndex := by
  unfold recomputeRetire; dsimp only; (repeat' split) <;> simp
@[simp] theorem recomputeRetire_idx_currentPage (s : State) : (recomputeRetire s).idx.currentPage = s.idx.currentPage := by
  unfold recomputeRetire; dsimp only; (repeat' split) <;> simp
@[simp] theorem recomputeRetire_idx_measReq (s : State) : (recomputeRetire s).idx.measReq = s.idx.measReq := by
  unfold recomputeRetire; dsimp only; (repeat' split) <;> simp
@[simp] theorem recomputeRetire_idx_firingReq (s : State) : (recomputeRetire s).idx.firingReq = s.idx.firingReq := by
  unfold recomputeRetire; dsimp only; (repeat' split) <;> simp
@[simp] theorem recomputeRetire_eng (s : State) : (recomputeRetire s).eng = s.eng := by
  unfold recomputeRetire; dsimp only; (repeat' split) <;> simp
@[simp] theorem recomputeRetire_drift (s : State) : (recomputeRetire s).drift = s.drift := by
  unfold recomputeRetire; dsimp only; (repeat' split) <;> simp
@[simp] theorem recomputeRetire_pages (s : State) : (recomputeRetire s).pages = s.pages := by
  unfold recomputeRetire; dsimp only; (repeat' split) <;> simp
@[simp] theorem recomputeRetire_gates_firings (s : State) : (recomputeRetire s).gates.firings = s.gates.firings := by
  unfold recomputeRetire; dsimp only; (repeat' split) <;> simp
@[simp] theorem recomputeRetire_gates_drivers (s : State) : (recomputeRetire s).gates.drivers = s.gates.drivers := by
  unfold recomputeRetire; dsimp only; (repeat' split) <;> simp
@[simp] theorem recomputeRetire_gates_binTallies (s : State) : (recomputeRetire s).gates.binTallies = s.gates.binTallies := by
  unfold recomputeRetire; dsimp only; (repeat' split) <;> simp
@[simp] theorem recomputeRetire_link (s : State) : (recomputeRetire s).link = s.link := by
  unfold recomputeRetire; dsimp only; (repeat' split) <;> simp
@[simp] theorem recomputeRetire_peers (s : State) : (recomputeRetire s).peers = s.peers := by
  unfold recomputeRetire; dsimp only; (repeat' split) <;> simp
@[simp] theorem recomputeRetire_ctl (s : State) : (recomputeRetire s).ctl = s.ctl := by
  unfold recomputeRetire; dsimp only; (repeat' split) <;> simp
@[simp] theorem recomputeRetire_alerts (s : State) : (recomputeRetire s).alerts = s.alerts := by
  unfold recomputeRetire; dsimp only; (repeat' split) <;> simp
@[simp] theorem recomputeRetire_work_units (s : State) : (recomputeRetire s).work.units = s.work.units := by
  unfold recomputeRetire; dsimp only; (repeat' split) <;> simp
@[simp] theorem recomputeRetire_work_status (s : State) : (recomputeRetire s).work.status = s.work.status := by
  unfold recomputeRetire; dsimp only; (repeat' split) <;> simp
@[simp] theorem recomputeRetire_freeDraws (s : State) : (recomputeRetire s).freeDraws = s.freeDraws := by
  unfold recomputeRetire; dsimp only; (repeat' split) <;> simp
@[simp] theorem recomputeRetire_pending (s : State) : (recomputeRetire s).pending = s.pending := by
  unfold recomputeRetire; dsimp only; (repeat' split) <;> simp
@[simp] theorem putEntryRecord_now (r : EntryRecord) (s : State) : (putEntryRecord r s).now = s.now := by
  unfold putEntryRecord; dsimp only; (repeat' split) <;> simp
@[simp] theorem putEntryRecord_resetHeld (r : EntryRecord) (s : State) : (putEntryRecord r s).resetHeld = s.resetHeld := by
  unfold putEntryRecord; dsimp only; (repeat' split) <;> simp
@[simp] theorem putEntryRecord_idx (r : EntryRecord) (s : State) : (putEntryRecord r s).idx = s.idx := by
  unfold putEntryRecord; dsimp only; (repeat' split) <;> simp
@[simp] theorem putEntryRecord_table_lastRemoved (r : EntryRecord) (s : State) : (putEntryRecord r s).table.lastRemoved = s.table.lastRemoved := by
  unfold putEntryRecord; dsimp only; (repeat' split) <;> simp
@[simp] theorem putEntryRecord_eng (r : EntryRecord) (s : State) : (putEntryRecord r s).eng = s.eng := by
  unfold putEntryRecord; dsimp only; (repeat' split) <;> simp
@[simp] theorem putEntryRecord_drift (r : EntryRecord) (s : State) : (putEntryRecord r s).drift = s.drift := by
  unfold putEntryRecord; dsimp only; (repeat' split) <;> simp
@[simp] theorem putEntryRecord_pages (r : EntryRecord) (s : State) : (putEntryRecord r s).pages = s.pages := by
  unfold putEntryRecord; dsimp only; (repeat' split) <;> simp
@[simp] theorem putEntryRecord_gates (r : EntryRecord) (s : State) : (putEntryRecord r s).gates = s.gates := by
  unfold putEntryRecord; dsimp only; (repeat' split) <;> simp
@[simp] theorem putEntryRecord_link (r : EntryRecord) (s : State) : (putEntryRecord r s).link = s.link := by
  unfold putEntryRecord; dsimp only; (repeat' split) <;> simp
@[simp] theorem putEntryRecord_peers (r : EntryRecord) (s : State) : (putEntryRecord r s).peers = s.peers := by
  unfold putEntryRecord; dsimp only; (repeat' split) <;> simp
@[simp] theorem putEntryRecord_ctl (r : EntryRecord) (s : State) : (putEntryRecord r s).ctl = s.ctl := by
  unfold putEntryRecord; dsimp only; (repeat' split) <;> simp
@[simp] theorem putEntryRecord_alerts (r : EntryRecord) (s : State) : (putEntryRecord r s).alerts = s.alerts := by
  unfold putEntryRecord; dsimp only; (repeat' split) <;> simp
@[simp] theorem putEntryRecord_work (r : EntryRecord) (s : State) : (putEntryRecord r s).work = s.work := by
  unfold putEntryRecord; dsimp only; (repeat' split) <;> simp
@[simp] theorem putEntryRecord_freeDraws (r : EntryRecord) (s : State) : (putEntryRecord r s).freeDraws = s.freeDraws := by
  unfold putEntryRecord; dsimp only; (repeat' split) <;> simp
@[simp] theorem putEntryRecord_pending (r : EntryRecord) (s : State) : (putEntryRecord r s).pending = s.pending := by
  unfold putEntryRecord; dsimp only; (repeat' split) <;> simp
@[simp] theorem putValue_now (tag : BitVec 16) (k : Slot) (v : HeldValue) (s : State) : (putValue tag k v s).now = s.now := by
  unfold putValue; split <;> simp
@[simp] theorem putValue_resetHeld (tag : BitVec 16) (k : Slot) (v : HeldValue) (s : State) : (putValue tag k v s).resetHeld = s.resetHeld := by
  unfold putValue; split <;> simp
@[simp] theorem putValue_idx (tag : BitVec 16) (k : Slot) (v : HeldValue) (s : State) : (putValue tag k v s).idx = s.idx := by
  unfold putValue; split <;> simp
@[simp] theorem putValue_table_lastRemoved (tag : BitVec 16) (k : Slot) (v : HeldValue) (s : State) : (putValue tag k v s).table.lastRemoved = s.table.lastRemoved := by
  unfold putValue; split <;> simp
@[simp] theorem putValue_eng (tag : BitVec 16) (k : Slot) (v : HeldValue) (s : State) : (putValue tag k v s).eng = s.eng := by
  unfold putValue; split <;> simp
@[simp] theorem putValue_drift (tag : BitVec 16) (k : Slot) (v : HeldValue) (s : State) : (putValue tag k v s).drift = s.drift := by
  unfold putValue; split <;> simp
@[simp] theorem putValue_pages (tag : BitVec 16) (k : Slot) (v : HeldValue) (s : State) : (putValue tag k v s).pages = s.pages := by
  unfold putValue; split <;> simp
@[simp] theorem putValue_gates (tag : BitVec 16) (k : Slot) (v : HeldValue) (s : State) : (putValue tag k v s).gates = s.gates := by
  unfold putValue; split <;> simp
@[simp] theorem putValue_link (tag : BitVec 16) (k : Slot) (v : HeldValue) (s : State) : (putValue tag k v s).link = s.link := by
  unfold putValue; split <;> simp
@[simp] theorem putValue_peers (tag : BitVec 16) (k : Slot) (v : HeldValue) (s : State) : (putValue tag k v s).peers = s.peers := by
  unfold putValue; split <;> simp
@[simp] theorem putValue_ctl (tag : BitVec 16) (k : Slot) (v : HeldValue) (s : State) : (putValue tag k v s).ctl = s.ctl := by
  unfold putValue; split <;> simp
@[simp] theorem putValue_alerts (tag : BitVec 16) (k : Slot) (v : HeldValue) (s : State) : (putValue tag k v s).alerts = s.alerts := by
  unfold putValue; split <;> simp
@[simp] theorem putValue_work (tag : BitVec 16) (k : Slot) (v : HeldValue) (s : State) : (putValue tag k v s).work = s.work := by
  unfold putValue; split <;> simp
@[simp] theorem putValue_freeDraws (tag : BitVec 16) (k : Slot) (v : HeldValue) (s : State) : (putValue tag k v s).freeDraws = s.freeDraws := by
  unfold putValue; split <;> simp
@[simp] theorem putValue_pending (tag : BitVec 16) (k : Slot) (v : HeldValue) (s : State) : (putValue tag k v s).pending = s.pending := by
  unfold putValue; split <;> simp
@[simp] theorem drainTest_now (s : State) : (drainTest s).now = s.now := by
  unfold drainTest; split <;> simp
@[simp] theorem drainTest_resetHeld (s : State) : (drainTest s).resetHeld = s.resetHeld := by
  unfold drainTest; split <;> simp
@[simp] theorem drainTest_idx (s : State) : (drainTest s).idx = s.idx := by
  unfold drainTest; split <;> simp
@[simp] theorem drainTest_table (s : State) : (drainTest s).table = s.table := by
  unfold drainTest; split <;> simp
@[simp] theorem drainTest_eng (s : State) : (drainTest s).eng = s.eng := by
  unfold drainTest; split <;> simp
@[simp] theorem drainTest_drift (s : State) : (drainTest s).drift = s.drift := by
  unfold drainTest; split <;> simp
@[simp] theorem drainTest_pages (s : State) : (drainTest s).pages = s.pages := by
  unfold drainTest; split <;> simp
@[simp] theorem drainTest_gates (s : State) : (drainTest s).gates = s.gates := by
  unfold drainTest; split <;> simp
@[simp] theorem drainTest_link (s : State) : (drainTest s).link = s.link := by
  unfold drainTest; split <;> simp
@[simp] theorem drainTest_peers (s : State) : (drainTest s).peers = s.peers := by
  unfold drainTest; split <;> simp
@[simp] theorem drainTest_ctl_node (s : State) : (drainTest s).ctl.node = s.ctl.node := by
  unfold drainTest; split <;> simp
@[simp] theorem drainTest_ctl_role (s : State) : (drainTest s).ctl.role = s.ctl.role := by
  unfold drainTest; split <;> simp
@[simp] theorem drainTest_ctl_faultReason (s : State) : (drainTest s).ctl.faultReason = s.ctl.faultReason := by
  unfold drainTest; split <;> simp
@[simp] theorem drainTest_ctl_activity (s : State) : (drainTest s).ctl.activity = s.ctl.activity := by
  unfold drainTest; split <;> simp
@[simp] theorem drainTest_ctl_cause (s : State) : (drainTest s).ctl.cause = s.ctl.cause := by
  unfold drainTest; split <;> simp
@[simp] theorem drainTest_ctl_listenDue (s : State) : (drainTest s).ctl.listenDue = s.ctl.listenDue := by
  unfold drainTest; split <;> simp
@[simp] theorem drainTest_ctl_items (s : State) : (drainTest s).ctl.items = s.ctl.items := by
  unfold drainTest; split <;> simp
@[simp] theorem drainTest_alerts (s : State) : (drainTest s).alerts = s.alerts := by
  unfold drainTest; split <;> simp
@[simp] theorem drainTest_work_units (s : State) : (drainTest s).work.units = s.work.units := by
  unfold drainTest; split <;> simp
@[simp] theorem drainTest_work_status (s : State) : (drainTest s).work.status = s.work.status := by
  unfold drainTest; split <;> simp
@[simp] theorem drainTest_freeDraws (s : State) : (drainTest s).freeDraws = s.freeDraws := by
  unfold drainTest; split <;> simp
@[simp] theorem drainTest_pending (s : State) : (drainTest s).pending = s.pending := by
  unfold drainTest; split <;> simp
@[simp] theorem refreshLevels_now (s : State) : (refreshLevels s).now = s.now := by simp [refreshLevels, levelFlags]
@[simp] theorem refreshLevels_resetHeld (s : State) : (refreshLevels s).resetHeld = s.resetHeld := by simp [refreshLevels, levelFlags]
@[simp] theorem refreshLevels_idx (s : State) : (refreshLevels s).idx = s.idx := by simp [refreshLevels, levelFlags]
@[simp] theorem refreshLevels_table (s : State) : (refreshLevels s).table = s.table := by simp [refreshLevels, levelFlags]
@[simp] theorem refreshLevels_eng (s : State) : (refreshLevels s).eng = s.eng := by simp [refreshLevels, levelFlags]
@[simp] theorem refreshLevels_drift (s : State) : (refreshLevels s).drift = s.drift := by simp [refreshLevels, levelFlags]
@[simp] theorem refreshLevels_pages (s : State) : (refreshLevels s).pages = s.pages := by simp [refreshLevels, levelFlags]
@[simp] theorem refreshLevels_gates (s : State) : (refreshLevels s).gates = s.gates := by simp [refreshLevels, levelFlags]
@[simp] theorem refreshLevels_link (s : State) : (refreshLevels s).link = s.link := by simp [refreshLevels, levelFlags]
@[simp] theorem refreshLevels_peers (s : State) : (refreshLevels s).peers = s.peers := by simp [refreshLevels, levelFlags]
@[simp] theorem refreshLevels_ctl (s : State) : (refreshLevels s).ctl = s.ctl := by simp [refreshLevels, levelFlags]
@[simp] theorem refreshLevels_alerts_mask (s : State) : (refreshLevels s).alerts.mask = s.alerts.mask := by simp [refreshLevels, levelFlags]
@[simp] theorem refreshLevels_alerts_master (s : State) : (refreshLevels s).alerts.master = s.alerts.master := by simp [refreshLevels, levelFlags]
@[simp] theorem refreshLevels_work_units (s : State) : (refreshLevels s).work.units = s.work.units := by simp [refreshLevels, levelFlags]
@[simp] theorem refreshLevels_work_status (s : State) : (refreshLevels s).work.status = s.work.status := by simp [refreshLevels, levelFlags]
@[simp] theorem refreshLevels_freeDraws (s : State) : (refreshLevels s).freeDraws = s.freeDraws := by simp [refreshLevels, levelFlags]
@[simp] theorem refreshLevels_pending (s : State) : (refreshLevels s).pending = s.pending := by simp [refreshLevels, levelFlags]
@[simp] theorem enqueue_now (fs : List QFrame) (s : State) : (enqueue fs s).now = s.now := by simp [enqueue]
@[simp] theorem enqueue_resetHeld (fs : List QFrame) (s : State) : (enqueue fs s).resetHeld = s.resetHeld := by simp [enqueue]
@[simp] theorem enqueue_idx (fs : List QFrame) (s : State) : (enqueue fs s).idx = s.idx := by simp [enqueue]
@[simp] theorem enqueue_table (fs : List QFrame) (s : State) : (enqueue fs s).table = s.table := by simp [enqueue]
@[simp] theorem enqueue_eng (fs : List QFrame) (s : State) : (enqueue fs s).eng = s.eng := by simp [enqueue]
@[simp] theorem enqueue_drift (fs : List QFrame) (s : State) : (enqueue fs s).drift = s.drift := by simp [enqueue]
@[simp] theorem enqueue_pages (fs : List QFrame) (s : State) : (enqueue fs s).pages = s.pages := by simp [enqueue]
@[simp] theorem enqueue_gates (fs : List QFrame) (s : State) : (enqueue fs s).gates = s.gates := by simp [enqueue]
@[simp] theorem enqueue_link_tx (fs : List QFrame) (s : State) : (enqueue fs s).link.tx = s.link.tx := by simp [enqueue]
@[simp] theorem enqueue_link_rx (fs : List QFrame) (s : State) : (enqueue fs s).link.rx = s.link.rx := by simp [enqueue]
@[simp] theorem enqueue_link_lineIdle (fs : List QFrame) (s : State) : (enqueue fs s).link.lineIdle = s.link.lineIdle := by simp [enqueue]
@[simp] theorem enqueue_link_quietSince (fs : List QFrame) (s : State) : (enqueue fs s).link.quietSince = s.link.quietSince := by simp [enqueue]
@[simp] theorem enqueue_link_deferral (fs : List QFrame) (s : State) : (enqueue fs s).link.deferral = s.link.deferral := by simp [enqueue]
@[simp] theorem enqueue_link_lastSender (fs : List QFrame) (s : State) : (enqueue fs s).link.lastSender = s.link.lastSender := by simp [enqueue]
@[simp] theorem enqueue_peers (fs : List QFrame) (s : State) : (enqueue fs s).peers = s.peers := by simp [enqueue]
@[simp] theorem enqueue_ctl (fs : List QFrame) (s : State) : (enqueue fs s).ctl = s.ctl := by simp [enqueue]
@[simp] theorem enqueue_alerts (fs : List QFrame) (s : State) : (enqueue fs s).alerts = s.alerts := by simp [enqueue]
@[simp] theorem enqueue_work (fs : List QFrame) (s : State) : (enqueue fs s).work = s.work := by simp [enqueue]
@[simp] theorem enqueue_freeDraws (fs : List QFrame) (s : State) : (enqueue fs s).freeDraws = s.freeDraws := by simp [enqueue]
@[simp] theorem enqueue_pending (fs : List QFrame) (s : State) : (enqueue fs s).pending = s.pending := by simp [enqueue]
@[simp] theorem offer_now (f : QFrame) (s : State) : (offer f s).now = s.now := by
  unfold offer; (repeat' split) <;> simp_all
@[simp] theorem offer_resetHeld (f : QFrame) (s : State) : (offer f s).resetHeld = s.resetHeld := by
  unfold offer; (repeat' split) <;> simp_all
@[simp] theorem offer_idx (f : QFrame) (s : State) : (offer f s).idx = s.idx := by
  unfold offer; (repeat' split) <;> simp_all
@[simp] theorem offer_table (f : QFrame) (s : State) : (offer f s).table = s.table := by
  unfold offer; (repeat' split) <;> simp_all
@[simp] theorem offer_eng (f : QFrame) (s : State) : (offer f s).eng = s.eng := by
  unfold offer; (repeat' split) <;> simp_all
@[simp] theorem offer_drift (f : QFrame) (s : State) : (offer f s).drift = s.drift := by
  unfold offer; (repeat' split) <;> simp_all
@[simp] theorem offer_pages (f : QFrame) (s : State) : (offer f s).pages = s.pages := by
  unfold offer; (repeat' split) <;> simp_all
@[simp] theorem offer_gates (f : QFrame) (s : State) : (offer f s).gates = s.gates := by
  unfold offer; (repeat' split) <;> simp_all
@[simp] theorem offer_link_tx (f : QFrame) (s : State) : (offer f s).link.tx = s.link.tx := by
  unfold offer; (repeat' split) <;> simp_all
@[simp] theorem offer_link_rx (f : QFrame) (s : State) : (offer f s).link.rx = s.link.rx := by
  unfold offer; (repeat' split) <;> simp_all
@[simp] theorem offer_link_lineIdle (f : QFrame) (s : State) : (offer f s).link.lineIdle = s.link.lineIdle := by
  unfold offer; (repeat' split) <;> simp_all
@[simp] theorem offer_link_quietSince (f : QFrame) (s : State) : (offer f s).link.quietSince = s.link.quietSince := by
  unfold offer; (repeat' split) <;> simp_all
@[simp] theorem offer_link_deferral (f : QFrame) (s : State) : (offer f s).link.deferral = s.link.deferral := by
  unfold offer; (repeat' split) <;> simp_all
@[simp] theorem offer_link_lastSender (f : QFrame) (s : State) : (offer f s).link.lastSender = s.link.lastSender := by
  unfold offer; (repeat' split) <;> simp_all
@[simp] theorem offer_peers (f : QFrame) (s : State) : (offer f s).peers = s.peers := by
  unfold offer; (repeat' split) <;> simp_all
@[simp] theorem offer_ctl (f : QFrame) (s : State) : (offer f s).ctl = s.ctl := by
  unfold offer; (repeat' split) <;> simp_all
@[simp] theorem offer_alerts_mask (f : QFrame) (s : State) : (offer f s).alerts.mask = s.alerts.mask := by
  unfold offer; (repeat' split) <;> simp_all
@[simp] theorem offer_alerts_master (f : QFrame) (s : State) : (offer f s).alerts.master = s.alerts.master := by
  unfold offer; (repeat' split) <;> simp_all
@[simp] theorem offer_work_units (f : QFrame) (s : State) : (offer f s).work.units = s.work.units := by
  unfold offer; (repeat' split) <;> simp_all
@[simp] theorem offer_work_status (f : QFrame) (s : State) : (offer f s).work.status = s.work.status := by
  unfold offer; (repeat' split) <;> simp_all
@[simp] theorem offer_freeDraws (f : QFrame) (s : State) : (offer f s).freeDraws = s.freeDraws := by
  unfold offer; (repeat' split) <;> simp_all
@[simp] theorem offer_pending (f : QFrame) (s : State) : (offer f s).pending = s.pending := by
  unfold offer; (repeat' split) <;> simp_all
@[simp] theorem offer_all_now (l : List QFrame) (s : State) : (l.foldl (fun a f => offer f a) s).now = s.now :=
  foldl_keeps (fun s : State => s.now) _ (fun a x => by simp) l s
@[simp] theorem offer_all_resetHeld (l : List QFrame) (s : State) : (l.foldl (fun a f => offer f a) s).resetHeld = s.resetHeld :=
  foldl_keeps (fun s : State => s.resetHeld) _ (fun a x => by simp) l s
@[simp] theorem offer_all_idx (l : List QFrame) (s : State) : (l.foldl (fun a f => offer f a) s).idx = s.idx :=
  foldl_keeps (fun s : State => s.idx) _ (fun a x => by simp) l s
@[simp] theorem offer_all_table (l : List QFrame) (s : State) : (l.foldl (fun a f => offer f a) s).table = s.table :=
  foldl_keeps (fun s : State => s.table) _ (fun a x => by simp) l s
@[simp] theorem offer_all_eng (l : List QFrame) (s : State) : (l.foldl (fun a f => offer f a) s).eng = s.eng :=
  foldl_keeps (fun s : State => s.eng) _ (fun a x => by simp) l s
@[simp] theorem offer_all_drift (l : List QFrame) (s : State) : (l.foldl (fun a f => offer f a) s).drift = s.drift :=
  foldl_keeps (fun s : State => s.drift) _ (fun a x => by simp) l s
@[simp] theorem offer_all_pages (l : List QFrame) (s : State) : (l.foldl (fun a f => offer f a) s).pages = s.pages :=
  foldl_keeps (fun s : State => s.pages) _ (fun a x => by simp) l s
@[simp] theorem offer_all_gates (l : List QFrame) (s : State) : (l.foldl (fun a f => offer f a) s).gates = s.gates :=
  foldl_keeps (fun s : State => s.gates) _ (fun a x => by simp) l s
@[simp] theorem offer_all_link_tx (l : List QFrame) (s : State) : (l.foldl (fun a f => offer f a) s).link.tx = s.link.tx :=
  foldl_keeps (fun s : State => s.link.tx) _ (fun a x => by simp) l s
@[simp] theorem offer_all_link_rx (l : List QFrame) (s : State) : (l.foldl (fun a f => offer f a) s).link.rx = s.link.rx :=
  foldl_keeps (fun s : State => s.link.rx) _ (fun a x => by simp) l s
@[simp] theorem offer_all_link_lineIdle (l : List QFrame) (s : State) : (l.foldl (fun a f => offer f a) s).link.lineIdle = s.link.lineIdle :=
  foldl_keeps (fun s : State => s.link.lineIdle) _ (fun a x => by simp) l s
@[simp] theorem offer_all_link_quietSince (l : List QFrame) (s : State) : (l.foldl (fun a f => offer f a) s).link.quietSince = s.link.quietSince :=
  foldl_keeps (fun s : State => s.link.quietSince) _ (fun a x => by simp) l s
@[simp] theorem offer_all_link_deferral (l : List QFrame) (s : State) : (l.foldl (fun a f => offer f a) s).link.deferral = s.link.deferral :=
  foldl_keeps (fun s : State => s.link.deferral) _ (fun a x => by simp) l s
@[simp] theorem offer_all_link_lastSender (l : List QFrame) (s : State) : (l.foldl (fun a f => offer f a) s).link.lastSender = s.link.lastSender :=
  foldl_keeps (fun s : State => s.link.lastSender) _ (fun a x => by simp) l s
@[simp] theorem offer_all_peers (l : List QFrame) (s : State) : (l.foldl (fun a f => offer f a) s).peers = s.peers :=
  foldl_keeps (fun s : State => s.peers) _ (fun a x => by simp) l s
@[simp] theorem offer_all_ctl (l : List QFrame) (s : State) : (l.foldl (fun a f => offer f a) s).ctl = s.ctl :=
  foldl_keeps (fun s : State => s.ctl) _ (fun a x => by simp) l s
@[simp] theorem offer_all_alerts_mask (l : List QFrame) (s : State) : (l.foldl (fun a f => offer f a) s).alerts.mask = s.alerts.mask :=
  foldl_keeps (fun s : State => s.alerts.mask) _ (fun a x => by simp) l s
@[simp] theorem offer_all_alerts_master (l : List QFrame) (s : State) : (l.foldl (fun a f => offer f a) s).alerts.master = s.alerts.master :=
  foldl_keeps (fun s : State => s.alerts.master) _ (fun a x => by simp) l s
@[simp] theorem offer_all_work_units (l : List QFrame) (s : State) : (l.foldl (fun a f => offer f a) s).work.units = s.work.units :=
  foldl_keeps (fun s : State => s.work.units) _ (fun a x => by simp) l s
@[simp] theorem offer_all_work_status (l : List QFrame) (s : State) : (l.foldl (fun a f => offer f a) s).work.status = s.work.status :=
  foldl_keeps (fun s : State => s.work.status) _ (fun a x => by simp) l s
@[simp] theorem offer_all_freeDraws (l : List QFrame) (s : State) : (l.foldl (fun a f => offer f a) s).freeDraws = s.freeDraws :=
  foldl_keeps (fun s : State => s.freeDraws) _ (fun a x => by simp) l s
@[simp] theorem offer_all_pending (l : List QFrame) (s : State) : (l.foldl (fun a f => offer f a) s).pending = s.pending :=
  foldl_keeps (fun s : State => s.pending) _ (fun a x => by simp) l s
@[simp] theorem offerReply_now (bodies : List (List Cell)) (s : State) : (offerReply bodies s).now = s.now := by
  unfold offerReply; (repeat' split) <;> simp_all
@[simp] theorem offerReply_resetHeld (bodies : List (List Cell)) (s : State) : (offerReply bodies s).resetHeld = s.resetHeld := by
  unfold offerReply; (repeat' split) <;> simp_all
@[simp] theorem offerReply_idx (bodies : List (List Cell)) (s : State) : (offerReply bodies s).idx = s.idx := by
  unfold offerReply; (repeat' split) <;> simp_all
@[simp] theorem offerReply_table (bodies : List (List Cell)) (s : State) : (offerReply bodies s).table = s.table := by
  unfold offerReply; (repeat' split) <;> simp_all
@[simp] theorem offerReply_eng (bodies : List (List Cell)) (s : State) : (offerReply bodies s).eng = s.eng := by
  unfold offerReply; (repeat' split) <;> simp_all
@[simp] theorem offerReply_drift (bodies : List (List Cell)) (s : State) : (offerReply bodies s).drift = s.drift := by
  unfold offerReply; (repeat' split) <;> simp_all
@[simp] theorem offerReply_pages (bodies : List (List Cell)) (s : State) : (offerReply bodies s).pages = s.pages := by
  unfold offerReply; (repeat' split) <;> simp_all
@[simp] theorem offerReply_gates (bodies : List (List Cell)) (s : State) : (offerReply bodies s).gates = s.gates := by
  unfold offerReply; (repeat' split) <;> simp_all
@[simp] theorem offerReply_link_tx (bodies : List (List Cell)) (s : State) : (offerReply bodies s).link.tx = s.link.tx := by
  unfold offerReply; (repeat' split) <;> simp_all
@[simp] theorem offerReply_link_rx (bodies : List (List Cell)) (s : State) : (offerReply bodies s).link.rx = s.link.rx := by
  unfold offerReply; (repeat' split) <;> simp_all
@[simp] theorem offerReply_link_lineIdle (bodies : List (List Cell)) (s : State) : (offerReply bodies s).link.lineIdle = s.link.lineIdle := by
  unfold offerReply; (repeat' split) <;> simp_all
@[simp] theorem offerReply_link_quietSince (bodies : List (List Cell)) (s : State) : (offerReply bodies s).link.quietSince = s.link.quietSince := by
  unfold offerReply; (repeat' split) <;> simp_all
@[simp] theorem offerReply_link_deferral (bodies : List (List Cell)) (s : State) : (offerReply bodies s).link.deferral = s.link.deferral := by
  unfold offerReply; (repeat' split) <;> simp_all
@[simp] theorem offerReply_link_lastSender (bodies : List (List Cell)) (s : State) : (offerReply bodies s).link.lastSender = s.link.lastSender := by
  unfold offerReply; (repeat' split) <;> simp_all
@[simp] theorem offerReply_peers (bodies : List (List Cell)) (s : State) : (offerReply bodies s).peers = s.peers := by
  unfold offerReply; (repeat' split) <;> simp_all
@[simp] theorem offerReply_ctl (bodies : List (List Cell)) (s : State) : (offerReply bodies s).ctl = s.ctl := by
  unfold offerReply; (repeat' split) <;> simp_all
@[simp] theorem offerReply_alerts_mask (bodies : List (List Cell)) (s : State) : (offerReply bodies s).alerts.mask = s.alerts.mask := by
  unfold offerReply; (repeat' split) <;> simp_all
@[simp] theorem offerReply_alerts_master (bodies : List (List Cell)) (s : State) : (offerReply bodies s).alerts.master = s.alerts.master := by
  unfold offerReply; (repeat' split) <;> simp_all
@[simp] theorem offerReply_work_units (bodies : List (List Cell)) (s : State) : (offerReply bodies s).work.units = s.work.units := by
  unfold offerReply; (repeat' split) <;> simp_all
@[simp] theorem offerReply_work_status (bodies : List (List Cell)) (s : State) : (offerReply bodies s).work.status = s.work.status := by
  unfold offerReply; (repeat' split) <;> simp_all
@[simp] theorem offerReply_freeDraws (bodies : List (List Cell)) (s : State) : (offerReply bodies s).freeDraws = s.freeDraws := by
  unfold offerReply; (repeat' split) <;> simp_all
@[simp] theorem offerReply_pending (bodies : List (List Cell)) (s : State) : (offerReply bodies s).pending = s.pending := by
  unfold offerReply; (repeat' split) <;> simp_all
@[simp] theorem offerOnce_now (f : QFrame) (s : State) : (offerOnce f s).now = s.now := by
  unfold offerOnce; split <;> simp
@[simp] theorem offerOnce_resetHeld (f : QFrame) (s : State) : (offerOnce f s).resetHeld = s.resetHeld := by
  unfold offerOnce; split <;> simp
@[simp] theorem offerOnce_idx (f : QFrame) (s : State) : (offerOnce f s).idx = s.idx := by
  unfold offerOnce; split <;> simp
@[simp] theorem offerOnce_table (f : QFrame) (s : State) : (offerOnce f s).table = s.table := by
  unfold offerOnce; split <;> simp
@[simp] theorem offerOnce_eng (f : QFrame) (s : State) : (offerOnce f s).eng = s.eng := by
  unfold offerOnce; split <;> simp
@[simp] theorem offerOnce_drift (f : QFrame) (s : State) : (offerOnce f s).drift = s.drift := by
  unfold offerOnce; split <;> simp
@[simp] theorem offerOnce_pages (f : QFrame) (s : State) : (offerOnce f s).pages = s.pages := by
  unfold offerOnce; split <;> simp
@[simp] theorem offerOnce_gates (f : QFrame) (s : State) : (offerOnce f s).gates = s.gates := by
  unfold offerOnce; split <;> simp
@[simp] theorem offerOnce_link_tx (f : QFrame) (s : State) : (offerOnce f s).link.tx = s.link.tx := by
  unfold offerOnce; split <;> simp
@[simp] theorem offerOnce_link_rx (f : QFrame) (s : State) : (offerOnce f s).link.rx = s.link.rx := by
  unfold offerOnce; split <;> simp
@[simp] theorem offerOnce_link_lineIdle (f : QFrame) (s : State) : (offerOnce f s).link.lineIdle = s.link.lineIdle := by
  unfold offerOnce; split <;> simp
@[simp] theorem offerOnce_link_quietSince (f : QFrame) (s : State) : (offerOnce f s).link.quietSince = s.link.quietSince := by
  unfold offerOnce; split <;> simp
@[simp] theorem offerOnce_link_deferral (f : QFrame) (s : State) : (offerOnce f s).link.deferral = s.link.deferral := by
  unfold offerOnce; split <;> simp
@[simp] theorem offerOnce_link_lastSender (f : QFrame) (s : State) : (offerOnce f s).link.lastSender = s.link.lastSender := by
  unfold offerOnce; split <;> simp
@[simp] theorem offerOnce_peers (f : QFrame) (s : State) : (offerOnce f s).peers = s.peers := by
  unfold offerOnce; split <;> simp
@[simp] theorem offerOnce_ctl (f : QFrame) (s : State) : (offerOnce f s).ctl = s.ctl := by
  unfold offerOnce; split <;> simp
@[simp] theorem offerOnce_alerts_mask (f : QFrame) (s : State) : (offerOnce f s).alerts.mask = s.alerts.mask := by
  unfold offerOnce; split <;> simp
@[simp] theorem offerOnce_alerts_master (f : QFrame) (s : State) : (offerOnce f s).alerts.master = s.alerts.master := by
  unfold offerOnce; split <;> simp
@[simp] theorem offerOnce_work_units (f : QFrame) (s : State) : (offerOnce f s).work.units = s.work.units := by
  unfold offerOnce; split <;> simp
@[simp] theorem offerOnce_work_status (f : QFrame) (s : State) : (offerOnce f s).work.status = s.work.status := by
  unfold offerOnce; split <;> simp
@[simp] theorem offerOnce_freeDraws (f : QFrame) (s : State) : (offerOnce f s).freeDraws = s.freeDraws := by
  unfold offerOnce; split <;> simp
@[simp] theorem offerOnce_pending (f : QFrame) (s : State) : (offerOnce f s).pending = s.pending := by
  unfold offerOnce; split <;> simp
@[simp] theorem flush_now (s : State) : (flush s).now = s.now := by
  unfold flush; dsimp only; (repeat' split) <;> simp
@[simp] theorem flush_resetHeld (s : State) : (flush s).resetHeld = s.resetHeld := by
  unfold flush; dsimp only; (repeat' split) <;> simp
@[simp] theorem flush_idx (s : State) : (flush s).idx = s.idx := by
  unfold flush; dsimp only; (repeat' split) <;> simp
@[simp] theorem flush_table (s : State) : (flush s).table = s.table := by
  unfold flush; dsimp only; (repeat' split) <;> simp
@[simp] theorem flush_eng (s : State) : (flush s).eng = s.eng := by
  unfold flush; dsimp only; (repeat' split) <;> simp
@[simp] theorem flush_drift (s : State) : (flush s).drift = s.drift := by
  unfold flush; dsimp only; (repeat' split) <;> simp
@[simp] theorem flush_pages (s : State) : (flush s).pages = s.pages := by
  unfold flush; dsimp only; (repeat' split) <;> simp
@[simp] theorem flush_gates (s : State) : (flush s).gates = s.gates := by
  unfold flush; dsimp only; (repeat' split) <;> simp
@[simp] theorem flush_link_tx (s : State) : (flush s).link.tx = s.link.tx := by
  unfold flush; dsimp only; (repeat' split) <;> simp
@[simp] theorem flush_link_rx (s : State) : (flush s).link.rx = s.link.rx := by
  unfold flush; dsimp only; (repeat' split) <;> simp
@[simp] theorem flush_link_lineIdle (s : State) : (flush s).link.lineIdle = s.link.lineIdle := by
  unfold flush; dsimp only; (repeat' split) <;> simp
@[simp] theorem flush_link_quietSince (s : State) : (flush s).link.quietSince = s.link.quietSince := by
  unfold flush; dsimp only; (repeat' split) <;> simp
@[simp] theorem flush_link_deferral (s : State) : (flush s).link.deferral = s.link.deferral := by
  unfold flush; dsimp only; (repeat' split) <;> simp
@[simp] theorem flush_link_lastSender (s : State) : (flush s).link.lastSender = s.link.lastSender := by
  unfold flush; dsimp only; (repeat' split) <;> simp
@[simp] theorem flush_peers (s : State) : (flush s).peers = s.peers := by
  unfold flush; dsimp only; (repeat' split) <;> simp
@[simp] theorem flush_ctl (s : State) : (flush s).ctl = s.ctl := by
  unfold flush; dsimp only; (repeat' split) <;> simp
@[simp] theorem flush_alerts_mask (s : State) : (flush s).alerts.mask = s.alerts.mask := by
  unfold flush; dsimp only; (repeat' split) <;> simp
@[simp] theorem flush_alerts_master (s : State) : (flush s).alerts.master = s.alerts.master := by
  unfold flush; dsimp only; (repeat' split) <;> simp
@[simp] theorem flush_freeDraws (s : State) : (flush s).freeDraws = s.freeDraws := by
  unfold flush; dsimp only; (repeat' split) <;> simp
@[simp] theorem flush_pending (s : State) : (flush s).pending = s.pending := by
  unfold flush; dsimp only; (repeat' split) <;> simp
@[simp] theorem tryStart_now (s : State) : (tryStart s).now = s.now := by
  unfold tryStart; dsimp only; (repeat' split) <;> simp
@[simp] theorem tryStart_resetHeld (s : State) : (tryStart s).resetHeld = s.resetHeld := by
  unfold tryStart; dsimp only; (repeat' split) <;> simp
@[simp] theorem tryStart_idx (s : State) : (tryStart s).idx = s.idx := by
  unfold tryStart; dsimp only; (repeat' split) <;> simp
@[simp] theorem tryStart_table (s : State) : (tryStart s).table = s.table := by
  unfold tryStart; dsimp only; (repeat' split) <;> simp
@[simp] theorem tryStart_eng (s : State) : (tryStart s).eng = s.eng := by
  unfold tryStart; dsimp only; (repeat' split) <;> simp
@[simp] theorem tryStart_drift (s : State) : (tryStart s).drift = s.drift := by
  unfold tryStart; dsimp only; (repeat' split) <;> simp
@[simp] theorem tryStart_pages (s : State) : (tryStart s).pages = s.pages := by
  unfold tryStart; dsimp only; (repeat' split) <;> simp
@[simp] theorem tryStart_gates (s : State) : (tryStart s).gates = s.gates := by
  unfold tryStart; dsimp only; (repeat' split) <;> simp
@[simp] theorem tryStart_link_queue (s : State) : (tryStart s).link.queue = s.link.queue := by
  unfold tryStart; dsimp only; (repeat' split) <;> simp
@[simp] theorem tryStart_link_rx (s : State) : (tryStart s).link.rx = s.link.rx := by
  unfold tryStart; dsimp only; (repeat' split) <;> simp
@[simp] theorem tryStart_link_lastSender (s : State) : (tryStart s).link.lastSender = s.link.lastSender := by
  unfold tryStart; dsimp only; (repeat' split) <;> simp
@[simp] theorem tryStart_peers (s : State) : (tryStart s).peers = s.peers := by
  unfold tryStart; dsimp only; (repeat' split) <;> simp
@[simp] theorem tryStart_ctl (s : State) : (tryStart s).ctl = s.ctl := by
  unfold tryStart; dsimp only; (repeat' split) <;> simp
@[simp] theorem tryStart_alerts (s : State) : (tryStart s).alerts = s.alerts := by
  unfold tryStart; dsimp only; (repeat' split) <;> simp
@[simp] theorem tryStart_work (s : State) : (tryStart s).work = s.work := by
  unfold tryStart; dsimp only; (repeat' split) <;> simp
@[simp] theorem tryStart_freeDraws (s : State) : (tryStart s).freeDraws = s.freeDraws := by
  unfold tryStart; dsimp only; (repeat' split) <;> simp
@[simp] theorem tryStart_pending (s : State) : (tryStart s).pending = s.pending := by
  unfold tryStart; dsimp only; (repeat' split) <;> simp
@[simp] theorem winClaim_now (s : State) : (winClaim s).now = s.now := by
  unfold winClaim; dsimp only; (repeat' split) <;> simp
@[simp] theorem winClaim_resetHeld (s : State) : (winClaim s).resetHeld = s.resetHeld := by
  unfold winClaim; dsimp only; (repeat' split) <;> simp
@[simp] theorem winClaim_idx (s : State) : (winClaim s).idx = s.idx := by
  unfold winClaim; dsimp only; (repeat' split) <;> simp
@[simp] theorem winClaim_table (s : State) : (winClaim s).table = s.table := by
  unfold winClaim; dsimp only; (repeat' split) <;> simp
@[simp] theorem winClaim_eng (s : State) : (winClaim s).eng = s.eng := by
  unfold winClaim; dsimp only; (repeat' split) <;> simp
@[simp] theorem winClaim_drift (s : State) : (winClaim s).drift = s.drift := by
  unfold winClaim; dsimp only; (repeat' split) <;> simp
@[simp] theorem winClaim_pages (s : State) : (winClaim s).pages = s.pages := by
  unfold winClaim; dsimp only; (repeat' split) <;> simp
@[simp] theorem winClaim_gates (s : State) : (winClaim s).gates = s.gates := by
  unfold winClaim; dsimp only; (repeat' split) <;> simp
@[simp] theorem winClaim_link_rx (s : State) : (winClaim s).link.rx = s.link.rx := by
  unfold winClaim; dsimp only; (repeat' split) <;> simp
@[simp] theorem winClaim_link_lineIdle (s : State) : (winClaim s).link.lineIdle = s.link.lineIdle := by
  unfold winClaim; dsimp only; (repeat' split) <;> simp
@[simp] theorem winClaim_link_quietSince (s : State) : (winClaim s).link.quietSince = s.link.quietSince := by
  unfold winClaim; dsimp only; (repeat' split) <;> simp
@[simp] theorem winClaim_link_deferral (s : State) : (winClaim s).link.deferral = s.link.deferral := by
  unfold winClaim; dsimp only; (repeat' split) <;> simp
@[simp] theorem winClaim_link_lastSender (s : State) : (winClaim s).link.lastSender = s.link.lastSender := by
  unfold winClaim; dsimp only; (repeat' split) <;> simp
@[simp] theorem winClaim_peers (s : State) : (winClaim s).peers = s.peers := by
  unfold winClaim; dsimp only; (repeat' split) <;> simp
@[simp] theorem winClaim_ctl (s : State) : (winClaim s).ctl = s.ctl := by
  unfold winClaim; dsimp only; (repeat' split) <;> simp
@[simp] theorem winClaim_alerts (s : State) : (winClaim s).alerts = s.alerts := by
  unfold winClaim; dsimp only; (repeat' split) <;> simp
@[simp] theorem winClaim_work (s : State) : (winClaim s).work = s.work := by
  unfold winClaim; dsimp only; (repeat' split) <;> simp
@[simp] theorem winClaim_freeDraws (s : State) : (winClaim s).freeDraws = s.freeDraws := by
  unfold winClaim; dsimp only; (repeat' split) <;> simp
@[simp] theorem winClaim_pending (s : State) : (winClaim s).pending = s.pending := by
  unfold winClaim; dsimp only; (repeat' split) <;> simp
@[simp] theorem advance_resetHeld (t : Instant) (s : State) : (advance t s).resetHeld = s.resetHeld := by simp [advance]
@[simp] theorem advance_idx (t : Instant) (s : State) : (advance t s).idx = s.idx := by simp [advance]
@[simp] theorem advance_table (t : Instant) (s : State) : (advance t s).table = s.table := by simp [advance]
@[simp] theorem advance_eng (t : Instant) (s : State) : (advance t s).eng = s.eng := by simp [advance]
@[simp] theorem advance_drift (t : Instant) (s : State) : (advance t s).drift = s.drift := by simp [advance]
@[simp] theorem advance_pages (t : Instant) (s : State) : (advance t s).pages = s.pages := by simp [advance]
@[simp] theorem advance_gates (t : Instant) (s : State) : (advance t s).gates = s.gates := by simp [advance]
@[simp] theorem advance_link_rx (t : Instant) (s : State) : (advance t s).link.rx = s.link.rx := by simp [advance]
@[simp] theorem advance_link_lineIdle (t : Instant) (s : State) : (advance t s).link.lineIdle = s.link.lineIdle := by simp [advance]
@[simp] theorem advance_link_quietSince (t : Instant) (s : State) : (advance t s).link.quietSince = s.link.quietSince := by simp [advance]
@[simp] theorem advance_link_deferral (t : Instant) (s : State) : (advance t s).link.deferral = s.link.deferral := by simp [advance]
@[simp] theorem advance_link_lastSender (t : Instant) (s : State) : (advance t s).link.lastSender = s.link.lastSender := by simp [advance]
@[simp] theorem advance_peers (t : Instant) (s : State) : (advance t s).peers = s.peers := by simp [advance]
@[simp] theorem advance_ctl (t : Instant) (s : State) : (advance t s).ctl = s.ctl := by simp [advance]
@[simp] theorem advance_alerts (t : Instant) (s : State) : (advance t s).alerts = s.alerts := by simp [advance]
@[simp] theorem advance_work (t : Instant) (s : State) : (advance t s).work = s.work := by simp [advance]
@[simp] theorem advance_freeDraws (t : Instant) (s : State) : (advance t s).freeDraws = s.freeDraws := by simp [advance]
@[simp] theorem advance_pending (t : Instant) (s : State) : (advance t s).pending = s.pending := by simp [advance]
@[simp] theorem settle_now (s : State) : (settle s).now = s.now := by simp [settle]
@[simp] theorem settle_resetHeld (s : State) : (settle s).resetHeld = s.resetHeld := by simp [settle]
@[simp] theorem settle_idx (s : State) : (settle s).idx = s.idx := by simp [settle]
@[simp] theorem settle_table (s : State) : (settle s).table = s.table := by simp [settle]
@[simp] theorem settle_eng (s : State) : (settle s).eng = s.eng := by simp [settle]
@[simp] theorem settle_drift (s : State) : (settle s).drift = s.drift := by simp [settle]
@[simp] theorem settle_pages (s : State) : (settle s).pages = s.pages := by simp [settle]
@[simp] theorem settle_gates (s : State) : (settle s).gates = s.gates := by simp [settle]
@[simp] theorem settle_link_rx (s : State) : (settle s).link.rx = s.link.rx := by simp [settle]
@[simp] theorem settle_link_lastSender (s : State) : (settle s).link.lastSender = s.link.lastSender := by simp [settle]
@[simp] theorem settle_peers (s : State) : (settle s).peers = s.peers := by simp [settle]
@[simp] theorem settle_ctl_node (s : State) : (settle s).ctl.node = s.ctl.node := by simp [settle]
@[simp] theorem settle_ctl_role (s : State) : (settle s).ctl.role = s.ctl.role := by simp [settle]
@[simp] theorem settle_ctl_faultReason (s : State) : (settle s).ctl.faultReason = s.ctl.faultReason := by simp [settle]
@[simp] theorem settle_ctl_activity (s : State) : (settle s).ctl.activity = s.ctl.activity := by simp [settle]
@[simp] theorem settle_ctl_cause (s : State) : (settle s).ctl.cause = s.ctl.cause := by simp [settle]
@[simp] theorem settle_ctl_listenDue (s : State) : (settle s).ctl.listenDue = s.ctl.listenDue := by simp [settle]
@[simp] theorem settle_ctl_items (s : State) : (settle s).ctl.items = s.ctl.items := by simp [settle]
@[simp] theorem settle_alerts_mask (s : State) : (settle s).alerts.mask = s.alerts.mask := by simp [settle]
@[simp] theorem settle_alerts_master (s : State) : (settle s).alerts.master = s.alerts.master := by simp [settle]
@[simp] theorem settle_freeDraws (s : State) : (settle s).freeDraws = s.freeDraws := by simp [settle]
@[simp] theorem settle_pending (s : State) : (settle s).pending = s.pending := by simp [settle]

end Sys2Proof.Machine
end

