-- ==== Sys2Proof/Laws/KeepEngine.lean ====
section
/-! SUPPORT. What the Measurement Engine leave as it was: one lemma for each operation and each block (or part of a block) that it does not touch. -/

-- One lemma after the other: elaborated side by side, the lemmas of one operation wait for its unfolding, each on a thread of its own.
set_option Elab.async false

namespace Sys2Proof.Machine

@[simp] theorem turnOff_now (s : State) : (turnOff s).now = s.now := by
  unfold turnOff; split <;> simp
@[simp] theorem turnOff_resetHeld (s : State) : (turnOff s).resetHeld = s.resetHeld := by
  unfold turnOff; split <;> simp
@[simp] theorem turnOff_idx (s : State) : (turnOff s).idx = s.idx := by
  unfold turnOff; split <;> simp
@[simp] theorem turnOff_table (s : State) : (turnOff s).table = s.table := by
  unfold turnOff; split <;> simp
@[simp] theorem turnOff_eng_ctx (s : State) : (turnOff s).eng.ctx = s.eng.ctx := by
  unfold turnOff; split <;> simp
@[simp] theorem turnOff_eng_recentPage (s : State) : (turnOff s).eng.recentPage = s.eng.recentPage := by
  unfold turnOff; split <;> simp
@[simp] theorem turnOff_eng_relays (s : State) : (turnOff s).eng.relays = s.eng.relays := by
  unfold turnOff; split <;> simp
@[simp] theorem turnOff_eng_channels (s : State) : (turnOff s).eng.channels = s.eng.channels := by
  unfold turnOff; split <;> simp
@[simp] theorem turnOff_drift (s : State) : (turnOff s).drift = s.drift := by
  unfold turnOff; split <;> simp
@[simp] theorem turnOff_pages (s : State) : (turnOff s).pages = s.pages := by
  unfold turnOff; split <;> simp
@[simp] theorem turnOff_gates (s : State) : (turnOff s).gates = s.gates := by
  unfold turnOff; split <;> simp
@[simp] theorem turnOff_link (s : State) : (turnOff s).link = s.link := by
  unfold turnOff; split <;> simp
@[simp] theorem turnOff_peers (s : State) : (turnOff s).peers = s.peers := by
  unfold turnOff; split <;> simp
@[simp] theorem turnOff_ctl (s : State) : (turnOff s).ctl = s.ctl := by
  unfold turnOff; split <;> simp
@[simp] theorem turnOff_alerts (s : State) : (turnOff s).alerts = s.alerts := by
  unfold turnOff; split <;> simp
@[simp] theorem turnOff_work (s : State) : (turnOff s).work = s.work := by
  unfold turnOff; split <;> simp
@[simp] theorem turnOff_freeDraws (s : State) : (turnOff s).freeDraws = s.freeDraws := by
  unfold turnOff; split <;> simp
@[simp] theorem turnOff_pending (s : State) : (turnOff s).pending = s.pending := by
  unfold turnOff; split <;> simp
@[simp] theorem setCtx_now (c : Ctx) (s : State) : (setCtx c s).now = s.now := by simp [setCtx]
@[simp] theorem setCtx_resetHeld (c : Ctx) (s : State) : (setCtx c s).resetHeld = s.resetHeld := by simp [setCtx]
@[simp] theorem setCtx_idx (c : Ctx) (s : State) : (setCtx c s).idx = s.idx := by simp [setCtx]
@[simp] theorem setCtx_table (c : Ctx) (s : State) : (setCtx c s).table = s.table := by simp [setCtx]
@[simp] theorem setCtx_eng_recentPage (c : Ctx) (s : State) : (setCtx c s).eng.recentPage = s.eng.recentPage := by simp [setCtx]
@[simp] theorem setCtx_eng_excitation (c : Ctx) (s : State) : (setCtx c s).eng.excitation = s.eng.excitation := by simp [setCtx]
@[simp] theorem setCtx_eng_lastOff (c : Ctx) (s : State) : (setCtx c s).eng.lastOff = s.eng.lastOff := by simp [setCtx]
@[simp] theorem setCtx_eng_relays (c : Ctx) (s : State) : (setCtx c s).eng.relays = s.eng.relays := by simp [setCtx]
@[simp] theorem setCtx_eng_channels (c : Ctx) (s : State) : (setCtx c s).eng.channels = s.eng.channels := by simp [setCtx]
@[simp] theorem setCtx_drift (c : Ctx) (s : State) : (setCtx c s).drift = s.drift := by simp [setCtx]
@[simp] theorem setCtx_pages (c : Ctx) (s : State) : (setCtx c s).pages = s.pages := by simp [setCtx]
@[simp] theorem setCtx_gates (c : Ctx) (s : State) : (setCtx c s).gates = s.gates := by simp [setCtx]
@[simp] theorem setCtx_link (c : Ctx) (s : State) : (setCtx c s).link = s.link := by simp [setCtx]
@[simp] theorem setCtx_peers (c : Ctx) (s : State) : (setCtx c s).peers = s.peers := by simp [setCtx]
@[simp] theorem setCtx_ctl (c : Ctx) (s : State) : (setCtx c s).ctl = s.ctl := by simp [setCtx]
@[simp] theorem setCtx_alerts (c : Ctx) (s : State) : (setCtx c s).alerts = s.alerts := by simp [setCtx]
@[simp] theorem setCtx_work (c : Ctx) (s : State) : (setCtx c s).work = s.work := by simp [setCtx]
@[simp] theorem setCtx_freeDraws (c : Ctx) (s : State) : (setCtx c s).freeDraws = s.freeDraws := by simp [setCtx]
@[simp] theorem setCtx_pending (c : Ctx) (s : State) : (setCtx c s).pending = s.pending := by simp [setCtx]
@[simp] theorem beginPhase_now (x : Excitation) (st : SeqState) (c : Ctx) (s : State) : (beginPhase x st c s).now = s.now := by simp [beginPhase]
@[simp] theorem beginPhase_resetHeld (x : Excitation) (st : SeqState) (c : Ctx) (s : State) : (beginPhase x st c s).resetHeld = s.resetHeld := by simp [beginPhase]
@[simp] theorem beginPhase_idx (x : Excitation) (st : SeqState) (c : Ctx) (s : State) : (beginPhase x st c s).idx = s.idx := by simp [beginPhase]
@[simp] theorem beginPhase_table (x : Excitation) (st : SeqState) (c : Ctx) (s : State) : (beginPhase x st c s).table = s.table := by simp [beginPhase]
@[simp] theorem beginPhase_eng_recentPage (x : Excitation) (st : SeqState) (c : Ctx) (s : State) : (beginPhase x st c s).eng.recentPage = s.eng.recentPage := by simp [beginPhase]
@[simp] theorem beginPhase_eng_lastOff (x : Excitation) (st : SeqState) (c : Ctx) (s : State) : (beginPhase x st c s).eng.lastOff = s.eng.lastOff := by simp [beginPhase]
@[simp] theorem beginPhase_eng_relays (x : Excitation) (st : SeqState) (c : Ctx) (s : State) : (beginPhase x st c s).eng.relays = s.eng.relays := by simp [beginPhase]
@[simp] theorem beginPhase_eng_channels (x : Excitation) (st : SeqState) (c : Ctx) (s : State) : (beginPhase x st c s).eng.channels = s.eng.channels := by simp [beginPhase]
@[simp] theorem beginPhase_drift (x : Excitation) (st : SeqState) (c : Ctx) (s : State) : (beginPhase x st c s).drift = s.drift := by simp [beginPhase]
@[simp] theorem beginPhase_pages (x : Excitation) (st : SeqState) (c : Ctx) (s : State) : (beginPhase x st c s).pages = s.pages := by simp [beginPhase]
@[simp] theorem beginPhase_gates (x : Excitation) (st : SeqState) (c : Ctx) (s : State) : (beginPhase x st c s).gates = s.gates := by simp [beginPhase]
@[simp] theorem beginPhase_link (x : Excitation) (st : SeqState) (c : Ctx) (s : State) : (beginPhase x st c s).link = s.link := by simp [beginPhase]
@[simp] theorem beginPhase_peers (x : Excitation) (st : SeqState) (c : Ctx) (s : State) : (beginPhase x st c s).peers = s.peers := by simp [beginPhase]
@[simp] theorem beginPhase_ctl (x : Excitation) (st : SeqState) (c : Ctx) (s : State) : (beginPhase x st c s).ctl = s.ctl := by simp [beginPhase]
@[simp] theorem beginPhase_alerts (x : Excitation) (st : SeqState) (c : Ctx) (s : State) : (beginPhase x st c s).alerts = s.alerts := by simp [beginPhase]
@[simp] theorem beginPhase_work (x : Excitation) (st : SeqState) (c : Ctx) (s : State) : (beginPhase x st c s).work = s.work := by simp [beginPhase]
@[simp] theorem beginPhase_freeDraws (x : Excitation) (st : SeqState) (c : Ctx) (s : State) : (beginPhase x st c s).freeDraws = s.freeDraws := by simp [beginPhase]
@[simp] theorem beginPhase_pending (x : Excitation) (st : SeqState) (c : Ctx) (s : State) : (beginPhase x st c s).pending = s.pending := by simp [beginPhase]
@[simp] theorem enterFwd_now (c : Ctx) (s : State) : (enterFwd c s).now = s.now := by
  unfold enterFwd; (repeat' split) <;> simp_all
@[simp] theorem enterFwd_resetHeld (c : Ctx) (s : State) : (enterFwd c s).resetHeld = s.resetHeld := by
  unfold enterFwd; (repeat' split) <;> simp_all
@[simp] theorem enterFwd_idx (c : Ctx) (s : State) : (enterFwd c s).idx = s.idx := by
  unfold enterFwd; (repeat' split) <;> simp_all
@[simp] theorem enterFwd_table (c : Ctx) (s : State) : (enterFwd c s).table = s.table := by
  unfold enterFwd; (repeat' split) <;> simp_all
@[simp] theorem enterFwd_eng_recentPage (c : Ctx) (s : State) : (enterFwd c s).eng.recentPage = s.eng.recentPage := by
  unfold enterFwd; (repeat' split) <;> simp_all
@[simp] theorem enterFwd_eng_lastOff (c : Ctx) (s : State) : (enterFwd c s).eng.lastOff = s.eng.lastOff := by
  unfold enterFwd; (repeat' split) <;> simp_all
@[simp] theorem enterFwd_eng_relays (c : Ctx) (s : State) : (enterFwd c s).eng.relays = s.eng.relays := by
  unfold enterFwd; (repeat' split) <;> simp_all
@[simp] theorem enterFwd_eng_channels (c : Ctx) (s : State) : (enterFwd c s).eng.channels = s.eng.channels := by
  unfold enterFwd; (repeat' split) <;> simp_all
@[simp] theorem enterFwd_drift (c : Ctx) (s : State) : (enterFwd c s).drift = s.drift := by
  unfold enterFwd; (repeat' split) <;> simp_all
@[simp] theorem enterFwd_pages (c : Ctx) (s : State) : (enterFwd c s).pages = s.pages := by
  unfold enterFwd; (repeat' split) <;> simp_all
@[simp] theorem enterFwd_gates (c : Ctx) (s : State) : (enterFwd c s).gates = s.gates := by
  unfold enterFwd; (repeat' split) <;> simp_all
@[simp] theorem enterFwd_link (c : Ctx) (s : State) : (enterFwd c s).link = s.link := by
  unfold enterFwd; (repeat' split) <;> simp_all
@[simp] theorem enterFwd_peers (c : Ctx) (s : State) : (enterFwd c s).peers = s.peers := by
  unfold enterFwd; (repeat' split) <;> simp_all
@[simp] theorem enterFwd_ctl (c : Ctx) (s : State) : (enterFwd c s).ctl = s.ctl := by
  unfold enterFwd; (repeat' split) <;> simp_all
@[simp] theorem enterFwd_alerts (c : Ctx) (s : State) : (enterFwd c s).alerts = s.alerts := by
  unfold enterFwd; (repeat' split) <;> simp_all
@[simp] theorem enterFwd_work (c : Ctx) (s : State) : (enterFwd c s).work = s.work := by
  unfold enterFwd; (repeat' split) <;> simp_all
@[simp] theorem enterFwd_freeDraws (c : Ctx) (s : State) : (enterFwd c s).freeDraws = s.freeDraws := by
  unfold enterFwd; (repeat' split) <;> simp_all
@[simp] theorem enterFwd_pending (c : Ctx) (s : State) : (enterFwd c s).pending = s.pending := by
  unfold enterFwd; (repeat' split) <;> simp_all
@[simp] theorem deliverValue_now (r : ValueRecord) (s : State) : (deliverValue r s).now = s.now := by
  unfold deliverValue; dsimp only; (repeat' split) <;> simp
@[simp] theorem deliverValue_resetHeld (r : ValueRecord) (s : State) : (deliverValue r s).resetHeld = s.resetHeld := by
  unfold deliverValue; dsimp only; (repeat' split) <;> simp
@[simp] theorem deliverValue_idx (r : ValueRecord) (s : State) : (deliverValue r s).idx = s.idx := by
  unfold deliverValue; dsimp only; (repeat' split) <;> simp
@[simp] theorem deliverValue_table_lastRemoved (r : ValueRecord) (s : State) : (deliverValue r s).table.lastRemoved = s.table.lastRemoved := by
  unfold deliverValue; dsimp only; (repeat' split) <;> simp
@[simp] theorem deliverValue_eng (r : ValueRecord) (s : State) : (deliverValue r s).eng = s.eng := by
  unfold deliverValue; dsimp only; (repeat' split) <;> simp
@[simp] theorem deliverValue_drift (r : ValueRecord) (s : State) : (deliverValue r s).drift = s.drift := by
  unfold deliverValue; dsimp only; (repeat' split) <;> simp
@[simp] theorem deliverValue_pages (r : ValueRecord) (s : State) : (deliverValue r s).pages = s.pages := by
  unfold deliverValue; dsimp only; (repeat' split) <;> simp
@[simp] theorem deliverValue_gates (r : ValueRecord) (s : State) : (deliverValue r s).gates = s.gates := by
  unfold deliverValue; dsimp only; (repeat' split) <;> simp
@[simp] theorem deliverValue_link (r : ValueRecord) (s : State) : (deliverValue r s).link = s.link := by
  unfold deliverValue; dsimp only; (repeat' split) <;> simp
@[simp] theorem deliverValue_peers (r : ValueRecord) (s : State) : (deliverValue r s).peers = s.peers := by
  unfold deliverValue; dsimp only; (repeat' split) <;> simp
@[simp] theorem deliverValue_ctl (r : ValueRecord) (s : State) : (deliverValue r s).ctl = s.ctl := by
  unfold deliverValue; dsimp only; (repeat' split) <;> simp
@[simp] theorem deliverValue_alerts (r : ValueRecord) (s : State) : (deliverValue r s).alerts = s.alerts := by
  unfold deliverValue; dsimp only; (repeat' split) <;> simp
@[simp] theorem deliverValue_work_status (r : ValueRecord) (s : State) : (deliverValue r s).work.status = s.work.status := by
  unfold deliverValue; dsimp only; (repeat' split) <;> simp
@[simp] theorem deliverValue_freeDraws (r : ValueRecord) (s : State) : (deliverValue r s).freeDraws = s.freeDraws := by
  unfold deliverValue; dsimp only; (repeat' split) <;> simp
@[simp] theorem deliverValue_pending (r : ValueRecord) (s : State) : (deliverValue r s).pending = s.pending := by
  unfold deliverValue; dsimp only; (repeat' split) <;> simp
@[simp] theorem deliverEntry_now (r : EntryRecord) (s : State) : (deliverEntry r s).now = s.now := by
  unfold deliverEntry; split <;> simp
@[simp] theorem deliverEntry_resetHeld (r : EntryRecord) (s : State) : (deliverEntry r s).resetHeld = s.resetHeld := by
  unfold deliverEntry; split <;> simp
@[simp] theorem deliverEntry_idx (r : EntryRecord) (s : State) : (deliverEntry r s).idx = s.idx := by
  unfold deliverEntry; split <;> simp
@[simp] theorem deliverEntry_table_lastRemoved (r : EntryRecord) (s : State) : (deliverEntry r s).table.lastRemoved = s.table.lastRemoved := by
  unfold deliverEntry; split <;> simp
@[simp] theorem deliverEntry_eng (r : EntryRecord) (s : State) : (deliverEntry r s).eng = s.eng := by
  unfold deliverEntry; split <;> simp
@[simp] theorem deliverEntry_drift (r : EntryRecord) (s : State) : (deliverEntry r s).drift = s.drift := by
  unfold deliverEntry; split <;> simp
@[simp] theorem deliverEntry_pages (r : EntryRecord) (s : State) : (deliverEntry r s).pages = s.pages := by
  unfold deliverEntry; split <;> simp
@[simp] theorem deliverEntry_gates (r : EntryRecord) (s : State) : (deliverEntry r s).gates = s.gates := by
  unfold deliverEntry; split <;> simp
@[simp] theorem deliverEntry_link (r : EntryRecord) (s : State) : (deliverEntry r s).link = s.link := by
  unfold deliverEntry; split <;> simp
@[simp] theorem deliverEntry_peers (r : EntryRecord) (s : State) : (deliverEntry r s).peers = s.peers := by
  unfold deliverEntry; split <;> simp
@[simp] theorem deliverEntry_ctl (r : EntryRecord) (s : State) : (deliverEntry r s).ctl = s.ctl := by
  unfold deliverEntry; split <;> simp
@[simp] theorem deliverEntry_alerts (r : EntryRecord) (s : State) : (deliverEntry r s).alerts = s.alerts := by
  unfold deliverEntry; split <;> simp
@[simp] theorem deliverEntry_work_status (r : EntryRecord) (s : State) : (deliverEntry r s).work.status = s.work.status := by
  unfold deliverEntry; split <;> simp
@[simp] theorem deliverEntry_freeDraws (r : EntryRecord) (s : State) : (deliverEntry r s).freeDraws = s.freeDraws := by
  unfold deliverEntry; split <;> simp
@[simp] theorem deliverEntry_pending (r : EntryRecord) (s : State) : (deliverEntry r s).pending = s.pending := by
  unfold deliverEntry; split <;> simp
@[simp] theorem deliverCheck_now (c : Ctx) (fwd rev : Pair) (s : State) : (deliverCheck c fwd rev s).now = s.now := by
  unfold deliverCheck; dsimp only; (repeat' split) <;> simp
@[simp] theorem deliverCheck_resetHeld (c : Ctx) (fwd rev : Pair) (s : State) : (deliverCheck c fwd rev s).resetHeld = s.resetHeld := by
  unfold deliverCheck; dsimp only; (repeat' split) <;> simp
@[simp] theorem deliverCheck_idx (c : Ctx) (fwd rev : Pair) (s : State) : (deliverCheck c fwd rev s).idx = s.idx := by
  unfold deliverCheck; dsimp only; (repeat' split) <;> simp
@[simp] theorem deliverCheck_table (c : Ctx) (fwd rev : Pair) (s : State) : (deliverCheck c fwd rev s).table = s.table := by
  unfold deliverCheck; dsimp only; (repeat' split) <;> simp
@[simp] theorem deliverCheck_eng (c : Ctx) (fwd rev : Pair) (s : State) : (deliverCheck c fwd rev s).eng = s.eng := by
  unfold deliverCheck; dsimp only; (repeat' split) <;> simp
@[simp] theorem deliverCheck_pages (c : Ctx) (fwd rev : Pair) (s : State) : (deliverCheck c fwd rev s).pages = s.pages := by
  unfold deliverCheck; dsimp only; (repeat' split) <;> simp
@[simp] theorem deliverCheck_gates (c : Ctx) (fwd rev : Pair) (s : State) : (deliverCheck c fwd rev s).gates = s.gates := by
  unfold deliverCheck; dsimp only; (repeat' split) <;> simp
@[simp] theorem deliverCheck_link (c : Ctx) (fwd rev : Pair) (s : State) : (deliverCheck c fwd rev s).link = s.link := by
  unfold deliverCheck; dsimp only; (repeat' split) <;> simp
@[simp] theorem deliverCheck_peers (c : Ctx) (fwd rev : Pair) (s : State) : (deliverCheck c fwd rev s).peers = s.peers := by
  unfold deliverCheck; dsimp only; (repeat' split) <;> simp
@[simp] theorem deliverCheck_ctl (c : Ctx) (fwd rev : Pair) (s : State) : (deliverCheck c fwd rev s).ctl = s.ctl := by
  unfold deliverCheck; dsimp only; (repeat' split) <;> simp
@[simp] theorem deliverCheck_alerts_mask (c : Ctx) (fwd rev : Pair) (s : State) : (deliverCheck c fwd rev s).alerts.mask = s.alerts.mask := by
  unfold deliverCheck; dsimp only; (repeat' split) <;> simp
@[simp] theorem deliverCheck_alerts_master (c : Ctx) (fwd rev : Pair) (s : State) : (deliverCheck c fwd rev s).alerts.master = s.alerts.master := by
  unfold deliverCheck; dsimp only; (repeat' split) <;> simp
@[simp] theorem deliverCheck_work_units (c : Ctx) (fwd rev : Pair) (s : State) : (deliverCheck c fwd rev s).work.units = s.work.units := by
  unfold deliverCheck; dsimp only; (repeat' split) <;> simp
@[simp] theorem deliverCheck_work_status (c : Ctx) (fwd rev : Pair) (s : State) : (deliverCheck c fwd rev s).work.status = s.work.status := by
  unfold deliverCheck; dsimp only; (repeat' split) <;> simp
@[simp] theorem deliverCheck_freeDraws (c : Ctx) (fwd rev : Pair) (s : State) : (deliverCheck c fwd rev s).freeDraws = s.freeDraws := by
  unfold deliverCheck; dsimp only; (repeat' split) <;> simp
@[simp] theorem deliverCheck_pending (c : Ctx) (fwd rev : Pair) (s : State) : (deliverCheck c fwd rev s).pending = s.pending := by
  unfold deliverCheck; dsimp only; (repeat' split) <;> simp
@[simp] theorem computeEnding_now (e : Ending) (c : Ctx) (s : State) : (computeEnding e c s).now = s.now := by
  unfold computeEnding; split <;> simp
@[simp] theorem computeEnding_resetHeld (e : Ending) (c : Ctx) (s : State) : (computeEnding e c s).resetHeld = s.resetHeld := by
  unfold computeEnding; split <;> simp
@[simp] theorem computeEnding_idx (e : Ending) (c : Ctx) (s : State) : (computeEnding e c s).idx = s.idx := by
  unfold computeEnding; split <;> simp
@[simp] theorem computeEnding_table_lastRemoved (e : Ending) (c : Ctx) (s : State) : (computeEnding e c s).table.lastRemoved = s.table.lastRemoved := by
  unfold computeEnding; split <;> simp
@[simp] theorem computeEnding_eng (e : Ending) (c : Ctx) (s : State) : (computeEnding e c s).eng = s.eng := by
  unfold computeEnding; split <;> simp
@[simp] theorem computeEnding_drift (e : Ending) (c : Ctx) (s : State) : (computeEnding e c s).drift = s.drift := by
  unfold computeEnding; split <;> simp
@[simp] theorem computeEnding_pages (e : Ending) (c : Ctx) (s : State) : (computeEnding e c s).pages = s.pages := by
  unfold computeEnding; split <;> simp
@[simp] theorem computeEnding_gates (e : Ending) (c : Ctx) (s : State) : (computeEnding e c s).gates = s.gates := by
  unfold computeEnding; split <;> simp
@[simp] theorem computeEnding_link (e : Ending) (c : Ctx) (s : State) : (computeEnding e c s).link = s.link := by
  unfold computeEnding; split <;> simp
@[simp] theorem computeEnding_peers (e : Ending) (c : Ctx) (s : State) : (computeEnding e c s).peers = s.peers := by
  unfold computeEnding; split <;> simp
@[simp] theorem computeEnding_ctl (e : Ending) (c : Ctx) (s : State) : (computeEnding e c s).ctl = s.ctl := by
  unfold computeEnding; split <;> simp
@[simp] theorem computeEnding_alerts (e : Ending) (c : Ctx) (s : State) : (computeEnding e c s).alerts = s.alerts := by
  unfold computeEnding; split <;> simp
@[simp] theorem computeEnding_work_status (e : Ending) (c : Ctx) (s : State) : (computeEnding e c s).work.status = s.work.status := by
  unfold computeEnding; split <;> simp
@[simp] theorem computeEnding_freeDraws (e : Ending) (c : Ctx) (s : State) : (computeEnding e c s).freeDraws = s.freeDraws := by
  unfold computeEnding; split <;> simp
@[simp] theorem computeEnding_pending (e : Ending) (c : Ctx) (s : State) : (computeEnding e c s).pending = s.pending := by
  unfold computeEnding; split <;> simp
@[simp] theorem computeRelease_now (c : Ctx) (fwd rev : Pair) (s : State) : (computeRelease c fwd rev s).now = s.now := by
  unfold computeRelease; split <;> simp
@[simp] theorem computeRelease_resetHeld (c : Ctx) (fwd rev : Pair) (s : State) : (computeRelease c fwd rev s).resetHeld = s.resetHeld := by
  unfold computeRelease; split <;> simp
@[simp] theorem computeRelease_idx (c : Ctx) (fwd rev : Pair) (s : State) : (computeRelease c fwd rev s).idx = s.idx := by
  unfold computeRelease; split <;> simp
@[simp] theorem computeRelease_table_lastRemoved (c : Ctx) (fwd rev : Pair) (s : State) : (computeRelease c fwd rev s).table.lastRemoved = s.table.lastRemoved := by
  unfold computeRelease; split <;> simp
@[simp] theorem computeRelease_eng (c : Ctx) (fwd rev : Pair) (s : State) : (computeRelease c fwd rev s).eng = s.eng := by
  unfold computeRelease; split <;> simp
@[simp] theorem computeRelease_pages (c : Ctx) (fwd rev : Pair) (s : State) : (computeRelease c fwd rev s).pages = s.pages := by
  unfold computeRelease; split <;> simp
@[simp] theorem computeRelease_gates (c : Ctx) (fwd rev : Pair) (s : State) : (computeRelease c fwd rev s).gates = s.gates := by
  unfold computeRelease; split <;> simp
@[simp] theorem computeRelease_link (c : Ctx) (fwd rev : Pair) (s : State) : (computeRelease c fwd rev s).link = s.link := by
  unfold computeRelease; split <;> simp
@[simp] theorem computeRelease_peers (c : Ctx) (fwd rev : Pair) (s : State) : (computeRelease c fwd rev s).peers = s.peers := by
  unfold computeRelease; split <;> simp
@[simp] theorem computeRelease_ctl (c : Ctx) (fwd rev : Pair) (s : State) : (computeRelease c fwd rev s).ctl = s.ctl := by
  unfold computeRelease; split <;> simp
@[simp] theorem computeRelease_alerts_mask (c : Ctx) (fwd rev : Pair) (s : State) : (computeRelease c fwd rev s).alerts.mask = s.alerts.mask := by
  unfold computeRelease; split <;> simp
@[simp] theorem computeRelease_alerts_master (c : Ctx) (fwd rev : Pair) (s : State) : (computeRelease c fwd rev s).alerts.master = s.alerts.master := by
  unfold computeRelease; split <;> simp
@[simp] theorem computeRelease_work_status (c : Ctx) (fwd rev : Pair) (s : State) : (computeRelease c fwd rev s).work.status = s.work.status := by
  unfold computeRelease; split <;> simp
@[simp] theorem computeRelease_freeDraws (c : Ctx) (fwd rev : Pair) (s : State) : (computeRelease c fwd rev s).freeDraws = s.freeDraws := by
  unfold computeRelease; split <;> simp
@[simp] theorem computeRelease_pending (c : Ctx) (fwd rev : Pair) (s : State) : (computeRelease c fwd rev s).pending = s.pending := by
  unfold computeRelease; split <;> simp
@[simp] theorem computeCoarse_now (c : Ctx) (fwd : Pair) (s : State) : (computeCoarse c fwd s).now = s.now := by simp [computeCoarse]
@[simp] theorem computeCoarse_resetHeld (c : Ctx) (fwd : Pair) (s : State) : (computeCoarse c fwd s).resetHeld = s.resetHeld := by simp [computeCoarse]
@[simp] theorem computeCoarse_idx (c : Ctx) (fwd : Pair) (s : State) : (computeCoarse c fwd s).idx = s.idx := by simp [computeCoarse]
@[simp] theorem computeCoarse_table_lastRemoved (c : Ctx) (fwd : Pair) (s : State) : (computeCoarse c fwd s).table.lastRemoved = s.table.lastRemoved := by simp [computeCoarse]
@[simp] theorem computeCoarse_eng (c : Ctx) (fwd : Pair) (s : State) : (computeCoarse c fwd s).eng = s.eng := by simp [computeCoarse]
@[simp] theorem computeCoarse_drift (c : Ctx) (fwd : Pair) (s : State) : (computeCoarse c fwd s).drift = s.drift := by simp [computeCoarse]
@[simp] theorem computeCoarse_pages (c : Ctx) (fwd : Pair) (s : State) : (computeCoarse c fwd s).pages = s.pages := by simp [computeCoarse]
@[simp] theorem computeCoarse_gates (c : Ctx) (fwd : Pair) (s : State) : (computeCoarse c fwd s).gates = s.gates := by simp [computeCoarse]
@[simp] theorem computeCoarse_link (c : Ctx) (fwd : Pair) (s : State) : (computeCoarse c fwd s).link = s.link := by simp [computeCoarse]
@[simp] theorem computeCoarse_peers (c : Ctx) (fwd : Pair) (s : State) : (computeCoarse c fwd s).peers = s.peers := by simp [computeCoarse]
@[simp] theorem computeCoarse_ctl (c : Ctx) (fwd : Pair) (s : State) : (computeCoarse c fwd s).ctl = s.ctl := by simp [computeCoarse]
@[simp] theorem computeCoarse_alerts_mask (c : Ctx) (fwd : Pair) (s : State) : (computeCoarse c fwd s).alerts.mask = s.alerts.mask := by simp [computeCoarse]
@[simp] theorem computeCoarse_alerts_master (c : Ctx) (fwd : Pair) (s : State) : (computeCoarse c fwd s).alerts.master = s.alerts.master := by simp [computeCoarse]
@[simp] theorem computeCoarse_work_status (c : Ctx) (fwd : Pair) (s : State) : (computeCoarse c fwd s).work.status = s.work.status := by simp [computeCoarse]
@[simp] theorem computeCoarse_freeDraws (c : Ctx) (fwd : Pair) (s : State) : (computeCoarse c fwd s).freeDraws = s.freeDraws := by simp [computeCoarse]
@[simp] theorem computeCoarse_pending (c : Ctx) (fwd : Pair) (s : State) : (computeCoarse c fwd s).pending = s.pending := by simp [computeCoarse]
@[simp] theorem closeSequence_now (s : State) : (closeSequence s).now = s.now := by simp [closeSequence]
@[simp] theorem closeSequence_resetHeld (s : State) : (closeSequence s).resetHeld = s.resetHeld := by simp [closeSequence]
@[simp] theorem closeSequence_idx_count (s : State) : (closeSequence s).idx.count = s.idx.count := by simp [closeSequence]
@[simp] theorem closeSequence_idx_lastIndex (s : State) : (closeSequence s).idx.lastIndex = s.idx.lastIndex := by simp [closeSequence]
@[simp] theorem closeSequence_idx_retireLimit (s : State) : (closeSequence s).idx.retireLimit = s.idx.retireLimit := by simp [closeSequence]
@[simp] theorem closeSequence_idx_currentPage (s : State) : (closeSequence s).idx.currentPage = s.idx.currentPage := by simp [closeSequence]
@[simp] theorem closeSequence_idx_firingReq (s : State) : (closeSequence s).idx.firingReq = s.idx.firingReq := by simp [closeSequence]
@[simp] theorem closeSequence_table (s : State) : (closeSequence s).table = s.table := by simp [closeSequence]
@[simp] theorem closeSequence_eng_recentPage (s : State) : (closeSequence s).eng.recentPage = s.eng.recentPage := by simp [closeSequence]
@[simp] theorem closeSequence_eng_relays (s : State) : (closeSequence s).eng.relays = s.eng.relays := by simp [closeSequence]
@[simp] theorem closeSequence_eng_channels (s : State) : (closeSequence s).eng.channels = s.eng.channels := by simp [closeSequence]
@[simp] theorem closeSequence_drift (s : State) : (closeSequence s).drift = s.drift := by simp [closeSequence]
@[simp] theorem closeSequence_pages (s : State) : (closeSequence s).pages = s.pages := by simp [closeSequence]
@[simp] theorem closeSequence_gates (s : State) : (closeSequence s).gates = s.gates := by simp [closeSequence]
@[simp] theorem closeSequence_link (s : State) : (closeSequence s).link = s.link := by simp [closeSequence]
@[simp] theorem closeSequence_peers (s : State) : (closeSequence s).peers = s.peers := by simp [closeSequence]
@[simp] theorem closeSequence_ctl (s : State) : (closeSequence s).ctl = s.ctl := by simp [closeSequence]
@[simp] theorem closeSequence_alerts (s : State) : (closeSequence s).alerts = s.alerts := by simp [closeSequence]
@[simp] theorem closeSequence_work (s : State) : (closeSequence s).work = s.work := by simp [closeSequence]
@[simp] theorem closeSequence_freeDraws (s : State) : (closeSequence s).freeDraws = s.freeDraws := by simp [closeSequence]
@[simp] theorem closeSequence_pending (s : State) : (closeSequence s).pending = s.pending := by simp [closeSequence]
@[simp] theorem endEarly_now (e : Ending) (c : Ctx) (s : State) : (endEarly e c s).now = s.now := by simp [endEarly]
@[simp] theorem endEarly_resetHeld (e : Ending) (c : Ctx) (s : State) : (endEarly e c s).resetHeld = s.resetHeld := by simp [endEarly]
@[simp] theorem endEarly_idx_count (e : Ending) (c : Ctx) (s : State) : (endEarly e c s).idx.count = s.idx.count := by simp [endEarly]
@[simp] theorem endEarly_idx_lastIndex (e : Ending) (c : Ctx) (s : State) : (endEarly e c s).idx.lastIndex = s.idx.lastIndex := by simp [endEarly]
@[simp] theorem endEarly_idx_retireLimit (e : Ending) (c : Ctx) (s : State) : (endEarly e c s).idx.retireLimit = s.idx.retireLimit := by simp [endEarly]
@[simp] theorem endEarly_idx_currentPage (e : Ending) (c : Ctx) (s : State) : (endEarly e c s).idx.currentPage = s.idx.currentPage := by simp [endEarly]
@[simp] theorem endEarly_idx_firingReq (e : Ending) (c : Ctx) (s : State) : (endEarly e c s).idx.firingReq = s.idx.firingReq := by simp [endEarly]
@[simp] theorem endEarly_table_lastRemoved (e : Ending) (c : Ctx) (s : State) : (endEarly e c s).table.lastRemoved = s.table.lastRemoved := by simp [endEarly]
@[simp] theorem endEarly_eng_recentPage (e : Ending) (c : Ctx) (s : State) : (endEarly e c s).eng.recentPage = s.eng.recentPage := by simp [endEarly]
@[simp] theorem endEarly_eng_relays (e : Ending) (c : Ctx) (s : State) : (endEarly e c s).eng.relays = s.eng.relays := by simp [endEarly]
@[simp] theorem endEarly_eng_channels (e : Ending) (c : Ctx) (s : State) : (endEarly e c s).eng.channels = s.eng.channels := by simp [endEarly]
@[simp] theorem endEarly_drift (e : Ending) (c : Ctx) (s : State) : (endEarly e c s).drift = s.drift := by simp [endEarly]
@[simp] theorem endEarly_pages (e : Ending) (c : Ctx) (s : State) : (endEarly e c s).pages = s.pages := by simp [endEarly]
@[simp] theorem endEarly_gates (e : Ending) (c : Ctx) (s : State) : (endEarly e c s).gates = s.gates := by simp [endEarly]
@[simp] theorem endEarly_link (e : Ending) (c : Ctx) (s : State) : (endEarly e c s).link = s.link := by simp [endEarly]
@[simp] theorem endEarly_peers (e : Ending) (c : Ctx) (s : State) : (endEarly e c s).peers = s.peers := by simp [endEarly]
@[simp] theorem endEarly_ctl (e : Ending) (c : Ctx) (s : State) : (endEarly e c s).ctl = s.ctl := by simp [endEarly]
@[simp] theorem endEarly_alerts (e : Ending) (c : Ctx) (s : State) : (endEarly e c s).alerts = s.alerts := by simp [endEarly]
@[simp] theorem endEarly_work_status (e : Ending) (c : Ctx) (s : State) : (endEarly e c s).work.status = s.work.status := by simp [endEarly]
@[simp] theorem endEarly_freeDraws (e : Ending) (c : Ctx) (s : State) : (endEarly e c s).freeDraws = s.freeDraws := by simp [endEarly]
@[simp] theorem endEarly_pending (e : Ending) (c : Ctx) (s : State) : (endEarly e c s).pending = s.pending := by simp [endEarly]
@[simp] theorem endRunning_now (e : Ending) (s : State) : (endRunning e s).now = s.now := by
  unfold endRunning; split <;> simp
@[simp] theorem endRunning_resetHeld (e : Ending) (s : State) : (endRunning e s).resetHeld = s.resetHeld := by
  unfold endRunning; split <;> simp
@[simp] theorem endRunning_idx_count (e : Ending) (s : State) : (endRunning e s).idx.count = s.idx.count := by
  unfold endRunning; split <;> simp
@[simp] theorem endRunning_idx_lastIndex (e : Ending) (s : State) : (endRunning e s).idx.lastIndex = s.idx.lastIndex := by
  unfold endRunning; split <;> simp
@[simp] theorem endRunning_idx_retireLimit (e : Ending) (s : State) : (endRunning e s).idx.retireLimit = s.idx.retireLimit := by
  unfold endRunning; split <;> simp
@[simp] theorem endRunning_idx_currentPage (e : Ending) (s : State) : (endRunning e s).idx.currentPage = s.idx.currentPage := by
  unfold endRunning; split <;> simp
@[simp] theorem endRunning_idx_firingReq (e : Ending) (s : State) : (endRunning e s).idx.firingReq = s.idx.firingReq := by
  unfold endRunning; split <;> simp
@[simp] theorem endRunning_table_lastRemoved (e : Ending) (s : State) : (endRunning e s).table.lastRemoved = s.table.lastRemoved := by
  unfold endRunning; split <;> simp
@[simp] theorem endRunning_eng_recentPage (e : Ending) (s : State) : (endRunning e s).eng.recentPage = s.eng.recentPage := by
  unfold endRunning; split <;> simp
@[simp] theorem endRunning_eng_relays (e : Ending) (s : State) : (endRunning e s).eng.relays = s.eng.relays := by
  unfold endRunning; split <;> simp
@[simp] theorem endRunning_eng_channels (e : Ending) (s : State) : (endRunning e s).eng.channels = s.eng.channels := by
  unfold endRunning; split <;> simp
@[simp] theorem endRunning_drift (e : Ending) (s : State) : (endRunning e s).drift = s.drift := by
  unfold endRunning; split <;> simp
@[simp] theorem endRunning_pages (e : Ending) (s : State) : (endRunning e s).pages = s.pages := by
  unfold endRunning; split <;> simp
@[simp] theorem endRunning_gates (e : Ending) (s : State) : (endRunning e s).gates = s.gates := by
  unfold endRunning; split <;> simp
@[simp] theorem endRunning_link (e : Ending) (s : State) : (endRunning e s).link = s.link := by
  unfold endRunning; split <;> simp
@[simp] theorem endRunning_peers (e : Ending) (s : State) : (endRunning e s).peers = s.peers := by
  unfold endRunning; split <;> simp
@[simp] theorem endRunning_ctl (e : Ending) (s : State) : (endRunning e s).ctl = s.ctl := by
  unfold endRunning; split <;> simp
@[simp] theorem endRunning_alerts (e : Ending) (s : State) : (endRunning e s).alerts = s.alerts := by
  unfold endRunning; split <;> simp
@[simp] theorem endRunning_work_status (e : Ending) (s : State) : (endRunning e s).work.status = s.work.status := by
  unfold endRunning; split <;> simp
@[simp] theorem endRunning_freeDraws (e : Ending) (s : State) : (endRunning e s).freeDraws = s.freeDraws := by
  unfold endRunning; split <;> simp
@[simp] theorem endRunning_pending (e : Ending) (s : State) : (endRunning e s).pending = s.pending := by
  unfold endRunning; split <;> simp
@[simp] theorem discardSequence_now (s : State) : (discardSequence s).now = s.now := by
  unfold discardSequence; split <;> simp
@[simp] theorem discardSequence_resetHeld (s : State) : (discardSequence s).resetHeld = s.resetHeld := by
  unfold discardSequence; split <;> simp
@[simp] theorem discardSequence_idx_count (s : State) : (discardSequence s).idx.count = s.idx.count := by
  unfold discardSequence; split <;> simp
@[simp] theorem discardSequence_idx_lastIndex (s : State) : (discardSequence s).idx.lastIndex = s.idx.lastIndex := by
  unfold discardSequence; split <;> simp
@[simp] theorem discardSequence_idx_retireLimit (s : State) : (discardSequence s).idx.retireLimit = s.idx.retireLimit := by
  unfold discardSequence; split <;> simp
@[simp] theorem discardSequence_idx_currentPage (s : State) : (discardSequence s).idx.currentPage = s.idx.currentPage := by
  unfold discardSequence; split <;> simp
@[simp] theorem discardSequence_idx_firingReq (s : State) : (discardSequence s).idx.firingReq = s.idx.firingReq := by
  unfold discardSequence; split <;> simp
@[simp] theorem discardSequence_table (s : State) : (discardSequence s).table = s.table := by
  unfold discardSequence; split <;> simp
@[simp] theorem discardSequence_eng_recentPage (s : State) : (discardSequence s).eng.recentPage = s.eng.recentPage := by
  unfold discardSequence; split <;> simp
@[simp] theorem discardSequence_drift (s : State) : (discardSequence s).drift = s.drift := by
  unfold discardSequence; split <;> simp
@[simp] theorem discardSequence_pages (s : State) : (discardSequence s).pages = s.pages := by
  unfold discardSequence; split <;> simp
@[simp] theorem discardSequence_gates (s : State) : (discardSequence s).gates = s.gates := by
  unfold discardSequence; split <;> simp
@[simp] theorem discardSequence_link (s : State) : (discardSequence s).link = s.link := by
  unfold discardSequence; split <;> simp
@[simp] theorem discardSequence_peers (s : State) : (discardSequence s).peers = s.peers := by
  unfold discardSequence; split <;> simp
@[simp] theorem discardSequence_ctl (s : State) : (discardSequence s).ctl = s.ctl := by
  unfold discardSequence; split <;> simp
@[simp] theorem discardSequence_alerts (s : State) : (discardSequence s).alerts = s.alerts := by
  unfold discardSequence; split <;> simp
@[simp] theorem discardSequence_work (s : State) : (discardSequence s).work = s.work := by
  unfold discardSequence; split <;> simp
@[simp] theorem discardSequence_freeDraws (s : State) : (discardSequence s).freeDraws = s.freeDraws := by
  unfold discardSequence; split <;> simp
@[simp] theorem discardSequence_pending (s : State) : (discardSequence s).pending = s.pending := by
  unfold discardSequence; split <;> simp
@[simp] theorem startSequence_now (kind : WorkKind) (tag : BitVec 16) (st : PageStamp) (assumed : Bool) (s : State) : (startSequence kind tag st assumed s).now = s.now := by simp [startSequence]
@[simp] theorem startSequence_resetHeld (kind : WorkKind) (tag : BitVec 16) (st : PageStamp) (assumed : Bool) (s : State) : (startSequence kind tag st assumed s).resetHeld = s.resetHeld := by simp [startSequence]
@[simp] theorem startSequence_idx_count (kind : WorkKind) (tag : BitVec 16) (st : PageStamp) (assumed : Bool) (s : State) : (startSequence kind tag st assumed s).idx.count = s.idx.count := by simp [startSequence]
@[simp] theorem startSequence_idx_lastIndex (kind : WorkKind) (tag : BitVec 16) (st : PageStamp) (assumed : Bool) (s : State) : (startSequence kind tag st assumed s).idx.lastIndex = s.idx.lastIndex := by simp [startSequence]
@[simp] theorem startSequence_idx_retireLimit (kind : WorkKind) (tag : BitVec 16) (st : PageStamp) (assumed : Bool) (s : State) : (startSequence kind tag st assumed s).idx.retireLimit = s.idx.retireLimit := by simp [startSequence]
@[simp] theorem startSequence_idx_currentPage (kind : WorkKind) (tag : BitVec 16) (st : PageStamp) (assumed : Bool) (s : State) : (startSequence kind tag st assumed s).idx.currentPage = s.idx.currentPage := by simp [startSequence]
@[simp] theorem startSequence_idx_firingReq (kind : WorkKind) (tag : BitVec 16) (st : PageStamp) (assumed : Bool) (s : State) : (startSequence kind tag st assumed s).idx.firingReq = s.idx.firingReq := by simp [startSequence]
@[simp] theorem startSequence_table (kind : WorkKind) (tag : BitVec 16) (st : PageStamp) (assumed : Bool) (s : State) : (startSequence kind tag st assumed s).table = s.table := by simp [startSequence]
@[simp] theorem startSequence_eng_excitation (kind : WorkKind) (tag : BitVec 16) (st : PageStamp) (assumed : Bool) (s : State) : (startSequence kind tag st assumed s).eng.excitation = s.eng.excitation := by simp [startSequence]
@[simp] theorem startSequence_eng_lastOff (kind : WorkKind) (tag : BitVec 16) (st : PageStamp) (assumed : Bool) (s : State) : (startSequence kind tag st assumed s).eng.lastOff = s.eng.lastOff := by simp [startSequence]
@[simp] theorem startSequence_drift (kind : WorkKind) (tag : BitVec 16) (st : PageStamp) (assumed : Bool) (s : State) : (startSequence kind tag st assumed s).drift = s.drift := by simp [startSequence]
@[simp] theorem startSequence_pages (kind : WorkKind) (tag : BitVec 16) (st : PageStamp) (assumed : Bool) (s : State) : (startSequence kind tag st assumed s).pages = s.pages := by simp [startSequence]
@[simp] theorem startSequence_gates (kind : WorkKind) (tag : BitVec 16) (st : PageStamp) (assumed : Bool) (s : State) : (startSequence kind tag st assumed s).gates = s.gates := by simp [startSequence]
@[simp] theorem startSequence_link (kind : WorkKind) (tag : BitVec 16) (st : PageStamp) (assumed : Bool) (s : State) : (startSequence kind tag st assumed s).link = s.link := by simp [startSequence]
@[simp] theorem startSequence_peers (kind : WorkKind) (tag : BitVec 16) (st : PageStamp) (assumed : Bool) (s : State) : (startSequence kind tag st assumed s).peers = s.peers := by simp [startSequence]
@[simp] theorem startSequence_ctl (kind : WorkKind) (tag : BitVec 16) (st : PageStamp) (assumed : Bool) (s : State) : (startSequence kind tag st assumed s).ctl = s.ctl := by simp [startSequence]
@[simp] theorem startSequence_alerts (kind : WorkKind) (tag : BitVec 16) (st : PageStamp) (assumed : Bool) (s : State) : (startSequence kind tag st assumed s).alerts = s.alerts := by simp [startSequence]
@[simp] theorem startSequence_work (kind : WorkKind) (tag : BitVec 16) (st : PageStamp) (assumed : Bool) (s : State) : (startSequence kind tag st assumed s).work = s.work := by simp [startSequence]
@[simp] theorem startSequence_freeDraws (kind : WorkKind) (tag : BitVec 16) (st : PageStamp) (assumed : Bool) (s : State) : (startSequence kind tag st assumed s).freeDraws = s.freeDraws := by simp [startSequence]
@[simp] theorem startSequence_pending (kind : WorkKind) (tag : BitVec 16) (st : PageStamp) (assumed : Bool) (s : State) : (startSequence kind tag st assumed s).pending = s.pending := by simp [startSequence]
@[simp] theorem markMeasuring_now (tag : BitVec 16) (st : Option PageStamp) (assumed : Bool) (s : State) : (markMeasuring tag st assumed s).now = s.now := by
  unfold markMeasuring; split <;> simp
@[simp] theorem markMeasuring_resetHeld (tag : BitVec 16) (st : Option PageStamp) (assumed : Bool) (s : State) : (markMeasuring tag st assumed s).resetHeld = s.resetHeld := by
  unfold markMeasuring; split <;> simp
@[simp] theorem markMeasuring_idx (tag : BitVec 16) (st : Option PageStamp) (assumed : Bool) (s : State) : (markMeasuring tag st assumed s).idx = s.idx := by
  unfold markMeasuring; split <;> simp
@[simp] theorem markMeasuring_table_lastRemoved (tag : BitVec 16) (st : Option PageStamp) (assumed : Bool) (s : State) : (markMeasuring tag st assumed s).table.lastRemoved = s.table.lastRemoved := by
  unfold markMeasuring; split <;> simp
@[simp] theorem markMeasuring_eng (tag : BitVec 16) (st : Option PageStamp) (assumed : Bool) (s : State) : (markMeasuring tag st assumed s).eng = s.eng := by
  unfold markMeasuring; split <;> simp
@[simp] theorem markMeasuring_drift (tag : BitVec 16) (st : Option PageStamp) (assumed : Bool) (s : State) : (markMeasuring tag st assumed s).drift = s.drift := by
  unfold markMeasuring; split <;> simp
@[simp] theorem markMeasuring_pages (tag : BitVec 16) (st : Option PageStamp) (assumed : Bool) (s : State) : (markMeasuring tag st assumed s).pages = s.pages := by
  unfold markMeasuring; split <;> simp
@[simp] theorem markMeasuring_gates (tag : BitVec 16) (st : Option PageStamp) (assumed : Bool) (s : State) : (markMeasuring tag st assumed s).gates = s.gates := by
  unfold markMeasuring; split <;> simp
@[simp] theorem markMeasuring_link (tag : BitVec 16) (st : Option PageStamp) (assumed : Bool) (s : State) : (markMeasuring tag st assumed s).link = s.link := by
  unfold markMeasuring; split <;> simp
@[simp] theorem markMeasuring_peers (tag : BitVec 16) (st : Option PageStamp) (assumed : Bool) (s : State) : (markMeasuring tag st assumed s).peers = s.peers := by
  unfold markMeasuring; split <;> simp
@[simp] theorem markMeasuring_ctl (tag : BitVec 16) (st : Option PageStamp) (assumed : Bool) (s : State) : (markMeasuring tag st assumed s).ctl = s.ctl := by
  unfold markMeasuring; split <;> simp
@[simp] theorem markMeasuring_alerts (tag : BitVec 16) (st : Option PageStamp) (assumed : Bool) (s : State) : (markMeasuring tag st assumed s).alerts = s.alerts := by
  unfold markMeasuring; split <;> simp
@[simp] theorem markMeasuring_work (tag : BitVec 16) (st : Option PageStamp) (assumed : Bool) (s : State) : (markMeasuring tag st assumed s).work = s.work := by
  unfold markMeasuring; split <;> simp
@[simp] theorem markMeasuring_freeDraws (tag : BitVec 16) (st : Option PageStamp) (assumed : Bool) (s : State) : (markMeasuring tag st assumed s).freeDraws = s.freeDraws := by
  unfold markMeasuring; split <;> simp
@[simp] theorem markMeasuring_pending (tag : BitVec 16) (st : Option PageStamp) (assumed : Bool) (s : State) : (markMeasuring tag st assumed s).pending = s.pending := by
  unfold markMeasuring; split <;> simp
@[simp] theorem startCoarse_now (tag : BitVec 16) (s : State) : (startCoarse tag s).now = s.now := by simp [startCoarse]
@[simp] theorem startCoarse_resetHeld (tag : BitVec 16) (s : State) : (startCoarse tag s).resetHeld = s.resetHeld := by simp [startCoarse]
@[simp] theorem startCoarse_idx_count (tag : BitVec 16) (s : State) : (startCoarse tag s).idx.count = s.idx.count := by simp [startCoarse]
@[simp] theorem startCoarse_idx_lastIndex (tag : BitVec 16) (s : State) : (startCoarse tag s).idx.lastIndex = s.idx.lastIndex := by simp [startCoarse]
@[simp] theorem startCoarse_idx_retireLimit (tag : BitVec 16) (s : State) : (startCoarse tag s).idx.retireLimit = s.idx.retireLimit := by simp [startCoarse]
@[simp] theorem startCoarse_idx_currentPage (tag : BitVec 16) (s : State) : (startCoarse tag s).idx.currentPage = s.idx.currentPage := by simp [startCoarse]
@[simp] theorem startCoarse_idx_firingReq (tag : BitVec 16) (s : State) : (startCoarse tag s).idx.firingReq = s.idx.firingReq := by simp [startCoarse]
@[simp] theorem startCoarse_table_lastRemoved (tag : BitVec 16) (s : State) : (startCoarse tag s).table.lastRemoved = s.table.lastRemoved := by simp [startCoarse]
@[simp] theorem startCoarse_eng_excitation (tag : BitVec 16) (s : State) : (startCoarse tag s).eng.excitation = s.eng.excitation := by simp [startCoarse]
@[simp] theorem startCoarse_eng_lastOff (tag : BitVec 16) (s : State) : (startCoarse tag s).eng.lastOff = s.eng.lastOff := by simp [startCoarse]
@[simp] theorem startCoarse_drift (tag : BitVec 16) (s : State) : (startCoarse tag s).drift = s.drift := by simp [startCoarse]
@[simp] theorem startCoarse_pages (tag : BitVec 16) (s : State) : (startCoarse tag s).pages = s.pages := by simp [startCoarse]
@[simp] theorem startCoarse_gates (tag : BitVec 16) (s : State) : (startCoarse tag s).gates = s.gates := by simp [startCoarse]
@[simp] theorem startCoarse_link (tag : BitVec 16) (s : State) : (startCoarse tag s).link = s.link := by simp [startCoarse]
@[simp] theorem startCoarse_peers (tag : BitVec 16) (s : State) : (startCoarse tag s).peers = s.peers := by simp [startCoarse]
@[simp] theorem startCoarse_ctl (tag : BitVec 16) (s : State) : (startCoarse tag s).ctl = s.ctl := by simp [startCoarse]
@[simp] theorem startCoarse_alerts (tag : BitVec 16) (s : State) : (startCoarse tag s).alerts = s.alerts := by simp [startCoarse]
@[simp] theorem startCoarse_work (tag : BitVec 16) (s : State) : (startCoarse tag s).work = s.work := by simp [startCoarse]
@[simp] theorem startCoarse_freeDraws (tag : BitVec 16) (s : State) : (startCoarse tag s).freeDraws = s.freeDraws := by simp [startCoarse]
@[simp] theorem startCoarse_pending (tag : BitVec 16) (s : State) : (startCoarse tag s).pending = s.pending := by simp [startCoarse]
@[simp] theorem assumePage_now (tag : BitVec 16) (found : Option PageStamp) (s : State) : (assumePage tag found s).now = s.now := by
  unfold assumePage; split <;> simp
@[simp] theorem assumePage_resetHeld (tag : BitVec 16) (found : Option PageStamp) (s : State) : (assumePage tag found s).resetHeld = s.resetHeld := by
  unfold assumePage; split <;> simp
@[simp] theorem assumePage_idx (tag : BitVec 16) (found : Option PageStamp) (s : State) : (assumePage tag found s).idx = s.idx := by
  unfold assumePage; split <;> simp
@[simp] theorem assumePage_table_lastRemoved (tag : BitVec 16) (found : Option PageStamp) (s : State) : (assumePage tag found s).table.lastRemoved = s.table.lastRemoved := by
  unfold assumePage; split <;> simp
@[simp] theorem assumePage_eng (tag : BitVec 16) (found : Option PageStamp) (s : State) : (assumePage tag found s).eng = s.eng := by
  unfold assumePage; split <;> simp
@[simp] theorem assumePage_drift (tag : BitVec 16) (found : Option PageStamp) (s : State) : (assumePage tag found s).drift = s.drift := by
  unfold assumePage; split <;> simp
@[simp] theorem assumePage_pages (tag : BitVec 16) (found : Option PageStamp) (s : State) : (assumePage tag found s).pages = s.pages := by
  unfold assumePage; split <;> simp
@[simp] theorem assumePage_gates (tag : BitVec 16) (found : Option PageStamp) (s : State) : (assumePage tag found s).gates = s.gates := by
  unfold assumePage; split <;> simp
@[simp] theorem assumePage_link (tag : BitVec 16) (found : Option PageStamp) (s : State) : (assumePage tag found s).link = s.link := by
  unfold assumePage; split <;> simp
@[simp] theorem assumePage_peers (tag : BitVec 16) (found : Option PageStamp) (s : State) : (assumePage tag found s).peers = s.peers := by
  unfold assumePage; split <;> simp
@[simp] theorem assumePage_ctl (tag : BitVec 16) (found : Option PageStamp) (s : State) : (assumePage tag found s).ctl = s.ctl := by
  unfold assumePage; split <;> simp
@[simp] theorem assumePage_alerts (tag : BitVec 16) (found : Option PageStamp) (s : State) : (assumePage tag found s).alerts = s.alerts := by
  unfold assumePage; split <;> simp
@[simp] theorem assumePage_work (tag : BitVec 16) (found : Option PageStamp) (s : State) : (assumePage tag found s).work = s.work := by
  unfold assumePage; split <;> simp
@[simp] theorem assumePage_freeDraws (tag : BitVec 16) (found : Option PageStamp) (s : State) : (assumePage tag found s).freeDraws = s.freeDraws := by
  unfold assumePage; split <;> simp
@[simp] theorem assumePage_pending (tag : BitVec 16) (found : Option PageStamp) (s : State) : (assumePage tag found s).pending = s.pending := by
  unfold assumePage; split <;> simp
@[simp] theorem startUnit_now (tag : BitVec 16) (s : State) : (startUnit tag s).now = s.now := by
  unfold startUnit; dsimp only; (repeat' split) <;> simp
@[simp] theorem startUnit_resetHeld (tag : BitVec 16) (s : State) : (startUnit tag s).resetHeld = s.resetHeld := by
  unfold startUnit; dsimp only; (repeat' split) <;> simp
@[simp] theorem startUnit_idx_count (tag : BitVec 16) (s : State) : (startUnit tag s).idx.count = s.idx.count := by
  unfold startUnit; dsimp only; (repeat' split) <;> simp
@[simp] theorem startUnit_idx_lastIndex (tag : BitVec 16) (s : State) : (startUnit tag s).idx.lastIndex = s.idx.lastIndex := by
  unfold startUnit; dsimp only; (repeat' split) <;> simp
@[simp] theorem startUnit_idx_retireLimit (tag : BitVec 16) (s : State) : (startUnit tag s).idx.retireLimit = s.idx.retireLimit := by
  unfold startUnit; dsimp only; (repeat' split) <;> simp
@[simp] theorem startUnit_idx_currentPage (tag : BitVec 16) (s : State) : (startUnit tag s).idx.currentPage = s.idx.currentPage := by
  unfold startUnit; dsimp only; (repeat' split) <;> simp
@[simp] theorem startUnit_idx_firingReq (tag : BitVec 16) (s : State) : (startUnit tag s).idx.firingReq = s.idx.firingReq := by
  unfold startUnit; dsimp only; (repeat' split) <;> simp
@[simp] theorem startUnit_table_lastRemoved (tag : BitVec 16) (s : State) : (startUnit tag s).table.lastRemoved = s.table.lastRemoved := by
  unfold startUnit; dsimp only; (repeat' split) <;> simp
@[simp] theorem startUnit_eng_excitation (tag : BitVec 16) (s : State) : (startUnit tag s).eng.excitation = s.eng.excitation := by
  unfold startUnit; dsimp only; (repeat' split) <;> simp
@[simp] theorem startUnit_eng_lastOff (tag : BitVec 16) (s : State) : (startUnit tag s).eng.lastOff = s.eng.lastOff := by
  unfold startUnit; dsimp only; (repeat' split) <;> simp
@[simp] theorem startUnit_drift (tag : BitVec 16) (s : State) : (startUnit tag s).drift = s.drift := by
  unfold startUnit; dsimp only; (repeat' split) <;> simp
@[simp] theorem startUnit_pages (tag : BitVec 16) (s : State) : (startUnit tag s).pages = s.pages := by
  unfold startUnit; dsimp only; (repeat' split) <;> simp
@[simp] theorem startUnit_gates (tag : BitVec 16) (s : State) : (startUnit tag s).gates = s.gates := by
  unfold startUnit; dsimp only; (repeat' split) <;> simp
@[simp] theorem startUnit_link (tag : BitVec 16) (s : State) : (startUnit tag s).link = s.link := by
  unfold startUnit; dsimp only; (repeat' split) <;> simp
@[simp] theorem startUnit_peers (tag : BitVec 16) (s : State) : (startUnit tag s).peers = s.peers := by
  unfold startUnit; dsimp only; (repeat' split) <;> simp
@[simp] theorem startUnit_ctl (tag : BitVec 16) (s : State) : (startUnit tag s).ctl = s.ctl := by
  unfold startUnit; dsimp only; (repeat' split) <;> simp
@[simp] theorem startUnit_alerts (tag : BitVec 16) (s : State) : (startUnit tag s).alerts = s.alerts := by
  unfold startUnit; dsimp only; (repeat' split) <;> simp
@[simp] theorem startUnit_work_status (tag : BitVec 16) (s : State) : (startUnit tag s).work.status = s.work.status := by
  unfold startUnit; dsimp only; (repeat' split) <;> simp
@[simp] theorem startUnit_freeDraws (tag : BitVec 16) (s : State) : (startUnit tag s).freeDraws = s.freeDraws := by
  unfold startUnit; dsimp only; (repeat' split) <;> simp
@[simp] theorem startUnit_pending (tag : BitVec 16) (s : State) : (startUnit tag s).pending = s.pending := by
  unfold startUnit; dsimp only; (repeat' split) <;> simp
@[simp] theorem skipUnit_now (tag : BitVec 16) (s : State) : (skipUnit tag s).now = s.now := by simp [skipUnit]
@[simp] theorem skipUnit_resetHeld (tag : BitVec 16) (s : State) : (skipUnit tag s).resetHeld = s.resetHeld := by simp [skipUnit]
@[simp] theorem skipUnit_idx (tag : BitVec 16) (s : State) : (skipUnit tag s).idx = s.idx := by simp [skipUnit]
@[simp] theorem skipUnit_table_lastRemoved (tag : BitVec 16) (s : State) : (skipUnit tag s).table.lastRemoved = s.table.lastRemoved := by simp [skipUnit]
@[simp] theorem skipUnit_eng (tag : BitVec 16) (s : State) : (skipUnit tag s).eng = s.eng := by simp [skipUnit]
@[simp] theorem skipUnit_drift (tag : BitVec 16) (s : State) : (skipUnit tag s).drift = s.drift := by simp [skipUnit]
@[simp] theorem skipUnit_pages (tag : BitVec 16) (s : State) : (skipUnit tag s).pages = s.pages := by simp [skipUnit]
@[simp] theorem skipUnit_gates (tag : BitVec 16) (s : State) : (skipUnit tag s).gates = s.gates := by simp [skipUnit]
@[simp] theorem skipUnit_link (tag : BitVec 16) (s : State) : (skipUnit tag s).link = s.link := by simp [skipUnit]
@[simp] theorem skipUnit_peers (tag : BitVec 16) (s : State) : (skipUnit tag s).peers = s.peers := by simp [skipUnit]
@[simp] theorem skipUnit_ctl (tag : BitVec 16) (s : State) : (skipUnit tag s).ctl = s.ctl := by simp [skipUnit]
@[simp] theorem skipUnit_alerts (tag : BitVec 16) (s : State) : (skipUnit tag s).alerts = s.alerts := by simp [skipUnit]
@[simp] theorem skipUnit_work (tag : BitVec 16) (s : State) : (skipUnit tag s).work = s.work := by simp [skipUnit]
@[simp] theorem skipUnit_freeDraws (tag : BitVec 16) (s : State) : (skipUnit tag s).freeDraws = s.freeDraws := by simp [skipUnit]
@[simp] theorem skipUnit_pending (tag : BitVec 16) (s : State) : (skipUnit tag s).pending = s.pending := by simp [skipUnit]
@[simp] theorem startCheck_now (tag : BitVec 16) (s : State) : (startCheck tag s).now = s.now := by
  unfold startCheck; dsimp only; (repeat' split) <;> simp
@[simp] theorem startCheck_resetHeld (tag : BitVec 16) (s : State) : (startCheck tag s).resetHeld = s.resetHeld := by
  unfold startCheck; dsimp only; (repeat' split) <;> simp
@[simp] theorem startCheck_idx_count (tag : BitVec 16) (s : State) : (startCheck tag s).idx.count = s.idx.count := by
  unfold startCheck; dsimp only; (repeat' split) <;> simp
@[simp] theorem startCheck_idx_lastIndex (tag : BitVec 16) (s : State) : (startCheck tag s).idx.lastIndex = s.idx.lastIndex := by
  unfold startCheck; dsimp only; (repeat' split) <;> simp
@[simp] theorem startCheck_idx_retireLimit (tag : BitVec 16) (s : State) : (startCheck tag s).idx.retireLimit = s.idx.retireLimit := by
  unfold startCheck; dsimp only; (repeat' split) <;> simp
@[simp] theorem startCheck_idx_currentPage (tag : BitVec 16) (s : State) : (startCheck tag s).idx.currentPage = s.idx.currentPage := by
  unfold startCheck; dsimp only; (repeat' split) <;> simp
@[simp] theorem startCheck_idx_firingReq (tag : BitVec 16) (s : State) : (startCheck tag s).idx.firingReq = s.idx.firingReq := by
  unfold startCheck; dsimp only; (repeat' split) <;> simp
@[simp] theorem startCheck_table_lastRemoved (tag : BitVec 16) (s : State) : (startCheck tag s).table.lastRemoved = s.table.lastRemoved := by
  unfold startCheck; dsimp only; (repeat' split) <;> simp
@[simp] theorem startCheck_eng_excitation (tag : BitVec 16) (s : State) : (startCheck tag s).eng.excitation = s.eng.excitation := by
  unfold startCheck; dsimp only; (repeat' split) <;> simp
@[simp] theorem startCheck_eng_lastOff (tag : BitVec 16) (s : State) : (startCheck tag s).eng.lastOff = s.eng.lastOff := by
  unfold startCheck; dsimp only; (repeat' split) <;> simp
@[simp] theorem startCheck_drift (tag : BitVec 16) (s : State) : (startCheck tag s).drift = s.drift := by
  unfold startCheck; dsimp only; (repeat' split) <;> simp
@[simp] theorem startCheck_pages (tag : BitVec 16) (s : State) : (startCheck tag s).pages = s.pages := by
  unfold startCheck; dsimp only; (repeat' split) <;> simp
@[simp] theorem startCheck_gates (tag : BitVec 16) (s : State) : (startCheck tag s).gates = s.gates := by
  unfold startCheck; dsimp only; (repeat' split) <;> simp
@[simp] theorem startCheck_link (tag : BitVec 16) (s : State) : (startCheck tag s).link = s.link := by
  unfold startCheck; dsimp only; (repeat' split) <;> simp
@[simp] theorem startCheck_peers (tag : BitVec 16) (s : State) : (startCheck tag s).peers = s.peers := by
  unfold startCheck; dsimp only; (repeat' split) <;> simp
@[simp] theorem startCheck_ctl (tag : BitVec 16) (s : State) : (startCheck tag s).ctl = s.ctl := by
  unfold startCheck; dsimp only; (repeat' split) <;> simp
@[simp] theorem startCheck_alerts (tag : BitVec 16) (s : State) : (startCheck tag s).alerts = s.alerts := by
  unfold startCheck; dsimp only; (repeat' split) <;> simp
@[simp] theorem startCheck_work (tag : BitVec 16) (s : State) : (startCheck tag s).work = s.work := by
  unfold startCheck; dsimp only; (repeat' split) <;> simp
@[simp] theorem startCheck_freeDraws (tag : BitVec 16) (s : State) : (startCheck tag s).freeDraws = s.freeDraws := by
  unfold startCheck; dsimp only; (repeat' split) <;> simp
@[simp] theorem startCheck_pending (tag : BitVec 16) (s : State) : (startCheck tag s).pending = s.pending := by
  unfold startCheck; dsimp only; (repeat' split) <;> simp
@[simp] theorem chooseMeasure_now (tag : BitVec 16) (s : State) : (chooseMeasure tag s).now = s.now := by
  unfold chooseMeasure; split <;> simp
@[simp] theorem chooseMeasure_resetHeld (tag : BitVec 16) (s : State) : (chooseMeasure tag s).resetHeld = s.resetHeld := by
  unfold chooseMeasure; split <;> simp
@[simp] theorem chooseMeasure_idx_count (tag : BitVec 16) (s : State) : (chooseMeasure tag s).idx.count = s.idx.count := by
  unfold chooseMeasure; split <;> simp
@[simp] theorem chooseMeasure_idx_lastIndex (tag : BitVec 16) (s : State) : (chooseMeasure tag s).idx.lastIndex = s.idx.lastIndex := by
  unfold chooseMeasure; split <;> simp
@[simp] theorem chooseMeasure_idx_retireLimit (tag : BitVec 16) (s : State) : (chooseMeasure tag s).idx.retireLimit = s.idx.retireLimit := by
  unfold chooseMeasure; split <;> simp
@[simp] theorem chooseMeasure_idx_currentPage (tag : BitVec 16) (s : State) : (chooseMeasure tag s).idx.currentPage = s.idx.currentPage := by
  unfold chooseMeasure; split <;> simp
@[simp] theorem chooseMeasure_idx_firingReq (tag : BitVec 16) (s : State) : (chooseMeasure tag s).idx.firingReq = s.idx.firingReq := by
  unfold chooseMeasure; split <;> simp
@[simp] theorem chooseMeasure_table_lastRemoved (tag : BitVec 16) (s : State) : (chooseMeasure tag s).table.lastRemoved = s.table.lastRemoved := by
  unfold chooseMeasure; split <;> simp
@[simp] theorem chooseMeasure_eng_excitation (tag : BitVec 16) (s : State) : (chooseMeasure tag s).eng.excitation = s.eng.excitation := by
  unfold chooseMeasure; split <;> simp
@[simp] theorem chooseMeasure_eng_lastOff (tag : BitVec 16) (s : State) : (chooseMeasure tag s).eng.lastOff = s.eng.lastOff := by
  unfold chooseMeasure; split <;> simp
@[simp] theorem chooseMeasure_drift (tag : BitVec 16) (s : State) : (chooseMeasure tag s).drift = s.drift := by
  unfold chooseMeasure; split <;> simp
@[simp] theorem chooseMeasure_pages (tag : BitVec 16) (s : State) : (chooseMeasure tag s).pages = s.pages := by
  unfold chooseMeasure; split <;> simp
@[simp] theorem chooseMeasure_gates (tag : BitVec 16) (s : State) : (chooseMeasure tag s).gates = s.gates := by
  unfold chooseMeasure; split <;> simp
@[simp] theorem chooseMeasure_link (tag : BitVec 16) (s : State) : (chooseMeasure tag s).link = s.link := by
  unfold chooseMeasure; split <;> simp
@[simp] theorem chooseMeasure_peers (tag : BitVec 16) (s : State) : (chooseMeasure tag s).peers = s.peers := by
  unfold chooseMeasure; split <;> simp
@[simp] theorem chooseMeasure_ctl (tag : BitVec 16) (s : State) : (chooseMeasure tag s).ctl = s.ctl := by
  unfold chooseMeasure; split <;> simp
@[simp] theorem chooseMeasure_alerts (tag : BitVec 16) (s : State) : (chooseMeasure tag s).alerts = s.alerts := by
  unfold chooseMeasure; split <;> simp
@[simp] theorem chooseMeasure_work_status (tag : BitVec 16) (s : State) : (chooseMeasure tag s).work.status = s.work.status := by
  unfold chooseMeasure; split <;> simp
@[simp] theorem chooseMeasure_freeDraws (tag : BitVec 16) (s : State) : (chooseMeasure tag s).freeDraws = s.freeDraws := by
  unfold chooseMeasure; split <;> simp
@[simp] theorem chooseMeasure_pending (tag : BitVec 16) (s : State) : (chooseMeasure tag s).pending = s.pending := by
  unfold chooseMeasure; split <;> simp
@[simp] theorem chooseRetest_now (tag : BitVec 16) (s : State) : (chooseRetest tag s).now = s.now := by
  unfold chooseRetest; (repeat' split) <;> simp_all
@[simp] theorem chooseRetest_resetHeld (tag : BitVec 16) (s : State) : (chooseRetest tag s).resetHeld = s.resetHeld := by
  unfold chooseRetest; (repeat' split) <;> simp_all
@[simp] theorem chooseRetest_idx_count (tag : BitVec 16) (s : State) : (chooseRetest tag s).idx.count = s.idx.count := by
  unfold chooseRetest; (repeat' split) <;> simp_all
@[simp] theorem chooseRetest_idx_lastIndex (tag : BitVec 16) (s : State) : (chooseRetest tag s).idx.lastIndex = s.idx.lastIndex := by
  unfold chooseRetest; (repeat' split) <;> simp_all
@[simp] theorem chooseRetest_idx_retireLimit (tag : BitVec 16) (s : State) : (chooseRetest tag s).idx.retireLimit = s.idx.retireLimit := by
  unfold chooseRetest; (repeat' split) <;> simp_all
@[simp] theorem chooseRetest_idx_currentPage (tag : BitVec 16) (s : State) : (chooseRetest tag s).idx.currentPage = s.idx.currentPage := by
  unfold chooseRetest; (repeat' split) <;> simp_all
@[simp] theorem chooseRetest_idx_firingReq (tag : BitVec 16) (s : State) : (chooseRetest tag s).idx.firingReq = s.idx.firingReq := by
  unfold chooseRetest; (repeat' split) <;> simp_all
@[simp] theorem chooseRetest_table_lastRemoved (tag : BitVec 16) (s : State) : (chooseRetest tag s).table.lastRemoved = s.table.lastRemoved := by
  unfold chooseRetest; (repeat' split) <;> simp_all
@[simp] theorem chooseRetest_eng_excitation (tag : BitVec 16) (s : State) : (chooseRetest tag s).eng.excitation = s.eng.excitation := by
  unfold chooseRetest; (repeat' split) <;> simp_all
@[simp] theorem chooseRetest_eng_lastOff (tag : BitVec 16) (s : State) : (chooseRetest tag s).eng.lastOff = s.eng.lastOff := by
  unfold chooseRetest; (repeat' split) <;> simp_all
@[simp] theorem chooseRetest_drift (tag : BitVec 16) (s : State) : (chooseRetest tag s).drift = s.drift := by
  unfold chooseRetest; (repeat' split) <;> simp_all
@[simp] theorem chooseRetest_pages (tag : BitVec 16) (s : State) : (chooseRetest tag s).pages = s.pages := by
  unfold chooseRetest; (repeat' split) <;> simp_all
@[simp] theorem chooseRetest_gates (tag : BitVec 16) (s : State) : (chooseRetest tag s).gates = s.gates := by
  unfold chooseRetest; (repeat' split) <;> simp_all
@[simp] theorem chooseRetest_link (tag : BitVec 16) (s : State) : (chooseRetest tag s).link = s.link := by
  unfold chooseRetest; (repeat' split) <;> simp_all
@[simp] theorem chooseRetest_peers (tag : BitVec 16) (s : State) : (chooseRetest tag s).peers = s.peers := by
  unfold chooseRetest; (repeat' split) <;> simp_all
@[simp] theorem chooseRetest_ctl (tag : BitVec 16) (s : State) : (chooseRetest tag s).ctl = s.ctl := by
  unfold chooseRetest; (repeat' split) <;> simp_all
@[simp] theorem chooseRetest_alerts (tag : BitVec 16) (s : State) : (chooseRetest tag s).alerts = s.alerts := by
  unfold chooseRetest; (repeat' split) <;> simp_all
@[simp] theorem chooseRetest_work_status (tag : BitVec 16) (s : State) : (chooseRetest tag s).work.status = s.work.status := by
  unfold chooseRetest; (repeat' split) <;> simp_all
@[simp] theorem chooseRetest_freeDraws (tag : BitVec 16) (s : State) : (chooseRetest tag s).freeDraws = s.freeDraws := by
  unfold chooseRetest; (repeat' split) <;> simp_all
@[simp] theorem chooseRetest_pending (tag : BitVec 16) (s : State) : (chooseRetest tag s).pending = s.pending := by
  unfold chooseRetest; (repeat' split) <;> simp_all
@[simp] theorem takeWork_now (s : State) : (takeWork s).now = s.now := by
  unfold takeWork; dsimp only; (repeat' split) <;> simp
@[simp] theorem takeWork_resetHeld (s : State) : (takeWork s).resetHeld = s.resetHeld := by
  unfold takeWork; dsimp only; (repeat' split) <;> simp
@[simp] theorem takeWork_idx_count (s : State) : (takeWork s).idx.count = s.idx.count := by
  unfold takeWork; dsimp only; (repeat' split) <;> simp
@[simp] theorem takeWork_idx_lastIndex (s : State) : (takeWork s).idx.lastIndex = s.idx.lastIndex := by
  unfold takeWork; dsimp only; (repeat' split) <;> simp
@[simp] theorem takeWork_idx_retireLimit (s : State) : (takeWork s).idx.retireLimit = s.idx.retireLimit := by
  unfold takeWork; dsimp only; (repeat' split) <;> simp
@[simp] theorem takeWork_idx_currentPage (s : State) : (takeWork s).idx.currentPage = s.idx.currentPage := by
  unfold takeWork; dsimp only; (repeat' split) <;> simp
@[simp] theorem takeWork_idx_firingReq (s : State) : (takeWork s).idx.firingReq = s.idx.firingReq := by
  unfold takeWork; dsimp only; (repeat' split) <;> simp
@[simp] theorem takeWork_table_lastRemoved (s : State) : (takeWork s).table.lastRemoved = s.table.lastRemoved := by
  unfold takeWork; dsimp only; (repeat' split) <;> simp
@[simp] theorem takeWork_eng_excitation (s : State) : (takeWork s).eng.excitation = s.eng.excitation := by
  unfold takeWork; dsimp only; (repeat' split) <;> simp
@[simp] theorem takeWork_eng_lastOff (s : State) : (takeWork s).eng.lastOff = s.eng.lastOff := by
  unfold takeWork; dsimp only; (repeat' split) <;> simp
@[simp] theorem takeWork_drift (s : State) : (takeWork s).drift = s.drift := by
  unfold takeWork; dsimp only; (repeat' split) <;> simp
@[simp] theorem takeWork_pages (s : State) : (takeWork s).pages = s.pages := by
  unfold takeWork; dsimp only; (repeat' split) <;> simp
@[simp] theorem takeWork_gates (s : State) : (takeWork s).gates = s.gates := by
  unfold takeWork; dsimp only; (repeat' split) <;> simp
@[simp] theorem takeWork_link (s : State) : (takeWork s).link = s.link := by
  unfold takeWork; dsimp only; (repeat' split) <;> simp
@[simp] theorem takeWork_peers (s : State) : (takeWork s).peers = s.peers := by
  unfold takeWork; dsimp only; (repeat' split) <;> simp
@[simp] theorem takeWork_ctl (s : State) : (takeWork s).ctl = s.ctl := by
  unfold takeWork; dsimp only; (repeat' split) <;> simp
@[simp] theorem takeWork_alerts (s : State) : (takeWork s).alerts = s.alerts := by
  unfold takeWork; dsimp only; (repeat' split) <;> simp
@[simp] theorem takeWork_work_status (s : State) : (takeWork s).work.status = s.work.status := by
  unfold takeWork; dsimp only; (repeat' split) <;> simp
@[simp] theorem takeWork_freeDraws (s : State) : (takeWork s).freeDraws = s.freeDraws := by
  unfold takeWork; dsimp only; (repeat' split) <;> simp
@[simp] theorem takeWork_pending (s : State) : (takeWork s).pending = s.pending := by
  unfold takeWork; dsimp only; (repeat' split) <;> simp
@[simp] theorem endSettle_now (s : State) : (endSettle s).now = s.now := by
  unfold endSettle; split <;> simp
@[simp] theorem endSettle_resetHeld (s : State) : (endSettle s).resetHeld = s.resetHeld := by
  unfold endSettle; split <;> simp
@[simp] theorem endSettle_idx (s : State) : (endSettle s).idx = s.idx := by
  unfold endSettle; split <;> simp
@[simp] theorem endSettle_table (s : State) : (endSettle s).table = s.table := by
  unfold endSettle; split <;> simp
@[simp] theorem endSettle_eng_recentPage (s : State) : (endSettle s).eng.recentPage = s.eng.recentPage := by
  unfold endSettle; split <;> simp
@[simp] theorem endSettle_eng_excitation (s : State) : (endSettle s).eng.excitation = s.eng.excitation := by
  unfold endSettle; split <;> simp
@[simp] theorem endSettle_eng_lastOff (s : State) : (endSettle s).eng.lastOff = s.eng.lastOff := by
  unfold endSettle; split <;> simp
@[simp] theorem endSettle_eng_relays (s : State) : (endSettle s).eng.relays = s.eng.relays := by
  unfold endSettle; split <;> simp
@[simp] theorem endSettle_eng_channels (s : State) : (endSettle s).eng.channels = s.eng.channels := by
  unfold endSettle; split <;> simp
@[simp] theorem endSettle_drift (s : State) : (endSettle s).drift = s.drift := by
  unfold endSettle; split <;> simp
@[simp] theorem endSettle_pages (s : State) : (endSettle s).pages = s.pages := by
  unfold endSettle; split <;> simp
@[simp] theorem endSettle_gates (s : State) : (endSettle s).gates = s.gates := by
  unfold endSettle; split <;> simp
@[simp] theorem endSettle_link (s : State) : (endSettle s).link = s.link := by
  unfold endSettle; split <;> simp
@[simp] theorem endSettle_peers (s : State) : (endSettle s).peers = s.peers := by
  unfold endSettle; split <;> simp
@[simp] theorem endSettle_ctl (s : State) : (endSettle s).ctl = s.ctl := by
  unfold endSettle; split <;> simp
@[simp] theorem endSettle_alerts (s : State) : (endSettle s).alerts = s.alerts := by
  unfold endSettle; split <;> simp
@[simp] theorem endSettle_work (s : State) : (endSettle s).work = s.work := by
  unfold endSettle; split <;> simp
@[simp] theorem endSettle_freeDraws (s : State) : (endSettle s).freeDraws = s.freeDraws := by
  unfold endSettle; split <;> simp
@[simp] theorem endSettle_pending (s : State) : (endSettle s).pending = s.pending := by
  unfold endSettle; split <;> simp
@[simp] theorem endContactTest_now (milliohms : Nat) (s : State) : (endContactTest milliohms s).now = s.now := by
  unfold endContactTest; (repeat' split) <;> simp_all
@[simp] theorem endContactTest_resetHeld (milliohms : Nat) (s : State) : (endContactTest milliohms s).resetHeld = s.resetHeld := by
  unfold endContactTest; (repeat' split) <;> simp_all
@[simp] theorem endContactTest_idx_count (milliohms : Nat) (s : State) : (endContactTest milliohms s).idx.count = s.idx.count := by
  unfold endContactTest; (repeat' split) <;> simp_all
@[simp] theorem endContactTest_idx_lastIndex (milliohms : Nat) (s : State) : (endContactTest milliohms s).idx.lastIndex = s.idx.lastIndex := by
  unfold endContactTest; (repeat' split) <;> simp_all
@[simp] theorem endContactTest_idx_retireLimit (milliohms : Nat) (s : State) : (endContactTest milliohms s).idx.retireLimit = s.idx.retireLimit := by
  unfold endContactTest; (repeat' split) <;> simp_all
@[simp] theorem endContactTest_idx_currentPage (milliohms : Nat) (s : State) : (endContactTest milliohms s).idx.currentPage = s.idx.currentPage := by
  unfold endContactTest; (repeat' split) <;> simp_all
@[simp] theorem endContactTest_idx_firingReq (milliohms : Nat) (s : State) : (endContactTest milliohms s).idx.firingReq = s.idx.firingReq := by
  unfold endContactTest; (repeat' split) <;> simp_all
@[simp] theorem endContactTest_table_lastRemoved (milliohms : Nat) (s : State) : (endContactTest milliohms s).table.lastRemoved = s.table.lastRemoved := by
  unfold endContactTest; (repeat' split) <;> simp_all
@[simp] theorem endContactTest_eng_recentPage (milliohms : Nat) (s : State) : (endContactTest milliohms s).eng.recentPage = s.eng.recentPage := by
  unfold endContactTest; (repeat' split) <;> simp_all
@[simp] theorem endContactTest_eng_relays (milliohms : Nat) (s : State) : (endContactTest milliohms s).eng.relays = s.eng.relays := by
  unfold endContactTest; (repeat' split) <;> simp_all
@[simp] theorem endContactTest_eng_channels (milliohms : Nat) (s : State) : (endContactTest milliohms s).eng.channels = s.eng.channels := by
  unfold endContactTest; (repeat' split) <;> simp_all
@[simp] theorem endContactTest_drift (milliohms : Nat) (s : State) : (endContactTest milliohms s).drift = s.drift := by
  unfold endContactTest; (repeat' split) <;> simp_all
@[simp] theorem endContactTest_pages (milliohms : Nat) (s : State) : (endContactTest milliohms s).pages = s.pages := by
  unfold endContactTest; (repeat' split) <;> simp_all
@[simp] theorem endContactTest_gates (milliohms : Nat) (s : State) : (endContactTest milliohms s).gates = s.gates := by
  unfold endContactTest; (repeat' split) <;> simp_all
@[simp] theorem endContactTest_link (milliohms : Nat) (s : State) : (endContactTest milliohms s).link = s.link := by
  unfold endContactTest; (repeat' split) <;> simp_all
@[simp] theorem endContactTest_peers (milliohms : Nat) (s : State) : (endContactTest milliohms s).peers = s.peers := by
  unfold endContactTest; (repeat' split) <;> simp_all
@[simp] theorem endContactTest_ctl (milliohms : Nat) (s : State) : (endContactTest milliohms s).ctl = s.ctl := by
  unfold endContactTest; (repeat' split) <;> simp_all
@[simp] theorem endContactTest_alerts (milliohms : Nat) (s : State) : (endContactTest milliohms s).alerts = s.alerts := by
  unfold endContactTest; (repeat' split) <;> simp_all
@[simp] theorem endContactTest_work_status (milliohms : Nat) (s : State) : (endContactTest milliohms s).work.status = s.work.status := by
  unfold endContactTest; (repeat' split) <;> simp_all
@[simp] theorem endContactTest_freeDraws (milliohms : Nat) (s : State) : (endContactTest milliohms s).freeDraws = s.freeDraws := by
  unfold endContactTest; (repeat' split) <;> simp_all
@[simp] theorem endContactTest_pending (milliohms : Nat) (s : State) : (endContactTest milliohms s).pending = s.pending := by
  unfold endContactTest; (repeat' split) <;> simp_all
@[simp] theorem endOffInterval_now (s : State) : (endOffInterval s).now = s.now := by
  unfold endOffInterval; split <;> simp
@[simp] theorem endOffInterval_resetHeld (s : State) : (endOffInterval s).resetHeld = s.resetHeld := by
  unfold endOffInterval; split <;> simp
@[simp] theorem endOffInterval_idx (s : State) : (endOffInterval s).idx = s.idx := by
  unfold endOffInterval; split <;> simp
@[simp] theorem endOffInterval_table (s : State) : (endOffInterval s).table = s.table := by
  unfold endOffInterval; split <;> simp
@[simp] theorem endOffInterval_eng_recentPage (s : State) : (endOffInterval s).eng.recentPage = s.eng.recentPage := by
  unfold endOffInterval; split <;> simp
@[simp] theorem endOffInterval_eng_lastOff (s : State) : (endOffInterval s).eng.lastOff = s.eng.lastOff := by
  unfold endOffInterval; split <;> simp
@[simp] theorem endOffInterval_eng_relays (s : State) : (endOffInterval s).eng.relays = s.eng.relays := by
  unfold endOffInterval; split <;> simp
@[simp] theorem endOffInterval_eng_channels (s : State) : (endOffInterval s).eng.channels = s.eng.channels := by
  unfold endOffInterval; split <;> simp
@[simp] theorem endOffInterval_drift (s : State) : (endOffInterval s).drift = s.drift := by
  unfold endOffInterval; split <;> simp
@[simp] theorem endOffInterval_pages (s : State) : (endOffInterval s).pages = s.pages := by
  unfold endOffInterval; split <;> simp
@[simp] theorem endOffInterval_gates (s : State) : (endOffInterval s).gates = s.gates := by
  unfold endOffInterval; split <;> simp
@[simp] theorem endOffInterval_link (s : State) : (endOffInterval s).link = s.link := by
  unfold endOffInterval; split <;> simp
@[simp] theorem endOffInterval_peers (s : State) : (endOffInterval s).peers = s.peers := by
  unfold endOffInterval; split <;> simp
@[simp] theorem endOffInterval_ctl (s : State) : (endOffInterval s).ctl = s.ctl := by
  unfold endOffInterval; split <;> simp
@[simp] theorem endOffInterval_alerts (s : State) : (endOffInterval s).alerts = s.alerts := by
  unfold endOffInterval; split <;> simp
@[simp] theorem endOffInterval_work (s : State) : (endOffInterval s).work = s.work := by
  unfold endOffInterval; split <;> simp
@[simp] theorem endOffInterval_freeDraws (s : State) : (endOffInterval s).freeDraws = s.freeDraws := by
  unfold endOffInterval; split <;> simp
@[simp] theorem endOffInterval_pending (s : State) : (endOffInterval s).pending = s.pending := by
  unfold endOffInterval; split <;> simp
@[simp] theorem endGap_now (s : State) : (endGap s).now = s.now := by
  unfold endGap; split <;> simp
@[simp] theorem endGap_resetHeld (s : State) : (endGap s).resetHeld = s.resetHeld := by
  unfold endGap; split <;> simp
@[simp] theorem endGap_idx (s : State) : (endGap s).idx = s.idx := by
  unfold endGap; split <;> simp
@[simp] theorem endGap_table (s : State) : (endGap s).table = s.table := by
  unfold endGap; split <;> simp
@[simp] theorem endGap_eng_recentPage (s : State) : (endGap s).eng.recentPage = s.eng.recentPage := by
  unfold endGap; split <;> simp
@[simp] theorem endGap_eng_lastOff (s : State) : (endGap s).eng.lastOff = s.eng.lastOff := by
  unfold endGap; split <;> simp
@[simp] theorem endGap_eng_relays (s : State) : (endGap s).eng.relays = s.eng.relays := by
  unfold endGap; split <;> simp
@[simp] theorem endGap_eng_channels (s : State) : (endGap s).eng.channels = s.eng.channels := by
  unfold endGap; split <;> simp
@[simp] theorem endGap_drift (s : State) : (endGap s).drift = s.drift := by
  unfold endGap; split <;> simp
@[simp] theorem endGap_pages (s : State) : (endGap s).pages = s.pages := by
  unfold endGap; split <;> simp
@[simp] theorem endGap_gates (s : State) : (endGap s).gates = s.gates := by
  unfold endGap; split <;> simp
@[simp] theorem endGap_link (s : State) : (endGap s).link = s.link := by
  unfold endGap; split <;> simp
@[simp] theorem endGap_peers (s : State) : (endGap s).peers = s.peers := by
  unfold endGap; split <;> simp
@[simp] theorem endGap_ctl (s : State) : (endGap s).ctl = s.ctl := by
  unfold endGap; split <;> simp
@[simp] theorem endGap_alerts (s : State) : (endGap s).alerts = s.alerts := by
  unfold endGap; split <;> simp
@[simp] theorem endGap_work (s : State) : (endGap s).work = s.work := by
  unfold endGap; split <;> simp
@[simp] theorem endGap_freeDraws (s : State) : (endGap s).freeDraws = s.freeDraws := by
  unfold endGap; split <;> simp
@[simp] theorem endGap_pending (s : State) : (endGap s).pending = s.pending := by
  unfold endGap; split <;> simp
@[simp] theorem endPhase_now (c : Ctx) (avg : Pair) (s : State) : (endPhase c avg s).now = s.now := by
  unfold endPhase; dsimp only; (repeat' split) <;> simp
@[simp] theorem endPhase_resetHeld (c : Ctx) (avg : Pair) (s : State) : (endPhase c avg s).resetHeld = s.resetHeld := by
  unfold endPhase; dsimp only; (repeat' split) <;> simp
@[simp] theorem endPhase_idx_count (c : Ctx) (avg : Pair) (s : State) : (endPhase c avg s).idx.count = s.idx.count := by
  unfold endPhase; dsimp only; (repeat' split) <;> simp
@[simp] theorem endPhase_idx_lastIndex (c : Ctx) (avg : Pair) (s : State) : (endPhase c avg s).idx.lastIndex = s.idx.lastIndex := by
  unfold endPhase; dsimp only; (repeat' split) <;> simp
@[simp] theorem endPhase_idx_retireLimit (c : Ctx) (avg : Pair) (s : State) : (endPhase c avg s).idx.retireLimit = s.idx.retireLimit := by
  unfold endPhase; dsimp only; (repeat' split) <;> simp
@[simp] theorem endPhase_idx_currentPage (c : Ctx) (avg : Pair) (s : State) : (endPhase c avg s).idx.currentPage = s.idx.currentPage := by
  unfold endPhase; dsimp only; (repeat' split) <;> simp
@[simp] theorem endPhase_idx_firingReq (c : Ctx) (avg : Pair) (s : State) : (endPhase c avg s).idx.firingReq = s.idx.firingReq := by
  unfold endPhase; dsimp only; (repeat' split) <;> simp
@[simp] theorem endPhase_table_lastRemoved (c : Ctx) (avg : Pair) (s : State) : (endPhase c avg s).table.lastRemoved = s.table.lastRemoved := by
  unfold endPhase; dsimp only; (repeat' split) <;> simp
@[simp] theorem endPhase_eng_recentPage (c : Ctx) (avg : Pair) (s : State) : (endPhase c avg s).eng.recentPage = s.eng.recentPage := by
  unfold endPhase; dsimp only; (repeat' split) <;> simp
@[simp] theorem endPhase_eng_relays (c : Ctx) (avg : Pair) (s : State) : (endPhase c avg s).eng.relays = s.eng.relays := by
  unfold endPhase; dsimp only; (repeat' split) <;> simp
@[simp] theorem endPhase_eng_channels (c : Ctx) (avg : Pair) (s : State) : (endPhase c avg s).eng.channels = s.eng.channels := by
  unfold endPhase; dsimp only; (repeat' split) <;> simp
@[simp] theorem endPhase_drift (c : Ctx) (avg : Pair) (s : State) : (endPhase c avg s).drift = s.drift := by
  unfold endPhase; dsimp only; (repeat' split) <;> simp
@[simp] theorem endPhase_pages (c : Ctx) (avg : Pair) (s : State) : (endPhase c avg s).pages = s.pages := by
  unfold endPhase; dsimp only; (repeat' split) <;> simp
@[simp] theorem endPhase_gates (c : Ctx) (avg : Pair) (s : State) : (endPhase c avg s).gates = s.gates := by
  unfold endPhase; dsimp only; (repeat' split) <;> simp
@[simp] theorem endPhase_link (c : Ctx) (avg : Pair) (s : State) : (endPhase c avg s).link = s.link := by
  unfold endPhase; dsimp only; (repeat' split) <;> simp
@[simp] theorem endPhase_peers (c : Ctx) (avg : Pair) (s : State) : (endPhase c avg s).peers = s.peers := by
  unfold endPhase; dsimp only; (repeat' split) <;> simp
@[simp] theorem endPhase_ctl (c : Ctx) (avg : Pair) (s : State) : (endPhase c avg s).ctl = s.ctl := by
  unfold endPhase; dsimp only; (repeat' split) <;> simp
@[simp] theorem endPhase_alerts_mask (c : Ctx) (avg : Pair) (s : State) : (endPhase c avg s).alerts.mask = s.alerts.mask := by
  unfold endPhase; dsimp only; (repeat' split) <;> simp
@[simp] theorem endPhase_alerts_master (c : Ctx) (avg : Pair) (s : State) : (endPhase c avg s).alerts.master = s.alerts.master := by
  unfold endPhase; dsimp only; (repeat' split) <;> simp
@[simp] theorem endPhase_work_status (c : Ctx) (avg : Pair) (s : State) : (endPhase c avg s).work.status = s.work.status := by
  unfold endPhase; dsimp only; (repeat' split) <;> simp
@[simp] theorem endPhase_freeDraws (c : Ctx) (avg : Pair) (s : State) : (endPhase c avg s).freeDraws = s.freeDraws := by
  unfold endPhase; dsimp only; (repeat' split) <;> simp
@[simp] theorem endPhase_pending (c : Ctx) (avg : Pair) (s : State) : (endPhase c avg s).pending = s.pending := by
  unfold endPhase; dsimp only; (repeat' split) <;> simp
@[simp] theorem endConversion_now (x std : BitVec 24) (s : State) : (endConversion x std s).now = s.now := by
  unfold endConversion; dsimp only; (repeat' split) <;> simp
@[simp] theorem endConversion_resetHeld (x std : BitVec 24) (s : State) : (endConversion x std s).resetHeld = s.resetHeld := by
  unfold endConversion; dsimp only; (repeat' split) <;> simp
@[simp] theorem endConversion_idx_count (x std : BitVec 24) (s : State) : (endConversion x std s).idx.count = s.idx.count := by
  unfold endConversion; dsimp only; (repeat' split) <;> simp
@[simp] theorem endConversion_idx_lastIndex (x std : BitVec 24) (s : State) : (endConversion x std s).idx.lastIndex = s.idx.lastIndex := by
  unfold endConversion; dsimp only; (repeat' split) <;> simp
@[simp] theorem endConversion_idx_retireLimit (x std : BitVec 24) (s : State) : (endConversion x std s).idx.retireLimit = s.idx.retireLimit := by
  unfold endConversion; dsimp only; (repeat' split) <;> simp
@[simp] theorem endConversion_idx_currentPage (x std : BitVec 24) (s : State) : (endConversion x std s).idx.currentPage = s.idx.currentPage := by
  unfold endConversion; dsimp only; (repeat' split) <;> simp
@[simp] theorem endConversion_idx_firingReq (x std : BitVec 24) (s : State) : (endConversion x std s).idx.firingReq = s.idx.firingReq := by
  unfold endConversion; dsimp only; (repeat' split) <;> simp
@[simp] theorem endConversion_table_lastRemoved (x std : BitVec 24) (s : State) : (endConversion x std s).table.lastRemoved = s.table.lastRemoved := by
  unfold endConversion; dsimp only; (repeat' split) <;> simp
@[simp] theorem endConversion_eng_recentPage (x std : BitVec 24) (s : State) : (endConversion x std s).eng.recentPage = s.eng.recentPage := by
  unfold endConversion; dsimp only; (repeat' split) <;> simp
@[simp] theorem endConversion_eng_relays (x std : BitVec 24) (s : State) : (endConversion x std s).eng.relays = s.eng.relays := by
  unfold endConversion; dsimp only; (repeat' split) <;> simp
@[simp] theorem endConversion_eng_channels (x std : BitVec 24) (s : State) : (endConversion x std s).eng.channels = s.eng.channels := by
  unfold endConversion; dsimp only; (repeat' split) <;> simp
@[simp] theorem endConversion_drift (x std : BitVec 24) (s : State) : (endConversion x std s).drift = s.drift := by
  unfold endConversion; dsimp only; (repeat' split) <;> simp
@[simp] theorem endConversion_pages (x std : BitVec 24) (s : State) : (endConversion x std s).pages = s.pages := by
  unfold endConversion; dsimp only; (repeat' split) <;> simp
@[simp] theorem endConversion_gates (x std : BitVec 24) (s : State) : (endConversion x std s).gates = s.gates := by
  unfold endConversion; dsimp only; (repeat' split) <;> simp
@[simp] theorem endConversion_link (x std : BitVec 24) (s : State) : (endConversion x std s).link = s.link := by
  unfold endConversion; dsimp only; (repeat' split) <;> simp
@[simp] theorem endConversion_peers (x std : BitVec 24) (s : State) : (endConversion x std s).peers = s.peers := by
  unfold endConversion; dsimp only; (repeat' split) <;> simp
@[simp] theorem endConversion_ctl (x std : BitVec 24) (s : State) : (endConversion x std s).ctl = s.ctl := by
  unfold endConversion; dsimp only; (repeat' split) <;> simp
@[simp] theorem endConversion_alerts_mask (x std : BitVec 24) (s : State) : (endConversion x std s).alerts.mask = s.alerts.mask := by
  unfold endConversion; dsimp only; (repeat' split) <;> simp
@[simp] theorem endConversion_alerts_master (x std : BitVec 24) (s : State) : (endConversion x std s).alerts.master = s.alerts.master := by
  unfold endConversion; dsimp only; (repeat' split) <;> simp
@[simp] theorem endConversion_work_status (x std : BitVec 24) (s : State) : (endConversion x std s).work.status = s.work.status := by
  unfold endConversion; dsimp only; (repeat' split) <;> simp
@[simp] theorem endConversion_freeDraws (x std : BitVec 24) (s : State) : (endConversion x std s).freeDraws = s.freeDraws := by
  unfold endConversion; dsimp only; (repeat' split) <;> simp
@[simp] theorem endConversion_pending (x std : BitVec 24) (s : State) : (endConversion x std s).pending = s.pending := by
  unfold endConversion; dsimp only; (repeat' split) <;> simp
@[simp] theorem endTemperature_now (reading : BitVec 12) (s : State) : (endTemperature reading s).now = s.now := by
  unfold endTemperature; split <;> simp
@[simp] theorem endTemperature_resetHeld (reading : BitVec 12) (s : State) : (endTemperature reading s).resetHeld = s.resetHeld := by
  unfold endTemperature; split <;> simp
@[simp] theorem endTemperature_idx_count (reading : BitVec 12) (s : State) : (endTemperature reading s).idx.count = s.idx.count := by
  unfold endTemperature; split <;> simp
@[simp] theorem endTemperature_idx_lastIndex (reading : BitVec 12) (s : State) : (endTemperature reading s).idx.lastIndex = s.idx.lastIndex := by
  unfold endTemperature; split <;> simp
@[simp] theorem endTemperature_idx_retireLimit (reading : BitVec 12) (s : State) : (endTemperature reading s).idx.retireLimit = s.idx.retireLimit := by
  unfold endTemperature; split <;> simp
@[simp] theorem endTemperature_idx_currentPage (reading : BitVec 12) (s : State) : (endTemperature reading s).idx.currentPage = s.idx.currentPage := by
  unfold endTemperature; split <;> simp
@[simp] theorem endTemperature_idx_firingReq (reading : BitVec 12) (s : State) : (endTemperature reading s).idx.firingReq = s.idx.firingReq := by
  unfold endTemperature; split <;> simp
@[simp] theorem endTemperature_table_lastRemoved (reading : BitVec 12) (s : State) : (endTemperature reading s).table.lastRemoved = s.table.lastRemoved := by
  unfold endTemperature; split <;> simp
@[simp] theorem endTemperature_eng_recentPage (reading : BitVec 12) (s : State) : (endTemperature reading s).eng.recentPage = s.eng.recentPage := by
  unfold endTemperature; split <;> simp
@[simp] theorem endTemperature_eng_relays (reading : BitVec 12) (s : State) : (endTemperature reading s).eng.relays = s.eng.relays := by
  unfold endTemperature; split <;> simp
@[simp] theorem endTemperature_eng_channels (reading : BitVec 12) (s : State) : (endTemperature reading s).eng.channels = s.eng.channels := by
  unfold endTemperature; split <;> simp
@[simp] theorem endTemperature_pages (reading : BitVec 12) (s : State) : (endTemperature reading s).pages = s.pages := by
  unfold endTemperature; split <;> simp
@[simp] theorem endTemperature_gates (reading : BitVec 12) (s : State) : (endTemperature reading s).gates = s.gates := by
  unfold endTemperature; split <;> simp
@[simp] theorem endTemperature_link (reading : BitVec 12) (s : State) : (endTemperature reading s).link = s.link := by
  unfold endTemperature; split <;> simp
@[simp] theorem endTemperature_peers (reading : BitVec 12) (s : State) : (endTemperature reading s).peers = s.peers := by
  unfold endTemperature; split <;> simp
@[simp] theorem endTemperature_ctl (reading : BitVec 12) (s : State) : (endTemperature reading s).ctl = s.ctl := by
  unfold endTemperature; split <;> simp
@[simp] theorem endTemperature_alerts_mask (reading : BitVec 12) (s : State) : (endTemperature reading s).alerts.mask = s.alerts.mask := by
  unfold endTemperature; split <;> simp
@[simp] theorem endTemperature_alerts_master (reading : BitVec 12) (s : State) : (endTemperature reading s).alerts.master = s.alerts.master := by
  unfold endTemperature; split <;> simp
@[simp] theorem endTemperature_work_status (reading : BitVec 12) (s : State) : (endTemperature reading s).work.status = s.work.status := by
  unfold endTemperature; split <;> simp
@[simp] theorem endTemperature_freeDraws (reading : BitVec 12) (s : State) : (endTemperature reading s).freeDraws = s.freeDraws := by
  unfold endTemperature; split <;> simp
@[simp] theorem endTemperature_pending (reading : BitVec 12) (s : State) : (endTemperature reading s).pending = s.pending := by
  unfold endTemperature; split <;> simp
@[simp] theorem timeOut_now (c : Ctx) (s : State) : (timeOut c s).now = s.now := by
  unfold timeOut; (repeat' split) <;> simp_all
@[simp] theorem timeOut_resetHeld (c : Ctx) (s : State) : (timeOut c s).resetHeld = s.resetHeld := by
  unfold timeOut; (repeat' split) <;> simp_all
@[simp] theorem timeOut_idx_count (c : Ctx) (s : State) : (timeOut c s).idx.count = s.idx.count := by
  unfold timeOut; (repeat' split) <;> simp_all
@[simp] theorem timeOut_idx_lastIndex (c : Ctx) (s : State) : (timeOut c s).idx.lastIndex = s.idx.lastIndex := by
  unfold timeOut; (repeat' split) <;> simp_all
@[simp] theorem timeOut_idx_retireLimit (c : Ctx) (s : State) : (timeOut c s).idx.retireLimit = s.idx.retireLimit := by
  unfold timeOut; (repeat' split) <;> simp_all
@[simp] theorem timeOut_idx_currentPage (c : Ctx) (s : State) : (timeOut c s).idx.currentPage = s.idx.currentPage := by
  unfold timeOut; (repeat' split) <;> simp_all
@[simp] theorem timeOut_idx_firingReq (c : Ctx) (s : State) : (timeOut c s).idx.firingReq = s.idx.firingReq := by
  unfold timeOut; (repeat' split) <;> simp_all
@[simp] theorem timeOut_table_lastRemoved (c : Ctx) (s : State) : (timeOut c s).table.lastRemoved = s.table.lastRemoved := by
  unfold timeOut; (repeat' split) <;> simp_all
@[simp] theorem timeOut_eng_recentPage (c : Ctx) (s : State) : (timeOut c s).eng.recentPage = s.eng.recentPage := by
  unfold timeOut; (repeat' split) <;> simp_all
@[simp] theorem timeOut_eng_relays (c : Ctx) (s : State) : (timeOut c s).eng.relays = s.eng.relays := by
  unfold timeOut; (repeat' split) <;> simp_all
@[simp] theorem timeOut_eng_channels (c : Ctx) (s : State) : (timeOut c s).eng.channels = s.eng.channels := by
  unfold timeOut; (repeat' split) <;> simp_all
@[simp] theorem timeOut_drift (c : Ctx) (s : State) : (timeOut c s).drift = s.drift := by
  unfold timeOut; (repeat' split) <;> simp_all
@[simp] theorem timeOut_pages (c : Ctx) (s : State) : (timeOut c s).pages = s.pages := by
  unfold timeOut; (repeat' split) <;> simp_all
@[simp] theorem timeOut_gates (c : Ctx) (s : State) : (timeOut c s).gates = s.gates := by
  unfold timeOut; (repeat' split) <;> simp_all
@[simp] theorem timeOut_link (c : Ctx) (s : State) : (timeOut c s).link = s.link := by
  unfold timeOut; (repeat' split) <;> simp_all
@[simp] theorem timeOut_peers (c : Ctx) (s : State) : (timeOut c s).peers = s.peers := by
  unfold timeOut; (repeat' split) <;> simp_all
@[simp] theorem timeOut_ctl (c : Ctx) (s : State) : (timeOut c s).ctl = s.ctl := by
  unfold timeOut; (repeat' split) <;> simp_all
@[simp] theorem timeOut_alerts_mask (c : Ctx) (s : State) : (timeOut c s).alerts.mask = s.alerts.mask := by
  unfold timeOut; (repeat' split) <;> simp_all
@[simp] theorem timeOut_alerts_master (c : Ctx) (s : State) : (timeOut c s).alerts.master = s.alerts.master := by
  unfold timeOut; (repeat' split) <;> simp_all
@[simp] theorem timeOut_work_status (c : Ctx) (s : State) : (timeOut c s).work.status = s.work.status := by
  unfold timeOut; (repeat' split) <;> simp_all
@[simp] theorem timeOut_pending (c : Ctx) (s : State) : (timeOut c s).pending = s.pending := by
  unfold timeOut; (repeat' split) <;> simp_all
@[simp] theorem expireLimit_now (s : State) : (expireLimit s).now = s.now := by
  unfold expireLimit; (repeat' split) <;> simp_all
@[simp] theorem expireLimit_resetHeld (s : State) : (expireLimit s).resetHeld = s.resetHeld := by
  unfold expireLimit; (repeat' split) <;> simp_all
@[simp] theorem expireLimit_idx_count (s : State) : (expireLimit s).idx.count = s.idx.count := by
  unfold expireLimit; (repeat' split) <;> simp_all
@[simp] theorem expireLimit_idx_lastIndex (s : State) : (expireLimit s).idx.lastIndex = s.idx.lastIndex := by
  unfold expireLimit; (repeat' split) <;> simp_all
@[simp] theorem expireLimit_idx_retireLimit (s : State) : (expireLimit s).idx.retireLimit = s.idx.retireLimit := by
  unfold expireLimit; (repeat' split) <;> simp_all
@[simp] theorem expireLimit_idx_currentPage (s : State) : (expireLimit s).idx.currentPage = s.idx.currentPage := by
  unfold expireLimit; (repeat' split) <;> simp_all
@[simp] theorem expireLimit_idx_firingReq (s : State) : (expireLimit s).idx.firingReq = s.idx.firingReq := by
  unfold expireLimit; (repeat' split) <;> simp_all
@[simp] theorem expireLimit_table_lastRemoved (s : State) : (expireLimit s).table.lastRemoved = s.table.lastRemoved := by
  unfold expireLimit; (repeat' split) <;> simp_all
@[simp] theorem expireLimit_eng_recentPage (s : State) : (expireLimit s).eng.recentPage = s.eng.recentPage := by
  unfold expireLimit; (repeat' split) <;> simp_all
@[simp] theorem expireLimit_eng_relays (s : State) : (expireLimit s).eng.relays = s.eng.relays := by
  unfold expireLimit; (repeat' split) <;> simp_all
@[simp] theorem expireLimit_eng_channels (s : State) : (expireLimit s).eng.channels = s.eng.channels := by
  unfold expireLimit; (repeat' split) <;> simp_all
@[simp] theorem expireLimit_drift (s : State) : (expireLimit s).drift = s.drift := by
  unfold expireLimit; (repeat' split) <;> simp_all
@[simp] theorem expireLimit_pages (s : State) : (expireLimit s).pages = s.pages := by
  unfold expireLimit; (repeat' split) <;> simp_all
@[simp] theorem expireLimit_gates (s : State) : (expireLimit s).gates = s.gates := by
  unfold expireLimit; (repeat' split) <;> simp_all
@[simp] theorem expireLimit_link (s : State) : (expireLimit s).link = s.link := by
  unfold expireLimit; (repeat' split) <;> simp_all
@[simp] theorem expireLimit_peers (s : State) : (expireLimit s).peers = s.peers := by
  unfold expireLimit; (repeat' split) <;> simp_all
@[simp] theorem expireLimit_ctl (s : State) : (expireLimit s).ctl = s.ctl := by
  unfold expireLimit; (repeat' split) <;> simp_all
@[simp] theorem expireLimit_alerts_mask (s : State) : (expireLimit s).alerts.mask = s.alerts.mask := by
  unfold expireLimit; (repeat' split) <;> simp_all
@[simp] theorem expireLimit_alerts_master (s : State) : (expireLimit s).alerts.master = s.alerts.master := by
  unfold expireLimit; (repeat' split) <;> simp_all
@[simp] theorem expireLimit_work_status (s : State) : (expireLimit s).work.status = s.work.status := by
  unfold expireLimit; (repeat' split) <;> simp_all
@[simp] theorem expireLimit_pending (s : State) : (expireLimit s).pending = s.pending := by
  unfold expireLimit; (repeat' split) <;> simp_all

end Sys2Proof.Machine
end

