-- ==== Sys2Proof/Laws/KeepScheduler.lean ====
section
/-! SUPPORT. What the Gate Scheduler leave as it was: one lemma for each operation and each block (or part of a block) that it does not touch. -/

-- One lemma after the other: elaborated side by side, the lemmas of one operation wait for its unfolding, each on a thread of its own.
set_option Elab.async false

namespace Sys2Proof.Machine

@[simp] theorem setDriver_now (g : Fin 16) (d : Driver) (s : State) : (setDriver g d s).now = s.now := by simp [setDriver]
@[simp] theorem setDriver_resetHeld (g : Fin 16) (d : Driver) (s : State) : (setDriver g d s).resetHeld = s.resetHeld := by simp [setDriver]
@[simp] theorem setDriver_idx (g : Fin 16) (d : Driver) (s : State) : (setDriver g d s).idx = s.idx := by simp [setDriver]
@[simp] theorem setDriver_table (g : Fin 16) (d : Driver) (s : State) : (setDriver g d s).table = s.table := by simp [setDriver]
@[simp] theorem setDriver_eng (g : Fin 16) (d : Driver) (s : State) : (setDriver g d s).eng = s.eng := by simp [setDriver]
@[simp] theorem setDriver_drift (g : Fin 16) (d : Driver) (s : State) : (setDriver g d s).drift = s.drift := by simp [setDriver]
@[simp] theorem setDriver_pages (g : Fin 16) (d : Driver) (s : State) : (setDriver g d s).pages = s.pages := by simp [setDriver]
@[simp] theorem setDriver_gates_firings (g : Fin 16) (d : Driver) (s : State) : (setDriver g d s).gates.firings = s.gates.firings := by simp [setDriver]
@[simp] theorem setDriver_gates_binTallies (g : Fin 16) (d : Driver) (s : State) : (setDriver g d s).gates.binTallies = s.gates.binTallies := by simp [setDriver]
@[simp] theorem setDriver_gates_reasonTallies (g : Fin 16) (d : Driver) (s : State) : (setDriver g d s).gates.reasonTallies = s.gates.reasonTallies := by simp [setDriver]
@[simp] theorem setDriver_link (g : Fin 16) (d : Driver) (s : State) : (setDriver g d s).link = s.link := by simp [setDriver]
@[simp] theorem setDriver_peers (g : Fin 16) (d : Driver) (s : State) : (setDriver g d s).peers = s.peers := by simp [setDriver]
@[simp] theorem setDriver_ctl (g : Fin 16) (d : Driver) (s : State) : (setDriver g d s).ctl = s.ctl := by simp [setDriver]
@[simp] theorem setDriver_alerts (g : Fin 16) (d : Driver) (s : State) : (setDriver g d s).alerts = s.alerts := by simp [setDriver]
@[simp] theorem setDriver_work (g : Fin 16) (d : Driver) (s : State) : (setDriver g d s).work = s.work := by simp [setDriver]
@[simp] theorem setDriver_freeDraws (g : Fin 16) (d : Driver) (s : State) : (setDriver g d s).freeDraws = s.freeDraws := by simp [setDriver]
@[simp] theorem setDriver_pending (g : Fin 16) (d : Driver) (s : State) : (setDriver g d s).pending = s.pending := by simp [setDriver]
@[simp] theorem setFiringStage_now (tag : BitVec 16) (st : FiringStage) (s : State) : (setFiringStage tag st s).now = s.now := by simp [setFiringStage]
@[simp] theorem setFiringStage_resetHeld (tag : BitVec 16) (st : FiringStage) (s : State) : (setFiringStage tag st s).resetHeld = s.resetHeld := by simp [setFiringStage]
@[simp] theorem setFiringStage_idx (tag : BitVec 16) (st : FiringStage) (s : State) : (setFiringStage tag st s).idx = s.idx := by simp [setFiringStage]
@[simp] theorem setFiringStage_table (tag : BitVec 16) (st : FiringStage) (s : State) : (setFiringStage tag st s).table = s.table := by simp [setFiringStage]
@[simp] theorem setFiringStage_eng (tag : BitVec 16) (st : FiringStage) (s : State) : (setFiringStage tag st s).eng = s.eng := by simp [setFiringStage]
@[simp] theorem setFiringStage_drift (tag : BitVec 16) (st : FiringStage) (s : State) : (setFiringStage tag st s).drift = s.drift := by simp [setFiringStage]
@[simp] theorem setFiringStage_pages (tag : BitVec 16) (st : FiringStage) (s : State) : (setFiringStage tag st s).pages = s.pages := by simp [setFiringStage]
@[simp] theorem setFiringStage_gates_drivers (tag : BitVec 16) (st : FiringStage) (s : State) : (setFiringStage tag st s).gates.drivers = s.gates.drivers := by simp [setFiringStage]
@[simp] theorem setFiringStage_gates_binTallies (tag : BitVec 16) (st : FiringStage) (s : State) : (setFiringStage tag st s).gates.binTallies = s.gates.binTallies := by simp [setFiringStage]
@[simp] theorem setFiringStage_gates_reasonTallies (tag : BitVec 16) (st : FiringStage) (s : State) : (setFiringStage tag st s).gates.reasonTallies = s.gates.reasonTallies := by simp [setFiringStage]
@[simp] theorem setFiringStage_link (tag : BitVec 16) (st : FiringStage) (s : State) : (setFiringStage tag st s).link = s.link := by simp [setFiringStage]
@[simp] theorem setFiringStage_peers (tag : BitVec 16) (st : FiringStage) (s : State) : (setFiringStage tag st s).peers = s.peers := by simp [setFiringStage]
@[simp] theorem setFiringStage_ctl (tag : BitVec 16) (st : FiringStage) (s : State) : (setFiringStage tag st s).ctl = s.ctl := by simp [setFiringStage]
@[simp] theorem setFiringStage_alerts (tag : BitVec 16) (st : FiringStage) (s : State) : (setFiringStage tag st s).alerts = s.alerts := by simp [setFiringStage]
@[simp] theorem setFiringStage_work (tag : BitVec 16) (st : FiringStage) (s : State) : (setFiringStage tag st s).work = s.work := by simp [setFiringStage]
@[simp] theorem setFiringStage_freeDraws (tag : BitVec 16) (st : FiringStage) (s : State) : (setFiringStage tag st s).freeDraws = s.freeDraws := by simp [setFiringStage]
@[simp] theorem setFiringStage_pending (tag : BitVec 16) (st : FiringStage) (s : State) : (setFiringStage tag st s).pending = s.pending := by simp [setFiringStage]
@[simp] theorem dropFiring_now (tag : BitVec 16) (s : State) : (dropFiring tag s).now = s.now := by simp [dropFiring]
@[simp] theorem dropFiring_resetHeld (tag : BitVec 16) (s : State) : (dropFiring tag s).resetHeld = s.resetHeld := by simp [dropFiring]
@[simp] theorem dropFiring_idx (tag : BitVec 16) (s : State) : (dropFiring tag s).idx = s.idx := by simp [dropFiring]
@[simp] theorem dropFiring_table (tag : BitVec 16) (s : State) : (dropFiring tag s).table = s.table := by simp [dropFiring]
@[simp] theorem dropFiring_eng (tag : BitVec 16) (s : State) : (dropFiring tag s).eng = s.eng := by simp [dropFiring]
@[simp] theorem dropFiring_drift (tag : BitVec 16) (s : State) : (dropFiring tag s).drift = s.drift := by simp [dropFiring]
@[simp] theorem dropFiring_pages (tag : BitVec 16) (s : State) : (dropFiring tag s).pages = s.pages := by simp [dropFiring]
@[simp] theorem dropFiring_gates_drivers (tag : BitVec 16) (s : State) : (dropFiring tag s).gates.drivers = s.gates.drivers := by simp [dropFiring]
@[simp] theorem dropFiring_gates_binTallies (tag : BitVec 16) (s : State) : (dropFiring tag s).gates.binTallies = s.gates.binTallies := by simp [dropFiring]
@[simp] theorem dropFiring_gates_reasonTallies (tag : BitVec 16) (s : State) : (dropFiring tag s).gates.reasonTallies = s.gates.reasonTallies := by simp [dropFiring]
@[simp] theorem dropFiring_link (tag : BitVec 16) (s : State) : (dropFiring tag s).link = s.link := by simp [dropFiring]
@[simp] theorem dropFiring_peers (tag : BitVec 16) (s : State) : (dropFiring tag s).peers = s.peers := by simp [dropFiring]
@[simp] theorem dropFiring_ctl (tag : BitVec 16) (s : State) : (dropFiring tag s).ctl = s.ctl := by simp [dropFiring]
@[simp] theorem dropFiring_alerts (tag : BitVec 16) (s : State) : (dropFiring tag s).alerts = s.alerts := by simp [dropFiring]
@[simp] theorem dropFiring_work (tag : BitVec 16) (s : State) : (dropFiring tag s).work = s.work := by simp [dropFiring]
@[simp] theorem dropFiring_freeDraws (tag : BitVec 16) (s : State) : (dropFiring tag s).freeDraws = s.freeDraws := by simp [dropFiring]
@[simp] theorem dropFiring_pending (tag : BitVec 16) (s : State) : (dropFiring tag s).pending = s.pending := by simp [dropFiring]
@[simp] theorem countVerdict_now (v : Provisional) (s : State) : (countVerdict v s).now = s.now := by
  unfold countVerdict; split <;> simp
@[simp] theorem countVerdict_resetHeld (v : Provisional) (s : State) : (countVerdict v s).resetHeld = s.resetHeld := by
  unfold countVerdict; split <;> simp
@[simp] theorem countVerdict_idx (v : Provisional) (s : State) : (countVerdict v s).idx = s.idx := by
  unfold countVerdict; split <;> simp
@[simp] theorem countVerdict_table (v : Provisional) (s : State) : (countVerdict v s).table = s.table := by
  unfold countVerdict; split <;> simp
@[simp] theorem countVerdict_eng (v : Provisional) (s : State) : (countVerdict v s).eng = s.eng := by
  unfold countVerdict; split <;> simp
@[simp] theorem countVerdict_drift (v : Provisional) (s : State) : (countVerdict v s).drift = s.drift := by
  unfold countVerdict; split <;> simp
@[simp] theorem countVerdict_pages (v : Provisional) (s : State) : (countVerdict v s).pages = s.pages := by
  unfold countVerdict; split <;> simp
@[simp] theorem countVerdict_gates_firings (v : Provisional) (s : State) : (countVerdict v s).gates.firings = s.gates.firings := by
  unfold countVerdict; split <;> simp
@[simp] theorem countVerdict_gates_drivers (v : Provisional) (s : State) : (countVerdict v s).gates.drivers = s.gates.drivers := by
  unfold countVerdict; split <;> simp
@[simp] theorem countVerdict_link (v : Provisional) (s : State) : (countVerdict v s).link = s.link := by
  unfold countVerdict; split <;> simp
@[simp] theorem countVerdict_peers (v : Provisional) (s : State) : (countVerdict v s).peers = s.peers := by
  unfold countVerdict; split <;> simp
@[simp] theorem countVerdict_ctl (v : Provisional) (s : State) : (countVerdict v s).ctl = s.ctl := by
  unfold countVerdict; split <;> simp
@[simp] theorem countVerdict_alerts (v : Provisional) (s : State) : (countVerdict v s).alerts = s.alerts := by
  unfold countVerdict; split <;> simp
@[simp] theorem countVerdict_work (v : Provisional) (s : State) : (countVerdict v s).work = s.work := by
  unfold countVerdict; split <;> simp
@[simp] theorem countVerdict_freeDraws (v : Provisional) (s : State) : (countVerdict v s).freeDraws = s.freeDraws := by
  unfold countVerdict; split <;> simp
@[simp] theorem countVerdict_pending (v : Provisional) (s : State) : (countVerdict v s).pending = s.pending := by
  unfold countVerdict; split <;> simp
@[simp] theorem schedule_now (tag : BitVec 16) (o : Fin 16) (page : Option (Fin 4)) (s : State) : (schedule tag o page s).now = s.now := by
  unfold schedule; dsimp only; (repeat' split) <;> simp
@[simp] theorem schedule_resetHeld (tag : BitVec 16) (o : Fin 16) (page : Option (Fin 4)) (s : State) : (schedule tag o page s).resetHeld = s.resetHeld := by
  unfold schedule; dsimp only; (repeat' split) <;> simp
@[simp] theorem schedule_idx (tag : BitVec 16) (o : Fin 16) (page : Option (Fin 4)) (s : State) : (schedule tag o page s).idx = s.idx := by
  unfold schedule; dsimp only; (repeat' split) <;> simp
@[simp] theorem schedule_table (tag : BitVec 16) (o : Fin 16) (page : Option (Fin 4)) (s : State) : (schedule tag o page s).table = s.table := by
  unfold schedule; dsimp only; (repeat' split) <;> simp
@[simp] theorem schedule_eng (tag : BitVec 16) (o : Fin 16) (page : Option (Fin 4)) (s : State) : (schedule tag o page s).eng = s.eng := by
  unfold schedule; dsimp only; (repeat' split) <;> simp
@[simp] theorem schedule_drift (tag : BitVec 16) (o : Fin 16) (page : Option (Fin 4)) (s : State) : (schedule tag o page s).drift = s.drift := by
  unfold schedule; dsimp only; (repeat' split) <;> simp
@[simp] theorem schedule_pages (tag : BitVec 16) (o : Fin 16) (page : Option (Fin 4)) (s : State) : (schedule tag o page s).pages = s.pages := by
  unfold schedule; dsimp only; (repeat' split) <;> simp
@[simp] theorem schedule_gates_drivers (tag : BitVec 16) (o : Fin 16) (page : Option (Fin 4)) (s : State) : (schedule tag o page s).gates.drivers = s.gates.drivers := by
  unfold schedule; dsimp only; (repeat' split) <;> simp
@[simp] theorem schedule_gates_binTallies (tag : BitVec 16) (o : Fin 16) (page : Option (Fin 4)) (s : State) : (schedule tag o page s).gates.binTallies = s.gates.binTallies := by
  unfold schedule; dsimp only; (repeat' split) <;> simp
@[simp] theorem schedule_gates_reasonTallies (tag : BitVec 16) (o : Fin 16) (page : Option (Fin 4)) (s : State) : (schedule tag o page s).gates.reasonTallies = s.gates.reasonTallies := by
  unfold schedule; dsimp only; (repeat' split) <;> simp
@[simp] theorem schedule_link (tag : BitVec 16) (o : Fin 16) (page : Option (Fin 4)) (s : State) : (schedule tag o page s).link = s.link := by
  unfold schedule; dsimp only; (repeat' split) <;> simp
@[simp] theorem schedule_peers (tag : BitVec 16) (o : Fin 16) (page : Option (Fin 4)) (s : State) : (schedule tag o page s).peers = s.peers := by
  unfold schedule; dsimp only; (repeat' split) <;> simp
@[simp] theorem schedule_ctl (tag : BitVec 16) (o : Fin 16) (page : Option (Fin 4)) (s : State) : (schedule tag o page s).ctl = s.ctl := by
  unfold schedule; dsimp only; (repeat' split) <;> simp
@[simp] theorem schedule_alerts_mask (tag : BitVec 16) (o : Fin 16) (page : Option (Fin 4)) (s : State) : (schedule tag o page s).alerts.mask = s.alerts.mask := by
  unfold schedule; dsimp only; (repeat' split) <;> simp
@[simp] theorem schedule_alerts_master (tag : BitVec 16) (o : Fin 16) (page : Option (Fin 4)) (s : State) : (schedule tag o page s).alerts.master = s.alerts.master := by
  unfold schedule; dsimp only; (repeat' split) <;> simp
@[simp] theorem schedule_work_units (tag : BitVec 16) (o : Fin 16) (page : Option (Fin 4)) (s : State) : (schedule tag o page s).work.units = s.work.units := by
  unfold schedule; dsimp only; (repeat' split) <;> simp
@[simp] theorem schedule_work_status (tag : BitVec 16) (o : Fin 16) (page : Option (Fin 4)) (s : State) : (schedule tag o page s).work.status = s.work.status := by
  unfold schedule; dsimp only; (repeat' split) <;> simp
@[simp] theorem schedule_freeDraws (tag : BitVec 16) (o : Fin 16) (page : Option (Fin 4)) (s : State) : (schedule tag o page s).freeDraws = s.freeDraws := by
  unfold schedule; dsimp only; (repeat' split) <;> simp
@[simp] theorem schedule_pending (tag : BitVec 16) (o : Fin 16) (page : Option (Fin 4)) (s : State) : (schedule tag o page s).pending = s.pending := by
  unfold schedule; dsimp only; (repeat' split) <;> simp
@[simp] theorem completeVerdict_now (tag : BitVec 16) (v : Provisional) (s : State) : (completeVerdict tag v s).now = s.now := by
  unfold completeVerdict; dsimp only; (repeat' split) <;> simp
@[simp] theorem completeVerdict_resetHeld (tag : BitVec 16) (v : Provisional) (s : State) : (completeVerdict tag v s).resetHeld = s.resetHeld := by
  unfold completeVerdict; dsimp only; (repeat' split) <;> simp
@[simp] theorem completeVerdict_idx (tag : BitVec 16) (v : Provisional) (s : State) : (completeVerdict tag v s).idx = s.idx := by
  unfold completeVerdict; dsimp only; (repeat' split) <;> simp
@[simp] theorem completeVerdict_table_lastRemoved (tag : BitVec 16) (v : Provisional) (s : State) : (completeVerdict tag v s).table.lastRemoved = s.table.lastRemoved := by
  unfold completeVerdict; dsimp only; (repeat' split) <;> simp
@[simp] theorem completeVerdict_eng (tag : BitVec 16) (v : Provisional) (s : State) : (completeVerdict tag v s).eng = s.eng := by
  unfold completeVerdict; dsimp only; (repeat' split) <;> simp
@[simp] theorem completeVerdict_drift (tag : BitVec 16) (v : Provisional) (s : State) : (completeVerdict tag v s).drift = s.drift := by
  unfold completeVerdict; dsimp only; (repeat' split) <;> simp
@[simp] theorem completeVerdict_pages (tag : BitVec 16) (v : Provisional) (s : State) : (completeVerdict tag v s).pages = s.pages := by
  unfold completeVerdict; dsimp only; (repeat' split) <;> simp
@[simp] theorem completeVerdict_gates_drivers (tag : BitVec 16) (v : Provisional) (s : State) : (completeVerdict tag v s).gates.drivers = s.gates.drivers := by
  unfold completeVerdict; dsimp only; (repeat' split) <;> simp
@[simp] theorem completeVerdict_link (tag : BitVec 16) (v : Provisional) (s : State) : (completeVerdict tag v s).link = s.link := by
  unfold completeVerdict; dsimp only; (repeat' split) <;> simp
@[simp] theorem completeVerdict_peers (tag : BitVec 16) (v : Provisional) (s : State) : (completeVerdict tag v s).peers = s.peers := by
  unfold completeVerdict; dsimp only; (repeat' split) <;> simp
@[simp] theorem completeVerdict_ctl (tag : BitVec 16) (v : Provisional) (s : State) : (completeVerdict tag v s).ctl = s.ctl := by
  unfold completeVerdict; dsimp only; (repeat' split) <;> simp
@[simp] theorem completeVerdict_alerts_mask (tag : BitVec 16) (v : Provisional) (s : State) : (completeVerdict tag v s).alerts.mask = s.alerts.mask := by
  unfold completeVerdict; dsimp only; (repeat' split) <;> simp
@[simp] theorem completeVerdict_alerts_master (tag : BitVec 16) (v : Provisional) (s : State) : (completeVerdict tag v s).alerts.master = s.alerts.master := by
  unfold completeVerdict; dsimp only; (repeat' split) <;> simp
@[simp] theorem completeVerdict_work_status (tag : BitVec 16) (v : Provisional) (s : State) : (completeVerdict tag v s).work.status = s.work.status := by
  unfold completeVerdict; dsimp only; (repeat' split) <;> simp
@[simp] theorem completeVerdict_freeDraws (tag : BitVec 16) (v : Provisional) (s : State) : (completeVerdict tag v s).freeDraws = s.freeDraws := by
  unfold completeVerdict; dsimp only; (repeat' split) <;> simp
@[simp] theorem completeVerdict_pending (tag : BitVec 16) (v : Provisional) (s : State) : (completeVerdict tag v s).pending = s.pending := by
  unfold completeVerdict; dsimp only; (repeat' split) <;> simp
@[simp] theorem decideUnit_now (s : State) : (decideUnit s).now = s.now := by
  unfold decideUnit; dsimp only; (repeat' split) <;> simp
@[simp] theorem decideUnit_resetHeld (s : State) : (decideUnit s).resetHeld = s.resetHeld := by
  unfold decideUnit; dsimp only; (repeat' split) <;> simp
@[simp] theorem decideUnit_idx (s : State) : (decideUnit s).idx = s.idx := by
  unfold decideUnit; dsimp only; (repeat' split) <;> simp
@[simp] theorem decideUnit_table_lastRemoved (s : State) : (decideUnit s).table.lastRemoved = s.table.lastRemoved := by
  unfold decideUnit; dsimp only; (repeat' split) <;> simp
@[simp] theorem decideUnit_eng (s : State) : (decideUnit s).eng = s.eng := by
  unfold decideUnit; dsimp only; (repeat' split) <;> simp
@[simp] theorem decideUnit_drift (s : State) : (decideUnit s).drift = s.drift := by
  unfold decideUnit; dsimp only; (repeat' split) <;> simp
@[simp] theorem decideUnit_pages (s : State) : (decideUnit s).pages = s.pages := by
  unfold decideUnit; dsimp only; (repeat' split) <;> simp
@[simp] theorem decideUnit_gates_drivers (s : State) : (decideUnit s).gates.drivers = s.gates.drivers := by
  unfold decideUnit; dsimp only; (repeat' split) <;> simp
@[simp] theorem decideUnit_link (s : State) : (decideUnit s).link = s.link := by
  unfold decideUnit; dsimp only; (repeat' split) <;> simp
@[simp] theorem decideUnit_peers (s : State) : (decideUnit s).peers = s.peers := by
  unfold decideUnit; dsimp only; (repeat' split) <;> simp
@[simp] theorem decideUnit_ctl (s : State) : (decideUnit s).ctl = s.ctl := by
  unfold decideUnit; dsimp only; (repeat' split) <;> simp
@[simp] theorem decideUnit_alerts_mask (s : State) : (decideUnit s).alerts.mask = s.alerts.mask := by
  unfold decideUnit; dsimp only; (repeat' split) <;> simp
@[simp] theorem decideUnit_alerts_master (s : State) : (decideUnit s).alerts.master = s.alerts.master := by
  unfold decideUnit; dsimp only; (repeat' split) <;> simp
@[simp] theorem decideUnit_work_status (s : State) : (decideUnit s).work.status = s.work.status := by
  unfold decideUnit; dsimp only; (repeat' split) <;> simp
@[simp] theorem decideUnit_freeDraws (s : State) : (decideUnit s).freeDraws = s.freeDraws := by
  unfold decideUnit; dsimp only; (repeat' split) <;> simp
@[simp] theorem decideUnit_pending (s : State) : (decideUnit s).pending = s.pending := by
  unfold decideUnit; dsimp only; (repeat' split) <;> simp
@[simp] theorem enterPullIn_now (g : Fin 16) (tag : BitVec 16) (s : State) : (enterPullIn g tag s).now = s.now := by simp [enterPullIn]
@[simp] theorem enterPullIn_resetHeld (g : Fin 16) (tag : BitVec 16) (s : State) : (enterPullIn g tag s).resetHeld = s.resetHeld := by simp [enterPullIn]
@[simp] theorem enterPullIn_idx (g : Fin 16) (tag : BitVec 16) (s : State) : (enterPullIn g tag s).idx = s.idx := by simp [enterPullIn]
@[simp] theorem enterPullIn_table (g : Fin 16) (tag : BitVec 16) (s : State) : (enterPullIn g tag s).table = s.table := by simp [enterPullIn]
@[simp] theorem enterPullIn_eng (g : Fin 16) (tag : BitVec 16) (s : State) : (enterPullIn g tag s).eng = s.eng := by simp [enterPullIn]
@[simp] theorem enterPullIn_drift (g : Fin 16) (tag : BitVec 16) (s : State) : (enterPullIn g tag s).drift = s.drift := by simp [enterPullIn]
@[simp] theorem enterPullIn_pages (g : Fin 16) (tag : BitVec 16) (s : State) : (enterPullIn g tag s).pages = s.pages := by simp [enterPullIn]
@[simp] theorem enterPullIn_gates_binTallies (g : Fin 16) (tag : BitVec 16) (s : State) : (enterPullIn g tag s).gates.binTallies = s.gates.binTallies := by simp [enterPullIn]
@[simp] theorem enterPullIn_gates_reasonTallies (g : Fin 16) (tag : BitVec 16) (s : State) : (enterPullIn g tag s).gates.reasonTallies = s.gates.reasonTallies := by simp [enterPullIn]
@[simp] theorem enterPullIn_link (g : Fin 16) (tag : BitVec 16) (s : State) : (enterPullIn g tag s).link = s.link := by simp [enterPullIn]
@[simp] theorem enterPullIn_peers (g : Fin 16) (tag : BitVec 16) (s : State) : (enterPullIn g tag s).peers = s.peers := by simp [enterPullIn]
@[simp] theorem enterPullIn_ctl (g : Fin 16) (tag : BitVec 16) (s : State) : (enterPullIn g tag s).ctl = s.ctl := by simp [enterPullIn]
@[simp] theorem enterPullIn_alerts (g : Fin 16) (tag : BitVec 16) (s : State) : (enterPullIn g tag s).alerts = s.alerts := by simp [enterPullIn]
@[simp] theorem enterPullIn_work (g : Fin 16) (tag : BitVec 16) (s : State) : (enterPullIn g tag s).work = s.work := by simp [enterPullIn]
@[simp] theorem enterPullIn_freeDraws (g : Fin 16) (tag : BitVec 16) (s : State) : (enterPullIn g tag s).freeDraws = s.freeDraws := by simp [enterPullIn]
@[simp] theorem enterPullIn_pending (g : Fin 16) (tag : BitVec 16) (s : State) : (enterPullIn g tag s).pending = s.pending := by simp [enterPullIn]
@[simp] theorem startFiring_now (f : Firing) (s : State) : (startFiring f s).now = s.now := by
  unfold startFiring; split <;> simp
@[simp] theorem startFiring_resetHeld (f : Firing) (s : State) : (startFiring f s).resetHeld = s.resetHeld := by
  unfold startFiring; split <;> simp
@[simp] theorem startFiring_idx (f : Firing) (s : State) : (startFiring f s).idx = s.idx := by
  unfold startFiring; split <;> simp
@[simp] theorem startFiring_table (f : Firing) (s : State) : (startFiring f s).table = s.table := by
  unfold startFiring; split <;> simp
@[simp] theorem startFiring_eng (f : Firing) (s : State) : (startFiring f s).eng = s.eng := by
  unfold startFiring; split <;> simp
@[simp] theorem startFiring_drift (f : Firing) (s : State) : (startFiring f s).drift = s.drift := by
  unfold startFiring; split <;> simp
@[simp] theorem startFiring_pages (f : Firing) (s : State) : (startFiring f s).pages = s.pages := by
  unfold startFiring; split <;> simp
@[simp] theorem startFiring_gates_binTallies (f : Firing) (s : State) : (startFiring f s).gates.binTallies = s.gates.binTallies := by
  unfold startFiring; split <;> simp
@[simp] theorem startFiring_gates_reasonTallies (f : Firing) (s : State) : (startFiring f s).gates.reasonTallies = s.gates.reasonTallies := by
  unfold startFiring; split <;> simp
@[simp] theorem startFiring_link (f : Firing) (s : State) : (startFiring f s).link = s.link := by
  unfold startFiring; split <;> simp
@[simp] theorem startFiring_peers (f : Firing) (s : State) : (startFiring f s).peers = s.peers := by
  unfold startFiring; split <;> simp
@[simp] theorem startFiring_ctl (f : Firing) (s : State) : (startFiring f s).ctl = s.ctl := by
  unfold startFiring; split <;> simp
@[simp] theorem startFiring_alerts (f : Firing) (s : State) : (startFiring f s).alerts = s.alerts := by
  unfold startFiring; split <;> simp
@[simp] theorem startFiring_work (f : Firing) (s : State) : (startFiring f s).work = s.work := by
  unfold startFiring; split <;> simp
@[simp] theorem startFiring_freeDraws (f : Firing) (s : State) : (startFiring f s).freeDraws = s.freeDraws := by
  unfold startFiring; split <;> simp
@[simp] theorem startFiring_pending (f : Firing) (s : State) : (startFiring f s).pending = s.pending := by
  unfold startFiring; split <;> simp
@[simp] theorem startFiring_all_now (l : List Firing) (s : State) : (l.foldl (fun a f => startFiring f a) s).now = s.now :=
  foldl_keeps (fun s : State => s.now) _ (fun a x => by simp) l s
@[simp] theorem startFiring_all_resetHeld (l : List Firing) (s : State) : (l.foldl (fun a f => startFiring f a) s).resetHeld = s.resetHeld :=
  foldl_keeps (fun s : State => s.resetHeld) _ (fun a x => by simp) l s
@[simp] theorem startFiring_all_idx (l : List Firing) (s : State) : (l.foldl (fun a f => startFiring f a) s).idx = s.idx :=
  foldl_keeps (fun s : State => s.idx) _ (fun a x => by simp) l s
@[simp] theorem startFiring_all_table (l : List Firing) (s : State) : (l.foldl (fun a f => startFiring f a) s).table = s.table :=
  foldl_keeps (fun s : State => s.table) _ (fun a x => by simp) l s
@[simp] theorem startFiring_all_eng (l : List Firing) (s : State) : (l.foldl (fun a f => startFiring f a) s).eng = s.eng :=
  foldl_keeps (fun s : State => s.eng) _ (fun a x => by simp) l s
@[simp] theorem startFiring_all_drift (l : List Firing) (s : State) : (l.foldl (fun a f => startFiring f a) s).drift = s.drift :=
  foldl_keeps (fun s : State => s.drift) _ (fun a x => by simp) l s
@[simp] theorem startFiring_all_pages (l : List Firing) (s : State) : (l.foldl (fun a f => startFiring f a) s).pages = s.pages :=
  foldl_keeps (fun s : State => s.pages) _ (fun a x => by simp) l s
@[simp] theorem startFiring_all_gates_binTallies (l : List Firing) (s : State) : (l.foldl (fun a f => startFiring f a) s).gates.binTallies = s.gates.binTallies :=
  foldl_keeps (fun s : State => s.gates.binTallies) _ (fun a x => by simp) l s
@[simp] theorem startFiring_all_gates_reasonTallies (l : List Firing) (s : State) : (l.foldl (fun a f => startFiring f a) s).gates.reasonTallies = s.gates.reasonTallies :=
  foldl_keeps (fun s : State => s.gates.reasonTallies) _ (fun a x => by simp) l s
@[simp] theorem startFiring_all_link (l : List Firing) (s : State) : (l.foldl (fun a f => startFiring f a) s).link = s.link :=
  foldl_keeps (fun s : State => s.link) _ (fun a x => by simp) l s
@[simp] theorem startFiring_all_peers (l : List Firing) (s : State) : (l.foldl (fun a f => startFiring f a) s).peers = s.peers :=
  foldl_keeps (fun s : State => s.peers) _ (fun a x => by simp) l s
@[simp] theorem startFiring_all_ctl (l : List Firing) (s : State) : (l.foldl (fun a f => startFiring f a) s).ctl = s.ctl :=
  foldl_keeps (fun s : State => s.ctl) _ (fun a x => by simp) l s
@[simp] theorem startFiring_all_alerts (l : List Firing) (s : State) : (l.foldl (fun a f => startFiring f a) s).alerts = s.alerts :=
  foldl_keeps (fun s : State => s.alerts) _ (fun a x => by simp) l s
@[simp] theorem startFiring_all_work (l : List Firing) (s : State) : (l.foldl (fun a f => startFiring f a) s).work = s.work :=
  foldl_keeps (fun s : State => s.work) _ (fun a x => by simp) l s
@[simp] theorem startFiring_all_freeDraws (l : List Firing) (s : State) : (l.foldl (fun a f => startFiring f a) s).freeDraws = s.freeDraws :=
  foldl_keeps (fun s : State => s.freeDraws) _ (fun a x => by simp) l s
@[simp] theorem startFiring_all_pending (l : List Firing) (s : State) : (l.foldl (fun a f => startFiring f a) s).pending = s.pending :=
  foldl_keeps (fun s : State => s.pending) _ (fun a x => by simp) l s
@[simp] theorem startDue_now (s : State) : (startDue s).now = s.now := by
  unfold startDue; dsimp only; (repeat' split) <;> simp
@[simp] theorem startDue_resetHeld (s : State) : (startDue s).resetHeld = s.resetHeld := by
  unfold startDue; dsimp only; (repeat' split) <;> simp
@[simp] theorem startDue_idx_count (s : State) : (startDue s).idx.count = s.idx.count := by
  unfold startDue; dsimp only; (repeat' split) <;> simp
@[simp] theorem startDue_idx_lastIndex (s : State) : (startDue s).idx.lastIndex = s.idx.lastIndex := by
  unfold startDue; dsimp only; (repeat' split) <;> simp
@[simp] theorem startDue_idx_retireLimit (s : State) : (startDue s).idx.retireLimit = s.idx.retireLimit := by
  unfold startDue; dsimp only; (repeat' split) <;> simp
@[simp] theorem startDue_idx_currentPage (s : State) : (startDue s).idx.currentPage = s.idx.currentPage := by
  unfold startDue; dsimp only; (repeat' split) <;> simp
@[simp] theorem startDue_idx_measReq (s : State) : (startDue s).idx.measReq = s.idx.measReq := by
  unfold startDue; dsimp only; (repeat' split) <;> simp
@[simp] theorem startDue_table (s : State) : (startDue s).table = s.table := by
  unfold startDue; dsimp only; (repeat' split) <;> simp
@[simp] theorem startDue_eng (s : State) : (startDue s).eng = s.eng := by
  unfold startDue; dsimp only; (repeat' split) <;> simp
@[simp] theorem startDue_drift (s : State) : (startDue s).drift = s.drift := by
  unfold startDue; dsimp only; (repeat' split) <;> simp
@[simp] theorem startDue_pages (s : State) : (startDue s).pages = s.pages := by
  unfold startDue; dsimp only; (repeat' split) <;> simp
@[simp] theorem startDue_gates_binTallies (s : State) : (startDue s).gates.binTallies = s.gates.binTallies := by
  unfold startDue; dsimp only; (repeat' split) <;> simp
@[simp] theorem startDue_gates_reasonTallies (s : State) : (startDue s).gates.reasonTallies = s.gates.reasonTallies := by
  unfold startDue; dsimp only; (repeat' split) <;> simp
@[simp] theorem startDue_link (s : State) : (startDue s).link = s.link := by
  unfold startDue; dsimp only; (repeat' split) <;> simp
@[simp] theorem startDue_peers (s : State) : (startDue s).peers = s.peers := by
  unfold startDue; dsimp only; (repeat' split) <;> simp
@[simp] theorem startDue_ctl (s : State) : (startDue s).ctl = s.ctl := by
  unfold startDue; dsimp only; (repeat' split) <;> simp
@[simp] theorem startDue_alerts (s : State) : (startDue s).alerts = s.alerts := by
  unfold startDue; dsimp only; (repeat' split) <;> simp
@[simp] theorem startDue_work (s : State) : (startDue s).work = s.work := by
  unfold startDue; dsimp only; (repeat' split) <;> simp
@[simp] theorem startDue_freeDraws (s : State) : (startDue s).freeDraws = s.freeDraws := by
  unfold startDue; dsimp only; (repeat' split) <;> simp
@[simp] theorem startDue_pending (s : State) : (startDue s).pending = s.pending := by
  unfold startDue; dsimp only; (repeat' split) <;> simp
@[simp] theorem cutFiring_now (s : State) (f : Firing) : (cutFiring s f).now = s.now := by simp [cutFiring]
@[simp] theorem cutFiring_resetHeld (s : State) (f : Firing) : (cutFiring s f).resetHeld = s.resetHeld := by simp [cutFiring]
@[simp] theorem cutFiring_idx (s : State) (f : Firing) : (cutFiring s f).idx = s.idx := by simp [cutFiring]
@[simp] theorem cutFiring_eng (s : State) (f : Firing) : (cutFiring s f).eng = s.eng := by simp [cutFiring]
@[simp] theorem cutFiring_drift (s : State) (f : Firing) : (cutFiring s f).drift = s.drift := by simp [cutFiring]
@[simp] theorem cutFiring_pages (s : State) (f : Firing) : (cutFiring s f).pages = s.pages := by simp [cutFiring]
@[simp] theorem cutFiring_gates_binTallies (s : State) (f : Firing) : (cutFiring s f).gates.binTallies = s.gates.binTallies := by simp [cutFiring]
@[simp] theorem cutFiring_link (s : State) (f : Firing) : (cutFiring s f).link = s.link := by simp [cutFiring]
@[simp] theorem cutFiring_peers (s : State) (f : Firing) : (cutFiring s f).peers = s.peers := by simp [cutFiring]
@[simp] theorem cutFiring_ctl (s : State) (f : Firing) : (cutFiring s f).ctl = s.ctl := by simp [cutFiring]
@[simp] theorem cutFiring_alerts_mask (s : State) (f : Firing) : (cutFiring s f).alerts.mask = s.alerts.mask := by simp [cutFiring]
@[simp] theorem cutFiring_alerts_master (s : State) (f : Firing) : (cutFiring s f).alerts.master = s.alerts.master := by simp [cutFiring]
@[simp] theorem cutFiring_work_units (s : State) (f : Firing) : (cutFiring s f).work.units = s.work.units := by simp [cutFiring]
@[simp] theorem cutFiring_work_status (s : State) (f : Firing) : (cutFiring s f).work.status = s.work.status := by simp [cutFiring]
@[simp] theorem cutFiring_freeDraws (s : State) (f : Firing) : (cutFiring s f).freeDraws = s.freeDraws := by simp [cutFiring]
@[simp] theorem cutFiring_pending (s : State) (f : Firing) : (cutFiring s f).pending = s.pending := by simp [cutFiring]
@[simp] theorem cutFiring_all_now (l : List Firing) (s : State) : (l.foldl cutFiring s).now = s.now :=
  foldl_keeps (fun s : State => s.now) _ (fun a x => by simp) l s
@[simp] theorem cutFiring_all_resetHeld (l : List Firing) (s : State) : (l.foldl cutFiring s).resetHeld = s.resetHeld :=
  foldl_keeps (fun s : State => s.resetHeld) _ (fun a x => by simp) l s
@[simp] theorem cutFiring_all_idx (l : List Firing) (s : State) : (l.foldl cutFiring s).idx = s.idx :=
  foldl_keeps (fun s : State => s.idx) _ (fun a x => by simp) l s
@[simp] theorem cutFiring_all_eng (l : List Firing) (s : State) : (l.foldl cutFiring s).eng = s.eng :=
  foldl_keeps (fun s : State => s.eng) _ (fun a x => by simp) l s
@[simp] theorem cutFiring_all_drift (l : List Firing) (s : State) : (l.foldl cutFiring s).drift = s.drift :=
  foldl_keeps (fun s : State => s.drift) _ (fun a x => by simp) l s
@[simp] theorem cutFiring_all_pages (l : List Firing) (s : State) : (l.foldl cutFiring s).pages = s.pages :=
  foldl_keeps (fun s : State => s.pages) _ (fun a x => by simp) l s
@[simp] theorem cutFiring_all_gates_binTallies (l : List Firing) (s : State) : (l.foldl cutFiring s).gates.binTallies = s.gates.binTallies :=
  foldl_keeps (fun s : State => s.gates.binTallies) _ (fun a x => by simp) l s
@[simp] theorem cutFiring_all_link (l : List Firing) (s : State) : (l.foldl cutFiring s).link = s.link :=
  foldl_keeps (fun s : State => s.link) _ (fun a x => by simp) l s
@[simp] theorem cutFiring_all_peers (l : List Firing) (s : State) : (l.foldl cutFiring s).peers = s.peers :=
  foldl_keeps (fun s : State => s.peers) _ (fun a x => by simp) l s
@[simp] theorem cutFiring_all_ctl (l : List Firing) (s : State) : (l.foldl cutFiring s).ctl = s.ctl :=
  foldl_keeps (fun s : State => s.ctl) _ (fun a x => by simp) l s
@[simp] theorem cutFiring_all_alerts_mask (l : List Firing) (s : State) : (l.foldl cutFiring s).alerts.mask = s.alerts.mask :=
  foldl_keeps (fun s : State => s.alerts.mask) _ (fun a x => by simp) l s
@[simp] theorem cutFiring_all_alerts_master (l : List Firing) (s : State) : (l.foldl cutFiring s).alerts.master = s.alerts.master :=
  foldl_keeps (fun s : State => s.alerts.master) _ (fun a x => by simp) l s
@[simp] theorem cutFiring_all_work_units (l : List Firing) (s : State) : (l.foldl cutFiring s).work.units = s.work.units :=
  foldl_keeps (fun s : State => s.work.units) _ (fun a x => by simp) l s
@[simp] theorem cutFiring_all_work_status (l : List Firing) (s : State) : (l.foldl cutFiring s).work.status = s.work.status :=
  foldl_keeps (fun s : State => s.work.status) _ (fun a x => by simp) l s
@[simp] theorem cutFiring_all_freeDraws (l : List Firing) (s : State) : (l.foldl cutFiring s).freeDraws = s.freeDraws :=
  foldl_keeps (fun s : State => s.freeDraws) _ (fun a x => by simp) l s
@[simp] theorem cutFiring_all_pending (l : List Firing) (s : State) : (l.foldl cutFiring s).pending = s.pending :=
  foldl_keeps (fun s : State => s.pending) _ (fun a x => by simp) l s
@[simp] theorem cutAll_now (s : State) : (cutAll s).now = s.now := by
  unfold cutAll; dsimp only; (repeat' split) <;> simp
@[simp] theorem cutAll_resetHeld (s : State) : (cutAll s).resetHeld = s.resetHeld := by
  unfold cutAll; dsimp only; (repeat' split) <;> simp
@[simp] theorem cutAll_idx_count (s : State) : (cutAll s).idx.count = s.idx.count := by
  unfold cutAll; dsimp only; (repeat' split) <;> simp
@[simp] theorem cutAll_idx_lastIndex (s : State) : (cutAll s).idx.lastIndex = s.idx.lastIndex := by
  unfold cutAll; dsimp only; (repeat' split) <;> simp
@[simp] theorem cutAll_idx_retireLimit (s : State) : (cutAll s).idx.retireLimit = s.idx.retireLimit := by
  unfold cutAll; dsimp only; (repeat' split) <;> simp
@[simp] theorem cutAll_idx_currentPage (s : State) : (cutAll s).idx.currentPage = s.idx.currentPage := by
  unfold cutAll; dsimp only; (repeat' split) <;> simp
@[simp] theorem cutAll_idx_measReq (s : State) : (cutAll s).idx.measReq = s.idx.measReq := by
  unfold cutAll; dsimp only; (repeat' split) <;> simp
@[simp] theorem cutAll_eng (s : State) : (cutAll s).eng = s.eng := by
  unfold cutAll; dsimp only; (repeat' split) <;> simp
@[simp] theorem cutAll_drift (s : State) : (cutAll s).drift = s.drift := by
  unfold cutAll; dsimp only; (repeat' split) <;> simp
@[simp] theorem cutAll_pages (s : State) : (cutAll s).pages = s.pages := by
  unfold cutAll; dsimp only; (repeat' split) <;> simp
@[simp] theorem cutAll_gates_binTallies (s : State) : (cutAll s).gates.binTallies = s.gates.binTallies := by
  unfold cutAll; dsimp only; (repeat' split) <;> simp
@[simp] theorem cutAll_link (s : State) : (cutAll s).link = s.link := by
  unfold cutAll; dsimp only; (repeat' split) <;> simp
@[simp] theorem cutAll_peers (s : State) : (cutAll s).peers = s.peers := by
  unfold cutAll; dsimp only; (repeat' split) <;> simp
@[simp] theorem cutAll_ctl (s : State) : (cutAll s).ctl = s.ctl := by
  unfold cutAll; dsimp only; (repeat' split) <;> simp
@[simp] theorem cutAll_alerts_mask (s : State) : (cutAll s).alerts.mask = s.alerts.mask := by
  unfold cutAll; dsimp only; (repeat' split) <;> simp
@[simp] theorem cutAll_alerts_master (s : State) : (cutAll s).alerts.master = s.alerts.master := by
  unfold cutAll; dsimp only; (repeat' split) <;> simp
@[simp] theorem cutAll_work_units (s : State) : (cutAll s).work.units = s.work.units := by
  unfold cutAll; dsimp only; (repeat' split) <;> simp
@[simp] theorem cutAll_work_status (s : State) : (cutAll s).work.status = s.work.status := by
  unfold cutAll; dsimp only; (repeat' split) <;> simp
@[simp] theorem cutAll_freeDraws (s : State) : (cutAll s).freeDraws = s.freeDraws := by
  unfold cutAll; dsimp only; (repeat' split) <;> simp
@[simp] theorem cutAll_pending (s : State) : (cutAll s).pending = s.pending := by
  unfold cutAll; dsimp only; (repeat' split) <;> simp
@[simp] theorem missFiring_now (s : State) (f : Firing) : (missFiring s f).now = s.now := by simp [missFiring]
@[simp] theorem missFiring_resetHeld (s : State) (f : Firing) : (missFiring s f).resetHeld = s.resetHeld := by simp [missFiring]
@[simp] theorem missFiring_idx (s : State) (f : Firing) : (missFiring s f).idx = s.idx := by simp [missFiring]
@[simp] theorem missFiring_eng (s : State) (f : Firing) : (missFiring s f).eng = s.eng := by simp [missFiring]
@[simp] theorem missFiring_drift (s : State) (f : Firing) : (missFiring s f).drift = s.drift := by simp [missFiring]
@[simp] theorem missFiring_pages (s : State) (f : Firing) : (missFiring s f).pages = s.pages := by simp [missFiring]
@[simp] theorem missFiring_gates_drivers (s : State) (f : Firing) : (missFiring s f).gates.drivers = s.gates.drivers := by simp [missFiring]
@[simp] theorem missFiring_gates_binTallies (s : State) (f : Firing) : (missFiring s f).gates.binTallies = s.gates.binTallies := by simp [missFiring]
@[simp] theorem missFiring_link (s : State) (f : Firing) : (missFiring s f).link = s.link := by simp [missFiring]
@[simp] theorem missFiring_peers (s : State) (f : Firing) : (missFiring s f).peers = s.peers := by simp [missFiring]
@[simp] theorem missFiring_ctl (s : State) (f : Firing) : (missFiring s f).ctl = s.ctl := by simp [missFiring]
@[simp] theorem missFiring_alerts_mask (s : State) (f : Firing) : (missFiring s f).alerts.mask = s.alerts.mask := by simp [missFiring]
@[simp] theorem missFiring_alerts_master (s : State) (f : Firing) : (missFiring s f).alerts.master = s.alerts.master := by simp [missFiring]
@[simp] theorem missFiring_work_units (s : State) (f : Firing) : (missFiring s f).work.units = s.work.units := by simp [missFiring]
@[simp] theorem missFiring_work_status (s : State) (f : Firing) : (missFiring s f).work.status = s.work.status := by simp [missFiring]
@[simp] theorem missFiring_freeDraws (s : State) (f : Firing) : (missFiring s f).freeDraws = s.freeDraws := by simp [missFiring]
@[simp] theorem missFiring_pending (s : State) (f : Firing) : (missFiring s f).pending = s.pending := by simp [missFiring]
@[simp] theorem missFiring_all_now (l : List Firing) (s : State) : (l.foldl missFiring s).now = s.now :=
  foldl_keeps (fun s : State => s.now) _ (fun a x => by simp) l s
@[simp] theorem missFiring_all_resetHeld (l : List Firing) (s : State) : (l.foldl missFiring s).resetHeld = s.resetHeld :=
  foldl_keeps (fun s : State => s.resetHeld) _ (fun a x => by simp) l s
@[simp] theorem missFiring_all_idx (l : List Firing) (s : State) : (l.foldl missFiring s).idx = s.idx :=
  foldl_keeps (fun s : State => s.idx) _ (fun a x => by simp) l s
@[simp] theorem missFiring_all_eng (l : List Firing) (s : State) : (l.foldl missFiring s).eng = s.eng :=
  foldl_keeps (fun s : State => s.eng) _ (fun a x => by simp) l s
@[simp] theorem missFiring_all_drift (l : List Firing) (s : State) : (l.foldl missFiring s).drift = s.drift :=
  foldl_keeps (fun s : State => s.drift) _ (fun a x => by simp) l s
@[simp] theorem missFiring_all_pages (l : List Firing) (s : State) : (l.foldl missFiring s).pages = s.pages :=
  foldl_keeps (fun s : State => s.pages) _ (fun a x => by simp) l s
@[simp] theorem missFiring_all_gates_drivers (l : List Firing) (s : State) : (l.foldl missFiring s).gates.drivers = s.gates.drivers :=
  foldl_keeps (fun s : State => s.gates.drivers) _ (fun a x => by simp) l s
@[simp] theorem missFiring_all_gates_binTallies (l : List Firing) (s : State) : (l.foldl missFiring s).gates.binTallies = s.gates.binTallies :=
  foldl_keeps (fun s : State => s.gates.binTallies) _ (fun a x => by simp) l s
@[simp] theorem missFiring_all_link (l : List Firing) (s : State) : (l.foldl missFiring s).link = s.link :=
  foldl_keeps (fun s : State => s.link) _ (fun a x => by simp) l s
@[simp] theorem missFiring_all_peers (l : List Firing) (s : State) : (l.foldl missFiring s).peers = s.peers :=
  foldl_keeps (fun s : State => s.peers) _ (fun a x => by simp) l s
@[simp] theorem missFiring_all_ctl (l : List Firing) (s : State) : (l.foldl missFiring s).ctl = s.ctl :=
  foldl_keeps (fun s : State => s.ctl) _ (fun a x => by simp) l s
@[simp] theorem missFiring_all_alerts_mask (l : List Firing) (s : State) : (l.foldl missFiring s).alerts.mask = s.alerts.mask :=
  foldl_keeps (fun s : State => s.alerts.mask) _ (fun a x => by simp) l s
@[simp] theorem missFiring_all_alerts_master (l : List Firing) (s : State) : (l.foldl missFiring s).alerts.master = s.alerts.master :=
  foldl_keeps (fun s : State => s.alerts.master) _ (fun a x => by simp) l s
@[simp] theorem missFiring_all_work_units (l : List Firing) (s : State) : (l.foldl missFiring s).work.units = s.work.units :=
  foldl_keeps (fun s : State => s.work.units) _ (fun a x => by simp) l s
@[simp] theorem missFiring_all_work_status (l : List Firing) (s : State) : (l.foldl missFiring s).work.status = s.work.status :=
  foldl_keeps (fun s : State => s.work.status) _ (fun a x => by simp) l s
@[simp] theorem missFiring_all_freeDraws (l : List Firing) (s : State) : (l.foldl missFiring s).freeDraws = s.freeDraws :=
  foldl_keeps (fun s : State => s.freeDraws) _ (fun a x => by simp) l s
@[simp] theorem missFiring_all_pending (l : List Firing) (s : State) : (l.foldl missFiring s).pending = s.pending :=
  foldl_keeps (fun s : State => s.pending) _ (fun a x => by simp) l s
@[simp] theorem dropPassed_now (s : State) : (dropPassed s).now = s.now := by simp [dropPassed]
@[simp] theorem dropPassed_resetHeld (s : State) : (dropPassed s).resetHeld = s.resetHeld := by simp [dropPassed]
@[simp] theorem dropPassed_idx (s : State) : (dropPassed s).idx = s.idx := by simp [dropPassed]
@[simp] theorem dropPassed_eng (s : State) : (dropPassed s).eng = s.eng := by simp [dropPassed]
@[simp] theorem dropPassed_drift (s : State) : (dropPassed s).drift = s.drift := by simp [dropPassed]
@[simp] theorem dropPassed_pages (s : State) : (dropPassed s).pages = s.pages := by simp [dropPassed]
@[simp] theorem dropPassed_gates_drivers (s : State) : (dropPassed s).gates.drivers = s.gates.drivers := by simp [dropPassed]
@[simp] theorem dropPassed_gates_binTallies (s : State) : (dropPassed s).gates.binTallies = s.gates.binTallies := by simp [dropPassed]
@[simp] theorem dropPassed_link (s : State) : (dropPassed s).link = s.link := by simp [dropPassed]
@[simp] theorem dropPassed_peers (s : State) : (dropPassed s).peers = s.peers := by simp [dropPassed]
@[simp] theorem dropPassed_ctl (s : State) : (dropPassed s).ctl = s.ctl := by simp [dropPassed]
@[simp] theorem dropPassed_alerts_mask (s : State) : (dropPassed s).alerts.mask = s.alerts.mask := by simp [dropPassed]
@[simp] theorem dropPassed_alerts_master (s : State) : (dropPassed s).alerts.master = s.alerts.master := by simp [dropPassed]
@[simp] theorem dropPassed_work_units (s : State) : (dropPassed s).work.units = s.work.units := by simp [dropPassed]
@[simp] theorem dropPassed_work_status (s : State) : (dropPassed s).work.status = s.work.status := by simp [dropPassed]
@[simp] theorem dropPassed_freeDraws (s : State) : (dropPassed s).freeDraws = s.freeDraws := by simp [dropPassed]
@[simp] theorem dropPassed_pending (s : State) : (dropPassed s).pending = s.pending := by simp [dropPassed]
@[simp] theorem sortIndexEvent_now (s : State) : (sortIndexEvent s).now = s.now := by simp [sortIndexEvent]
@[simp] theorem sortIndexEvent_resetHeld (s : State) : (sortIndexEvent s).resetHeld = s.resetHeld := by simp [sortIndexEvent]
@[simp] theorem sortIndexEvent_idx_count (s : State) : (sortIndexEvent s).idx.count = s.idx.count := by simp [sortIndexEvent]
@[simp] theorem sortIndexEvent_idx_lastIndex (s : State) : (sortIndexEvent s).idx.lastIndex = s.idx.lastIndex := by simp [sortIndexEvent]
@[simp] theorem sortIndexEvent_idx_retireLimit (s : State) : (sortIndexEvent s).idx.retireLimit = s.idx.retireLimit := by simp [sortIndexEvent]
@[simp] theorem sortIndexEvent_idx_currentPage (s : State) : (sortIndexEvent s).idx.currentPage = s.idx.currentPage := by simp [sortIndexEvent]
@[simp] theorem sortIndexEvent_idx_measReq (s : State) : (sortIndexEvent s).idx.measReq = s.idx.measReq := by simp [sortIndexEvent]
@[simp] theorem sortIndexEvent_eng (s : State) : (sortIndexEvent s).eng = s.eng := by simp [sortIndexEvent]
@[simp] theorem sortIndexEvent_drift (s : State) : (sortIndexEvent s).drift = s.drift := by simp [sortIndexEvent]
@[simp] theorem sortIndexEvent_pages (s : State) : (sortIndexEvent s).pages = s.pages := by simp [sortIndexEvent]
@[simp] theorem sortIndexEvent_link (s : State) : (sortIndexEvent s).link = s.link := by simp [sortIndexEvent]
@[simp] theorem sortIndexEvent_peers (s : State) : (sortIndexEvent s).peers = s.peers := by simp [sortIndexEvent]
@[simp] theorem sortIndexEvent_ctl (s : State) : (sortIndexEvent s).ctl = s.ctl := by simp [sortIndexEvent]
@[simp] theorem sortIndexEvent_alerts_mask (s : State) : (sortIndexEvent s).alerts.mask = s.alerts.mask := by simp [sortIndexEvent]
@[simp] theorem sortIndexEvent_alerts_master (s : State) : (sortIndexEvent s).alerts.master = s.alerts.master := by simp [sortIndexEvent]
@[simp] theorem sortIndexEvent_work_status (s : State) : (sortIndexEvent s).work.status = s.work.status := by simp [sortIndexEvent]
@[simp] theorem sortIndexEvent_freeDraws (s : State) : (sortIndexEvent s).freeDraws = s.freeDraws := by simp [sortIndexEvent]
@[simp] theorem sortIndexEvent_pending (s : State) : (sortIndexEvent s).pending = s.pending := by simp [sortIndexEvent]
@[simp] theorem endPulse_now (g : Fin 16) (tag : BitVec 16) (s : State) : (endPulse g tag s).now = s.now := by
  unfold endPulse; dsimp only; (repeat' split) <;> simp
@[simp] theorem endPulse_resetHeld (g : Fin 16) (tag : BitVec 16) (s : State) : (endPulse g tag s).resetHeld = s.resetHeld := by
  unfold endPulse; dsimp only; (repeat' split) <;> simp
@[simp] theorem endPulse_idx_count (g : Fin 16) (tag : BitVec 16) (s : State) : (endPulse g tag s).idx.count = s.idx.count := by
  unfold endPulse; dsimp only; (repeat' split) <;> simp
@[simp] theorem endPulse_idx_lastIndex (g : Fin 16) (tag : BitVec 16) (s : State) : (endPulse g tag s).idx.lastIndex = s.idx.lastIndex := by
  unfold endPulse; dsimp only; (repeat' split) <;> simp
@[simp] theorem endPulse_idx_retireLimit (g : Fin 16) (tag : BitVec 16) (s : State) : (endPulse g tag s).idx.retireLimit = s.idx.retireLimit := by
  unfold endPulse; dsimp only; (repeat' split) <;> simp
@[simp] theorem endPulse_idx_currentPage (g : Fin 16) (tag : BitVec 16) (s : State) : (endPulse g tag s).idx.currentPage = s.idx.currentPage := by
  unfold endPulse; dsimp only; (repeat' split) <;> simp
@[simp] theorem endPulse_idx_measReq (g : Fin 16) (tag : BitVec 16) (s : State) : (endPulse g tag s).idx.measReq = s.idx.measReq := by
  unfold endPulse; dsimp only; (repeat' split) <;> simp
@[simp] theorem endPulse_eng (g : Fin 16) (tag : BitVec 16) (s : State) : (endPulse g tag s).eng = s.eng := by
  unfold endPulse; dsimp only; (repeat' split) <;> simp
@[simp] theorem endPulse_drift (g : Fin 16) (tag : BitVec 16) (s : State) : (endPulse g tag s).drift = s.drift := by
  unfold endPulse; dsimp only; (repeat' split) <;> simp
@[simp] theorem endPulse_pages (g : Fin 16) (tag : BitVec 16) (s : State) : (endPulse g tag s).pages = s.pages := by
  unfold endPulse; dsimp only; (repeat' split) <;> simp
@[simp] theorem endPulse_gates_binTallies (g : Fin 16) (tag : BitVec 16) (s : State) : (endPulse g tag s).gates.binTallies = s.gates.binTallies := by
  unfold endPulse; dsimp only; (repeat' split) <;> simp
@[simp] theorem endPulse_link (g : Fin 16) (tag : BitVec 16) (s : State) : (endPulse g tag s).link = s.link := by
  unfold endPulse; dsimp only; (repeat' split) <;> simp
@[simp] theorem endPulse_peers (g : Fin 16) (tag : BitVec 16) (s : State) : (endPulse g tag s).peers = s.peers := by
  unfold endPulse; dsimp only; (repeat' split) <;> simp
@[simp] theorem endPulse_ctl (g : Fin 16) (tag : BitVec 16) (s : State) : (endPulse g tag s).ctl = s.ctl := by
  unfold endPulse; dsimp only; (repeat' split) <;> simp
@[simp] theorem endPulse_alerts (g : Fin 16) (tag : BitVec 16) (s : State) : (endPulse g tag s).alerts = s.alerts := by
  unfold endPulse; dsimp only; (repeat' split) <;> simp
@[simp] theorem endPulse_work_units (g : Fin 16) (tag : BitVec 16) (s : State) : (endPulse g tag s).work.units = s.work.units := by
  unfold endPulse; dsimp only; (repeat' split) <;> simp
@[simp] theorem endPulse_work_status (g : Fin 16) (tag : BitVec 16) (s : State) : (endPulse g tag s).work.status = s.work.status := by
  unfold endPulse; dsimp only; (repeat' split) <;> simp
@[simp] theorem endPulse_freeDraws (g : Fin 16) (tag : BitVec 16) (s : State) : (endPulse g tag s).freeDraws = s.freeDraws := by
  unfold endPulse; dsimp only; (repeat' split) <;> simp
@[simp] theorem endPulse_pending (g : Fin 16) (tag : BitVec 16) (s : State) : (endPulse g tag s).pending = s.pending := by
  unfold endPulse; dsimp only; (repeat' split) <;> simp
@[simp] theorem expireDelay_now (g : Fin 16) (s : State) : (expireDelay g s).now = s.now := by
  unfold expireDelay; (repeat' split) <;> simp_all
@[simp] theorem expireDelay_resetHeld (g : Fin 16) (s : State) : (expireDelay g s).resetHeld = s.resetHeld := by
  unfold expireDelay; (repeat' split) <;> simp_all
@[simp] theorem expireDelay_idx (g : Fin 16) (s : State) : (expireDelay g s).idx = s.idx := by
  unfold expireDelay; (repeat' split) <;> simp_all
@[simp] theorem expireDelay_table (g : Fin 16) (s : State) : (expireDelay g s).table = s.table := by
  unfold expireDelay; (repeat' split) <;> simp_all
@[simp] theorem expireDelay_eng (g : Fin 16) (s : State) : (expireDelay g s).eng = s.eng := by
  unfold expireDelay; (repeat' split) <;> simp_all
@[simp] theorem expireDelay_drift (g : Fin 16) (s : State) : (expireDelay g s).drift = s.drift := by
  unfold expireDelay; (repeat' split) <;> simp_all
@[simp] theorem expireDelay_pages (g : Fin 16) (s : State) : (expireDelay g s).pages = s.pages := by
  unfold expireDelay; (repeat' split) <;> simp_all
@[simp] theorem expireDelay_gates_binTallies (g : Fin 16) (s : State) : (expireDelay g s).gates.binTallies = s.gates.binTallies := by
  unfold expireDelay; (repeat' split) <;> simp_all
@[simp] theorem expireDelay_gates_reasonTallies (g : Fin 16) (s : State) : (expireDelay g s).gates.reasonTallies = s.gates.reasonTallies := by
  unfold expireDelay; (repeat' split) <;> simp_all
@[simp] theorem expireDelay_link (g : Fin 16) (s : State) : (expireDelay g s).link = s.link := by
  unfold expireDelay; (repeat' split) <;> simp_all
@[simp] theorem expireDelay_peers (g : Fin 16) (s : State) : (expireDelay g s).peers = s.peers := by
  unfold expireDelay; (repeat' split) <;> simp_all
@[simp] theorem expireDelay_ctl (g : Fin 16) (s : State) : (expireDelay g s).ctl = s.ctl := by
  unfold expireDelay; (repeat' split) <;> simp_all
@[simp] theorem expireDelay_alerts (g : Fin 16) (s : State) : (expireDelay g s).alerts = s.alerts := by
  unfold expireDelay; (repeat' split) <;> simp_all
@[simp] theorem expireDelay_work (g : Fin 16) (s : State) : (expireDelay g s).work = s.work := by
  unfold expireDelay; (repeat' split) <;> simp_all
@[simp] theorem expireDelay_freeDraws (g : Fin 16) (s : State) : (expireDelay g s).freeDraws = s.freeDraws := by
  unfold expireDelay; (repeat' split) <;> simp_all
@[simp] theorem expireDelay_pending (g : Fin 16) (s : State) : (expireDelay g s).pending = s.pending := by
  unfold expireDelay; (repeat' split) <;> simp_all
@[simp] theorem expirePullIn_now (g : Fin 16) (s : State) : (expirePullIn g s).now = s.now := by
  unfold expirePullIn; (repeat' split) <;> simp_all
@[simp] theorem expirePullIn_resetHeld (g : Fin 16) (s : State) : (expirePullIn g s).resetHeld = s.resetHeld := by
  unfold expirePullIn; (repeat' split) <;> simp_all
@[simp] theorem expirePullIn_idx_count (g : Fin 16) (s : State) : (expirePullIn g s).idx.count = s.idx.count := by
  unfold expirePullIn; (repeat' split) <;> simp_all
@[simp] theorem expirePullIn_idx_lastIndex (g : Fin 16) (s : State) : (expirePullIn g s).idx.lastIndex = s.idx.lastIndex := by
  unfold expirePullIn; (repeat' split) <;> simp_all
@[simp] theorem expirePullIn_idx_retireLimit (g : Fin 16) (s : State) : (expirePullIn g s).idx.retireLimit = s.idx.retireLimit := by
  unfold expirePullIn; (repeat' split) <;> simp_all
@[simp] theorem expirePullIn_idx_currentPage (g : Fin 16) (s : State) : (expirePullIn g s).idx.currentPage = s.idx.currentPage := by
  unfold expirePullIn; (repeat' split) <;> simp_all
@[simp] theorem expirePullIn_idx_measReq (g : Fin 16) (s : State) : (expirePullIn g s).idx.measReq = s.idx.measReq := by
  unfold expirePullIn; (repeat' split) <;> simp_all
@[simp] theorem expirePullIn_eng (g : Fin 16) (s : State) : (expirePullIn g s).eng = s.eng := by
  unfold expirePullIn; (repeat' split) <;> simp_all
@[simp] theorem expirePullIn_drift (g : Fin 16) (s : State) : (expirePullIn g s).drift = s.drift := by
  unfold expirePullIn; (repeat' split) <;> simp_all
@[simp] theorem expirePullIn_pages (g : Fin 16) (s : State) : (expirePullIn g s).pages = s.pages := by
  unfold expirePullIn; (repeat' split) <;> simp_all
@[simp] theorem expirePullIn_gates_binTallies (g : Fin 16) (s : State) : (expirePullIn g s).gates.binTallies = s.gates.binTallies := by
  unfold expirePullIn; (repeat' split) <;> simp_all
@[simp] theorem expirePullIn_link (g : Fin 16) (s : State) : (expirePullIn g s).link = s.link := by
  unfold expirePullIn; (repeat' split) <;> simp_all
@[simp] theorem expirePullIn_peers (g : Fin 16) (s : State) : (expirePullIn g s).peers = s.peers := by
  unfold expirePullIn; (repeat' split) <;> simp_all
@[simp] theorem expirePullIn_ctl (g : Fin 16) (s : State) : (expirePullIn g s).ctl = s.ctl := by
  unfold expirePullIn; (repeat' split) <;> simp_all
@[simp] theorem expirePullIn_alerts (g : Fin 16) (s : State) : (expirePullIn g s).alerts = s.alerts := by
  unfold expirePullIn; (repeat' split) <;> simp_all
@[simp] theorem expirePullIn_work_units (g : Fin 16) (s : State) : (expirePullIn g s).work.units = s.work.units := by
  unfold expirePullIn; (repeat' split) <;> simp_all
@[simp] theorem expirePullIn_work_status (g : Fin 16) (s : State) : (expirePullIn g s).work.status = s.work.status := by
  unfold expirePullIn; (repeat' split) <;> simp_all
@[simp] theorem expirePullIn_freeDraws (g : Fin 16) (s : State) : (expirePullIn g s).freeDraws = s.freeDraws := by
  unfold expirePullIn; (repeat' split) <;> simp_all
@[simp] theorem expirePullIn_pending (g : Fin 16) (s : State) : (expirePullIn g s).pending = s.pending := by
  unfold expirePullIn; (repeat' split) <;> simp_all
@[simp] theorem expirePulse_now (g : Fin 16) (s : State) : (expirePulse g s).now = s.now := by
  unfold expirePulse; (repeat' split) <;> simp_all
@[simp] theorem expirePulse_resetHeld (g : Fin 16) (s : State) : (expirePulse g s).resetHeld = s.resetHeld := by
  unfold expirePulse; (repeat' split) <;> simp_all
@[simp] theorem expirePulse_idx_count (g : Fin 16) (s : State) : (expirePulse g s).idx.count = s.idx.count := by
  unfold expirePulse; (repeat' split) <;> simp_all
@[simp] theorem expirePulse_idx_lastIndex (g : Fin 16) (s : State) : (expirePulse g s).idx.lastIndex = s.idx.lastIndex := by
  unfold expirePulse; (repeat' split) <;> simp_all
@[simp] theorem expirePulse_idx_retireLimit (g : Fin 16) (s : State) : (expirePulse g s).idx.retireLimit = s.idx.retireLimit := by
  unfold expirePulse; (repeat' split) <;> simp_all
@[simp] theorem expirePulse_idx_currentPage (g : Fin 16) (s : State) : (expirePulse g s).idx.currentPage = s.idx.currentPage := by
  unfold expirePulse; (repeat' split) <;> simp_all
@[simp] theorem expirePulse_idx_measReq (g : Fin 16) (s : State) : (expirePulse g s).idx.measReq = s.idx.measReq := by
  unfold expirePulse; (repeat' split) <;> simp_all
@[simp] theorem expirePulse_eng (g : Fin 16) (s : State) : (expirePulse g s).eng = s.eng := by
  unfold expirePulse; (repeat' split) <;> simp_all
@[simp] theorem expirePulse_drift (g : Fin 16) (s : State) : (expirePulse g s).drift = s.drift := by
  unfold expirePulse; (repeat' split) <;> simp_all
@[simp] theorem expirePulse_pages (g : Fin 16) (s : State) : (expirePulse g s).pages = s.pages := by
  unfold expirePulse; (repeat' split) <;> simp_all
@[simp] theorem expirePulse_gates_binTallies (g : Fin 16) (s : State) : (expirePulse g s).gates.binTallies = s.gates.binTallies := by
  unfold expirePulse; (repeat' split) <;> simp_all
@[simp] theorem expirePulse_link (g : Fin 16) (s : State) : (expirePulse g s).link = s.link := by
  unfold expirePulse; (repeat' split) <;> simp_all
@[simp] theorem expirePulse_peers (g : Fin 16) (s : State) : (expirePulse g s).peers = s.peers := by
  unfold expirePulse; (repeat' split) <;> simp_all
@[simp] theorem expirePulse_ctl (g : Fin 16) (s : State) : (expirePulse g s).ctl = s.ctl := by
  unfold expirePulse; (repeat' split) <;> simp_all
@[simp] theorem expirePulse_alerts (g : Fin 16) (s : State) : (expirePulse g s).alerts = s.alerts := by
  unfold expirePulse; (repeat' split) <;> simp_all
@[simp] theorem expirePulse_work_units (g : Fin 16) (s : State) : (expirePulse g s).work.units = s.work.units := by
  unfold expirePulse; (repeat' split) <;> simp_all
@[simp] theorem expirePulse_work_status (g : Fin 16) (s : State) : (expirePulse g s).work.status = s.work.status := by
  unfold expirePulse; (repeat' split) <;> simp_all
@[simp] theorem expirePulse_freeDraws (g : Fin 16) (s : State) : (expirePulse g s).freeDraws = s.freeDraws := by
  unfold expirePulse; (repeat' split) <;> simp_all
@[simp] theorem expirePulse_pending (g : Fin 16) (s : State) : (expirePulse g s).pending = s.pending := by
  unfold expirePulse; (repeat' split) <;> simp_all
@[simp] theorem clearFirings_now (s : State) : (clearFirings s).now = s.now := by simp [clearFirings]
@[simp] theorem clearFirings_resetHeld (s : State) : (clearFirings s).resetHeld = s.resetHeld := by simp [clearFirings]
@[simp] theorem clearFirings_idx_count (s : State) : (clearFirings s).idx.count = s.idx.count := by simp [clearFirings]
@[simp] theorem clearFirings_idx_lastIndex (s : State) : (clearFirings s).idx.lastIndex = s.idx.lastIndex := by simp [clearFirings]
@[simp] theorem clearFirings_idx_retireLimit (s : State) : (clearFirings s).idx.retireLimit = s.idx.retireLimit := by simp [clearFirings]
@[simp] theorem clearFirings_idx_currentPage (s : State) : (clearFirings s).idx.currentPage = s.idx.currentPage := by simp [clearFirings]
@[simp] theorem clearFirings_idx_measReq (s : State) : (clearFirings s).idx.measReq = s.idx.measReq := by simp [clearFirings]
@[simp] theorem clearFirings_table (s : State) : (clearFirings s).table = s.table := by simp [clearFirings]
@[simp] theorem clearFirings_eng (s : State) : (clearFirings s).eng = s.eng := by simp [clearFirings]
@[simp] theorem clearFirings_drift (s : State) : (clearFirings s).drift = s.drift := by simp [clearFirings]
@[simp] theorem clearFirings_pages (s : State) : (clearFirings s).pages = s.pages := by simp [clearFirings]
@[simp] theorem clearFirings_gates_binTallies (s : State) : (clearFirings s).gates.binTallies = s.gates.binTallies := by simp [clearFirings]
@[simp] theorem clearFirings_gates_reasonTallies (s : State) : (clearFirings s).gates.reasonTallies = s.gates.reasonTallies := by simp [clearFirings]
@[simp] theorem clearFirings_link (s : State) : (clearFirings s).link = s.link := by simp [clearFirings]
@[simp] theorem clearFirings_peers (s : State) : (clearFirings s).peers = s.peers := by simp [clearFirings]
@[simp] theorem clearFirings_ctl (s : State) : (clearFirings s).ctl = s.ctl := by simp [clearFirings]
@[simp] theorem clearFirings_alerts (s : State) : (clearFirings s).alerts = s.alerts := by simp [clearFirings]
@[simp] theorem clearFirings_work (s : State) : (clearFirings s).work = s.work := by simp [clearFirings]
@[simp] theorem clearFirings_freeDraws (s : State) : (clearFirings s).freeDraws = s.freeDraws := by simp [clearFirings]
@[simp] theorem clearFirings_pending (s : State) : (clearFirings s).pending = s.pending := by simp [clearFirings]
@[simp] theorem muteGates_now (s : State) : (muteGates s).now = s.now := by simp [muteGates]
@[simp] theorem muteGates_resetHeld (s : State) : (muteGates s).resetHeld = s.resetHeld := by simp [muteGates]
@[simp] theorem muteGates_idx_count (s : State) : (muteGates s).idx.count = s.idx.count := by simp [muteGates]
@[simp] theorem muteGates_idx_lastIndex (s : State) : (muteGates s).idx.lastIndex = s.idx.lastIndex := by simp [muteGates]
@[simp] theorem muteGates_idx_retireLimit (s : State) : (muteGates s).idx.retireLimit = s.idx.retireLimit := by simp [muteGates]
@[simp] theorem muteGates_idx_currentPage (s : State) : (muteGates s).idx.currentPage = s.idx.currentPage := by simp [muteGates]
@[simp] theorem muteGates_idx_measReq (s : State) : (muteGates s).idx.measReq = s.idx.measReq := by simp [muteGates]
@[simp] theorem muteGates_eng (s : State) : (muteGates s).eng = s.eng := by simp [muteGates]
@[simp] theorem muteGates_drift (s : State) : (muteGates s).drift = s.drift := by simp [muteGates]
@[simp] theorem muteGates_pages (s : State) : (muteGates s).pages = s.pages := by simp [muteGates]
@[simp] theorem muteGates_gates_binTallies (s : State) : (muteGates s).gates.binTallies = s.gates.binTallies := by simp [muteGates]
@[simp] theorem muteGates_link (s : State) : (muteGates s).link = s.link := by simp [muteGates]
@[simp] theorem muteGates_peers (s : State) : (muteGates s).peers = s.peers := by simp [muteGates]
@[simp] theorem muteGates_ctl (s : State) : (muteGates s).ctl = s.ctl := by simp [muteGates]
@[simp] theorem muteGates_alerts_mask (s : State) : (muteGates s).alerts.mask = s.alerts.mask := by simp [muteGates]
@[simp] theorem muteGates_alerts_master (s : State) : (muteGates s).alerts.master = s.alerts.master := by simp [muteGates]
@[simp] theorem muteGates_work_units (s : State) : (muteGates s).work.units = s.work.units := by simp [muteGates]
@[simp] theorem muteGates_work_status (s : State) : (muteGates s).work.status = s.work.status := by simp [muteGates]
@[simp] theorem muteGates_freeDraws (s : State) : (muteGates s).freeDraws = s.freeDraws := by simp [muteGates]
@[simp] theorem muteGates_pending (s : State) : (muteGates s).pending = s.pending := by simp [muteGates]
@[simp] theorem clearTallies_now (s : State) : (clearTallies s).now = s.now := by simp [clearTallies]
@[simp] theorem clearTallies_resetHeld (s : State) : (clearTallies s).resetHeld = s.resetHeld := by simp [clearTallies]
@[simp] theorem clearTallies_idx (s : State) : (clearTallies s).idx = s.idx := by simp [clearTallies]
@[simp] theorem clearTallies_table (s : State) : (clearTallies s).table = s.table := by simp [clearTallies]
@[simp] theorem clearTallies_eng (s : State) : (clearTallies s).eng = s.eng := by simp [clearTallies]
@[simp] theorem clearTallies_drift (s : State) : (clearTallies s).drift = s.drift := by simp [clearTallies]
@[simp] theorem clearTallies_pages (s : State) : (clearTallies s).pages = s.pages := by simp [clearTallies]
@[simp] theorem clearTallies_gates_firings (s : State) : (clearTallies s).gates.firings = s.gates.firings := by simp [clearTallies]
@[simp] theorem clearTallies_gates_drivers (s : State) : (clearTallies s).gates.drivers = s.gates.drivers := by simp [clearTallies]
@[simp] theorem clearTallies_link (s : State) : (clearTallies s).link = s.link := by simp [clearTallies]
@[simp] theorem clearTallies_peers (s : State) : (clearTallies s).peers = s.peers := by simp [clearTallies]
@[simp] theorem clearTallies_ctl (s : State) : (clearTallies s).ctl = s.ctl := by simp [clearTallies]
@[simp] theorem clearTallies_alerts (s : State) : (clearTallies s).alerts = s.alerts := by simp [clearTallies]
@[simp] theorem clearTallies_work (s : State) : (clearTallies s).work = s.work := by simp [clearTallies]
@[simp] theorem clearTallies_freeDraws (s : State) : (clearTallies s).freeDraws = s.freeDraws := by simp [clearTallies]
@[simp] theorem clearTallies_pending (s : State) : (clearTallies s).pending = s.pending := by simp [clearTallies]

end Sys2Proof.Machine
end

