-- ==== Sys2Proof/Laws/KeepPeers.lean ====
section
/-! SUPPORT. What the Peer Monitor, the realign and the Recipe Store leave as it was: one lemma for each operation and each block (or part of a block) that it does not touch. -/

-- One lemma after the other: elaborated side by side, the lemmas of one operation wait for its unfolding, each on a thread of its own.
set_option Elab.async false

namespace Sys2Proof.Machine

@[simp] theorem enterStandby_now (s : State) : (enterStandby s).now = s.now := by simp [enterStandby]
@[simp] theorem enterStandby_resetHeld (s : State) : (enterStandby s).resetHeld = s.resetHeld := by simp [enterStandby]
@[simp] theorem enterStandby_idx_count (s : State) : (enterStandby s).idx.count = s.idx.count := by simp [enterStandby]
@[simp] theorem enterStandby_idx_lastIndex (s : State) : (enterStandby s).idx.lastIndex = s.idx.lastIndex := by simp [enterStandby]
@[simp] theorem enterStandby_idx_retireLimit (s : State) : (enterStandby s).idx.retireLimit = s.idx.retireLimit := by simp [enterStandby]
@[simp] theorem enterStandby_idx_currentPage (s : State) : (enterStandby s).idx.currentPage = s.idx.currentPage := by simp [enterStandby]
@[simp] theorem enterStandby_idx_firingReq (s : State) : (enterStandby s).idx.firingReq = s.idx.firingReq := by simp [enterStandby]
@[simp] theorem enterStandby_table (s : State) : (enterStandby s).table = s.table := by simp [enterStandby]
@[simp] theorem enterStandby_eng_recentPage (s : State) : (enterStandby s).eng.recentPage = s.eng.recentPage := by simp [enterStandby]
@[simp] theorem enterStandby_drift (s : State) : (enterStandby s).drift = s.drift := by simp [enterStandby]
@[simp] theorem enterStandby_pages (s : State) : (enterStandby s).pages = s.pages := by simp [enterStandby]
@[simp] theorem enterStandby_gates (s : State) : (enterStandby s).gates = s.gates := by simp [enterStandby]
@[simp] theorem enterStandby_link_lineIdle (s : State) : (enterStandby s).link.lineIdle = s.link.lineIdle := by simp [enterStandby]
@[simp] theorem enterStandby_link_quietSince (s : State) : (enterStandby s).link.quietSince = s.link.quietSince := by simp [enterStandby]
@[simp] theorem enterStandby_link_deferral (s : State) : (enterStandby s).link.deferral = s.link.deferral := by simp [enterStandby]
@[simp] theorem enterStandby_link_lastSender (s : State) : (enterStandby s).link.lastSender = s.link.lastSender := by simp [enterStandby]
@[simp] theorem enterStandby_peers (s : State) : (enterStandby s).peers = s.peers := by simp [enterStandby]
@[simp] theorem enterStandby_ctl_node (s : State) : (enterStandby s).ctl.node = s.ctl.node := by simp [enterStandby]
@[simp] theorem enterStandby_ctl_role (s : State) : (enterStandby s).ctl.role = s.ctl.role := by simp [enterStandby]
@[simp] theorem enterStandby_ctl_run (s : State) : (enterStandby s).ctl.run = s.ctl.run := by simp [enterStandby]
@[simp] theorem enterStandby_ctl_faultReason (s : State) : (enterStandby s).ctl.faultReason = s.ctl.faultReason := by simp [enterStandby]
@[simp] theorem enterStandby_ctl_drain (s : State) : (enterStandby s).ctl.drain = s.ctl.drain := by simp [enterStandby]
@[simp] theorem enterStandby_ctl_cause (s : State) : (enterStandby s).ctl.cause = s.ctl.cause := by simp [enterStandby]
@[simp] theorem enterStandby_ctl_listenDue (s : State) : (enterStandby s).ctl.listenDue = s.ctl.listenDue := by simp [enterStandby]
@[simp] theorem enterStandby_ctl_items (s : State) : (enterStandby s).ctl.items = s.ctl.items := by simp [enterStandby]
@[simp] theorem enterStandby_alerts (s : State) : (enterStandby s).alerts = s.alerts := by simp [enterStandby]
@[simp] theorem enterStandby_work_units (s : State) : (enterStandby s).work.units = s.work.units := by simp [enterStandby]
@[simp] theorem enterStandby_work_status (s : State) : (enterStandby s).work.status = s.work.status := by simp [enterStandby]
@[simp] theorem enterStandby_freeDraws (s : State) : (enterStandby s).freeDraws = s.freeDraws := by simp [enterStandby]
@[simp] theorem enterStandby_pending (s : State) : (enterStandby s).pending = s.pending := by simp [enterStandby]
@[simp] theorem enterMuted_now (s : State) : (enterMuted s).now = s.now := by
  unfold enterMuted; dsimp only; (repeat' split) <;> simp
@[simp] theorem enterMuted_resetHeld (s : State) : (enterMuted s).resetHeld = s.resetHeld := by
  unfold enterMuted; dsimp only; (repeat' split) <;> simp
@[simp] theorem enterMuted_idx_count (s : State) : (enterMuted s).idx.count = s.idx.count := by
  unfold enterMuted; dsimp only; (repeat' split) <;> simp
@[simp] theorem enterMuted_idx_lastIndex (s : State) : (enterMuted s).idx.lastIndex = s.idx.lastIndex := by
  unfold enterMuted; dsimp only; (repeat' split) <;> simp
@[simp] theorem enterMuted_idx_retireLimit (s : State) : (enterMuted s).idx.retireLimit = s.idx.retireLimit := by
  unfold enterMuted; dsimp only; (repeat' split) <;> simp
@[simp] theorem enterMuted_idx_currentPage (s : State) : (enterMuted s).idx.currentPage = s.idx.currentPage := by
  unfold enterMuted; dsimp only; (repeat' split) <;> simp
@[simp] theorem enterMuted_eng_recentPage (s : State) : (enterMuted s).eng.recentPage = s.eng.recentPage := by
  unfold enterMuted; dsimp only; (repeat' split) <;> simp
@[simp] theorem enterMuted_drift (s : State) : (enterMuted s).drift = s.drift := by
  unfold enterMuted; dsimp only; (repeat' split) <;> simp
@[simp] theorem enterMuted_pages (s : State) : (enterMuted s).pages = s.pages := by
  unfold enterMuted; dsimp only; (repeat' split) <;> simp
@[simp] theorem enterMuted_gates_binTallies (s : State) : (enterMuted s).gates.binTallies = s.gates.binTallies := by
  unfold enterMuted; dsimp only; (repeat' split) <;> simp
@[simp] theorem enterMuted_link_lineIdle (s : State) : (enterMuted s).link.lineIdle = s.link.lineIdle := by
  unfold enterMuted; dsimp only; (repeat' split) <;> simp
@[simp] theorem enterMuted_link_quietSince (s : State) : (enterMuted s).link.quietSince = s.link.quietSince := by
  unfold enterMuted; dsimp only; (repeat' split) <;> simp
@[simp] theorem enterMuted_link_deferral (s : State) : (enterMuted s).link.deferral = s.link.deferral := by
  unfold enterMuted; dsimp only; (repeat' split) <;> simp
@[simp] theorem enterMuted_link_lastSender (s : State) : (enterMuted s).link.lastSender = s.link.lastSender := by
  unfold enterMuted; dsimp only; (repeat' split) <;> simp
@[simp] theorem enterMuted_peers (s : State) : (enterMuted s).peers = s.peers := by
  unfold enterMuted; dsimp only; (repeat' split) <;> simp
@[simp] theorem enterMuted_ctl_node (s : State) : (enterMuted s).ctl.node = s.ctl.node := by
  unfold enterMuted; dsimp only; (repeat' split) <;> simp
@[simp] theorem enterMuted_ctl_role (s : State) : (enterMuted s).ctl.role = s.ctl.role := by
  unfold enterMuted; dsimp only; (repeat' split) <;> simp
@[simp] theorem enterMuted_ctl_run (s : State) : (enterMuted s).ctl.run = s.ctl.run := by
  unfold enterMuted; dsimp only; (repeat' split) <;> simp
@[simp] theorem enterMuted_ctl_faultReason (s : State) : (enterMuted s).ctl.faultReason = s.ctl.faultReason := by
  unfold enterMuted; dsimp only; (repeat' split) <;> simp
@[simp] theorem enterMuted_ctl_drain (s : State) : (enterMuted s).ctl.drain = s.ctl.drain := by
  unfold enterMuted; dsimp only; (repeat' split) <;> simp
@[simp] theorem enterMuted_ctl_cause (s : State) : (enterMuted s).ctl.cause = s.ctl.cause := by
  unfold enterMuted; dsimp only; (repeat' split) <;> simp
@[simp] theorem enterMuted_ctl_listenDue (s : State) : (enterMuted s).ctl.listenDue = s.ctl.listenDue := by
  unfold enterMuted; dsimp only; (repeat' split) <;> simp
@[simp] theorem enterMuted_ctl_items (s : State) : (enterMuted s).ctl.items = s.ctl.items := by
  unfold enterMuted; dsimp only; (repeat' split) <;> simp
@[simp] theorem enterMuted_alerts_mask (s : State) : (enterMuted s).alerts.mask = s.alerts.mask := by
  unfold enterMuted; dsimp only; (repeat' split) <;> simp
@[simp] theorem enterMuted_alerts_master (s : State) : (enterMuted s).alerts.master = s.alerts.master := by
  unfold enterMuted; dsimp only; (repeat' split) <;> simp
@[simp] theorem enterMuted_work_units (s : State) : (enterMuted s).work.units = s.work.units := by
  unfold enterMuted; dsimp only; (repeat' split) <;> simp
@[simp] theorem enterMuted_work_status (s : State) : (enterMuted s).work.status = s.work.status := by
  unfold enterMuted; dsimp only; (repeat' split) <;> simp
@[simp] theorem enterMuted_freeDraws (s : State) : (enterMuted s).freeDraws = s.freeDraws := by
  unfold enterMuted; dsimp only; (repeat' split) <;> simp
@[simp] theorem enterMuted_pending (s : State) : (enterMuted s).pending = s.pending := by
  unfold enterMuted; dsimp only; (repeat' split) <;> simp
@[simp] theorem enterFault_now (r : FaultReason) (s : State) : (enterFault r s).now = s.now := by simp [enterFault]
@[simp] theorem enterFault_resetHeld (r : FaultReason) (s : State) : (enterFault r s).resetHeld = s.resetHeld := by simp [enterFault]
@[simp] theorem enterFault_idx_count (r : FaultReason) (s : State) : (enterFault r s).idx.count = s.idx.count := by simp [enterFault]
@[simp] theorem enterFault_idx_lastIndex (r : FaultReason) (s : State) : (enterFault r s).idx.lastIndex = s.idx.lastIndex := by simp [enterFault]
@[simp] theorem enterFault_idx_retireLimit (r : FaultReason) (s : State) : (enterFault r s).idx.retireLimit = s.idx.retireLimit := by simp [enterFault]
@[simp] theorem enterFault_idx_currentPage (r : FaultReason) (s : State) : (enterFault r s).idx.currentPage = s.idx.currentPage := by simp [enterFault]
@[simp] theorem enterFault_table (r : FaultReason) (s : State) : (enterFault r s).table = s.table := by simp [enterFault]
@[simp] theorem enterFault_eng_recentPage (r : FaultReason) (s : State) : (enterFault r s).eng.recentPage = s.eng.recentPage := by simp [enterFault]
@[simp] theorem enterFault_drift (r : FaultReason) (s : State) : (enterFault r s).drift = s.drift := by simp [enterFault]
@[simp] theorem enterFault_pages (r : FaultReason) (s : State) : (enterFault r s).pages = s.pages := by simp [enterFault]
@[simp] theorem enterFault_gates_binTallies (r : FaultReason) (s : State) : (enterFault r s).gates.binTallies = s.gates.binTallies := by simp [enterFault]
@[simp] theorem enterFault_gates_reasonTallies (r : FaultReason) (s : State) : (enterFault r s).gates.reasonTallies = s.gates.reasonTallies := by simp [enterFault]
@[simp] theorem enterFault_link_lineIdle (r : FaultReason) (s : State) : (enterFault r s).link.lineIdle = s.link.lineIdle := by simp [enterFault]
@[simp] theorem enterFault_link_quietSince (r : FaultReason) (s : State) : (enterFault r s).link.quietSince = s.link.quietSince := by simp [enterFault]
@[simp] theorem enterFault_link_deferral (r : FaultReason) (s : State) : (enterFault r s).link.deferral = s.link.deferral := by simp [enterFault]
@[simp] theorem enterFault_link_lastSender (r : FaultReason) (s : State) : (enterFault r s).link.lastSender = s.link.lastSender := by simp [enterFault]
@[simp] theorem enterFault_peers (r : FaultReason) (s : State) : (enterFault r s).peers = s.peers := by simp [enterFault]
@[simp] theorem enterFault_ctl_node (r : FaultReason) (s : State) : (enterFault r s).ctl.node = s.ctl.node := by simp [enterFault]
@[simp] theorem enterFault_ctl_role (r : FaultReason) (s : State) : (enterFault r s).ctl.role = s.ctl.role := by simp [enterFault]
@[simp] theorem enterFault_ctl_drain (r : FaultReason) (s : State) : (enterFault r s).ctl.drain = s.ctl.drain := by simp [enterFault]
@[simp] theorem enterFault_ctl_activity (r : FaultReason) (s : State) : (enterFault r s).ctl.activity = s.ctl.activity := by simp [enterFault]
@[simp] theorem enterFault_ctl_cause (r : FaultReason) (s : State) : (enterFault r s).ctl.cause = s.ctl.cause := by simp [enterFault]
@[simp] theorem enterFault_ctl_items (r : FaultReason) (s : State) : (enterFault r s).ctl.items = s.ctl.items := by simp [enterFault]
@[simp] theorem enterFault_alerts_mask (r : FaultReason) (s : State) : (enterFault r s).alerts.mask = s.alerts.mask := by simp [enterFault]
@[simp] theorem enterFault_alerts_master (r : FaultReason) (s : State) : (enterFault r s).alerts.master = s.alerts.master := by simp [enterFault]
@[simp] theorem enterFault_freeDraws (r : FaultReason) (s : State) : (enterFault r s).freeDraws = s.freeDraws := by simp [enterFault]
@[simp] theorem enterFault_pending (r : FaultReason) (s : State) : (enterFault r s).pending = s.pending := by simp [enterFault]
@[simp] theorem duplicateReport_now (s : State) : (duplicateReport s).now = s.now := by
  unfold duplicateReport; split <;> simp
@[simp] theorem duplicateReport_resetHeld (s : State) : (duplicateReport s).resetHeld = s.resetHeld := by
  unfold duplicateReport; split <;> simp
@[simp] theorem duplicateReport_idx_count (s : State) : (duplicateReport s).idx.count = s.idx.count := by
  unfold duplicateReport; split <;> simp
@[simp] theorem duplicateReport_idx_lastIndex (s : State) : (duplicateReport s).idx.lastIndex = s.idx.lastIndex := by
  unfold duplicateReport; split <;> simp
@[simp] theorem duplicateReport_idx_retireLimit (s : State) : (duplicateReport s).idx.retireLimit = s.idx.retireLimit := by
  unfold duplicateReport; split <;> simp
@[simp] theorem duplicateReport_idx_currentPage (s : State) : (duplicateReport s).idx.currentPage = s.idx.currentPage := by
  unfold duplicateReport; split <;> simp
@[simp] theorem duplicateReport_table (s : State) : (duplicateReport s).table = s.table := by
  unfold duplicateReport; split <;> simp
@[simp] theorem duplicateReport_eng_recentPage (s : State) : (duplicateReport s).eng.recentPage = s.eng.recentPage := by
  unfold duplicateReport; split <;> simp
@[simp] theorem duplicateReport_drift (s : State) : (duplicateReport s).drift = s.drift := by
  unfold duplicateReport; split <;> simp
@[simp] theorem duplicateReport_pages (s : State) : (duplicateReport s).pages = s.pages := by
  unfold duplicateReport; split <;> simp
@[simp] theorem duplicateReport_gates_binTallies (s : State) : (duplicateReport s).gates.binTallies = s.gates.binTallies := by
  unfold duplicateReport; split <;> simp
@[simp] theorem duplicateReport_gates_reasonTallies (s : State) : (duplicateReport s).gates.reasonTallies = s.gates.reasonTallies := by
  unfold duplicateReport; split <;> simp
@[simp] theorem duplicateReport_link_lineIdle (s : State) : (duplicateReport s).link.lineIdle = s.link.lineIdle := by
  unfold duplicateReport; split <;> simp
@[simp] theorem duplicateReport_link_quietSince (s : State) : (duplicateReport s).link.quietSince = s.link.quietSince := by
  unfold duplicateReport; split <;> simp
@[simp] theorem duplicateReport_link_deferral (s : State) : (duplicateReport s).link.deferral = s.link.deferral := by
  unfold duplicateReport; split <;> simp
@[simp] theorem duplicateReport_link_lastSender (s : State) : (duplicateReport s).link.lastSender = s.link.lastSender := by
  unfold duplicateReport; split <;> simp
@[simp] theorem duplicateReport_peers (s : State) : (duplicateReport s).peers = s.peers := by
  unfold duplicateReport; split <;> simp
@[simp] theorem duplicateReport_ctl_node (s : State) : (duplicateReport s).ctl.node = s.ctl.node := by
  unfold duplicateReport; split <;> simp
@[simp] theorem duplicateReport_ctl_role (s : State) : (duplicateReport s).ctl.role = s.ctl.role := by
  unfold duplicateReport; split <;> simp
@[simp] theorem duplicateReport_ctl_drain (s : State) : (duplicateReport s).ctl.drain = s.ctl.drain := by
  unfold duplicateReport; split <;> simp
@[simp] theorem duplicateReport_ctl_activity (s : State) : (duplicateReport s).ctl.activity = s.ctl.activity := by
  unfold duplicateReport; split <;> simp
@[simp] theorem duplicateReport_ctl_cause (s : State) : (duplicateReport s).ctl.cause = s.ctl.cause := by
  unfold duplicateReport; split <;> simp
@[simp] theorem duplicateReport_ctl_items (s : State) : (duplicateReport s).ctl.items = s.ctl.items := by
  unfold duplicateReport; split <;> simp
@[simp] theorem duplicateReport_alerts_mask (s : State) : (duplicateReport s).alerts.mask = s.alerts.mask := by
  unfold duplicateReport; split <;> simp
@[simp] theorem duplicateReport_alerts_master (s : State) : (duplicateReport s).alerts.master = s.alerts.master := by
  unfold duplicateReport; split <;> simp
@[simp] theorem duplicateReport_freeDraws (s : State) : (duplicateReport s).freeDraws = s.freeDraws := by
  unfold duplicateReport; split <;> simp
@[simp] theorem duplicateReport_pending (s : State) : (duplicateReport s).pending = s.pending := by
  unfold duplicateReport; split <;> simp
@[simp] theorem standbyTest_now (s : State) : (standbyTest s).now = s.now := by
  unfold standbyTest; (repeat' split) <;> simp_all
@[simp] theorem standbyTest_resetHeld (s : State) : (standbyTest s).resetHeld = s.resetHeld := by
  unfold standbyTest; (repeat' split) <;> simp_all
@[simp] theorem standbyTest_idx_count (s : State) : (standbyTest s).idx.count = s.idx.count := by
  unfold standbyTest; (repeat' split) <;> simp_all
@[simp] theorem standbyTest_idx_lastIndex (s : State) : (standbyTest s).idx.lastIndex = s.idx.lastIndex := by
  unfold standbyTest; (repeat' split) <;> simp_all
@[simp] theorem standbyTest_idx_retireLimit (s : State) : (standbyTest s).idx.retireLimit = s.idx.retireLimit := by
  unfold standbyTest; (repeat' split) <;> simp_all
@[simp] theorem standbyTest_idx_currentPage (s : State) : (standbyTest s).idx.currentPage = s.idx.currentPage := by
  unfold standbyTest; (repeat' split) <;> simp_all
@[simp] theorem standbyTest_idx_firingReq (s : State) : (standbyTest s).idx.firingReq = s.idx.firingReq := by
  unfold standbyTest; (repeat' split) <;> simp_all
@[simp] theorem standbyTest_table (s : State) : (standbyTest s).table = s.table := by
  unfold standbyTest; (repeat' split) <;> simp_all
@[simp] theorem standbyTest_eng_recentPage (s : State) : (standbyTest s).eng.recentPage = s.eng.recentPage := by
  unfold standbyTest; (repeat' split) <;> simp_all
@[simp] theorem standbyTest_drift (s : State) : (standbyTest s).drift = s.drift := by
  unfold standbyTest; (repeat' split) <;> simp_all
@[simp] theorem standbyTest_pages (s : State) : (standbyTest s).pages = s.pages := by
  unfold standbyTest; (repeat' split) <;> simp_all
@[simp] theorem standbyTest_gates (s : State) : (standbyTest s).gates = s.gates := by
  unfold standbyTest; (repeat' split) <;> simp_all
@[simp] theorem standbyTest_link_lineIdle (s : State) : (standbyTest s).link.lineIdle = s.link.lineIdle := by
  unfold standbyTest; (repeat' split) <;> simp_all
@[simp] theorem standbyTest_link_quietSince (s : State) : (standbyTest s).link.quietSince = s.link.quietSince := by
  unfold standbyTest; (repeat' split) <;> simp_all
@[simp] theorem standbyTest_link_deferral (s : State) : (standbyTest s).link.deferral = s.link.deferral := by
  unfold standbyTest; (repeat' split) <;> simp_all
@[simp] theorem standbyTest_link_lastSender (s : State) : (standbyTest s).link.lastSender = s.link.lastSender := by
  unfold standbyTest; (repeat' split) <;> simp_all
@[simp] theorem standbyTest_peers (s : State) : (standbyTest s).peers = s.peers := by
  unfold standbyTest; (repeat' split) <;> simp_all
@[simp] theorem standbyTest_ctl_node (s : State) : (standbyTest s).ctl.node = s.ctl.node := by
  unfold standbyTest; (repeat' split) <;> simp_all
@[simp] theorem standbyTest_ctl_role (s : State) : (standbyTest s).ctl.role = s.ctl.role := by
  unfold standbyTest; (repeat' split) <;> simp_all
@[simp] theorem standbyTest_ctl_run (s : State) : (standbyTest s).ctl.run = s.ctl.run := by
  unfold standbyTest; (repeat' split) <;> simp_all
@[simp] theorem standbyTest_ctl_faultReason (s : State) : (standbyTest s).ctl.faultReason = s.ctl.faultReason := by
  unfold standbyTest; (repeat' split) <;> simp_all
@[simp] theorem standbyTest_ctl_drain (s : State) : (standbyTest s).ctl.drain = s.ctl.drain := by
  unfold standbyTest; (repeat' split) <;> simp_all
@[simp] theorem standbyTest_ctl_cause (s : State) : (standbyTest s).ctl.cause = s.ctl.cause := by
  unfold standbyTest; (repeat' split) <;> simp_all
@[simp] theorem standbyTest_ctl_listenDue (s : State) : (standbyTest s).ctl.listenDue = s.ctl.listenDue := by
  unfold standbyTest; (repeat' split) <;> simp_all
@[simp] theorem standbyTest_ctl_items (s : State) : (standbyTest s).ctl.items = s.ctl.items := by
  unfold standbyTest; (repeat' split) <;> simp_all
@[simp] theorem standbyTest_alerts_mask (s : State) : (standbyTest s).alerts.mask = s.alerts.mask := by
  unfold standbyTest; (repeat' split) <;> simp_all
@[simp] theorem standbyTest_alerts_master (s : State) : (standbyTest s).alerts.master = s.alerts.master := by
  unfold standbyTest; (repeat' split) <;> simp_all
@[simp] theorem standbyTest_work_units (s : State) : (standbyTest s).work.units = s.work.units := by
  unfold standbyTest; (repeat' split) <;> simp_all
@[simp] theorem standbyTest_work_status (s : State) : (standbyTest s).work.status = s.work.status := by
  unfold standbyTest; (repeat' split) <;> simp_all
@[simp] theorem standbyTest_freeDraws (s : State) : (standbyTest s).freeDraws = s.freeDraws := by
  unfold standbyTest; (repeat' split) <;> simp_all
@[simp] theorem standbyTest_pending (s : State) : (standbyTest s).pending = s.pending := by
  unfold standbyTest; (repeat' split) <;> simp_all
@[simp] theorem moveCount_now (d : BitVec 16) (s : State) : (moveCount d s).now = s.now := by simp [moveCount]
@[simp] theorem moveCount_resetHeld (d : BitVec 16) (s : State) : (moveCount d s).resetHeld = s.resetHeld := by simp [moveCount]
@[simp] theorem moveCount_idx_lastIndex (d : BitVec 16) (s : State) : (moveCount d s).idx.lastIndex = s.idx.lastIndex := by simp [moveCount]
@[simp] theorem moveCount_idx_retireLimit (d : BitVec 16) (s : State) : (moveCount d s).idx.retireLimit = s.idx.retireLimit := by simp [moveCount]
@[simp] theorem moveCount_idx_currentPage (d : BitVec 16) (s : State) : (moveCount d s).idx.currentPage = s.idx.currentPage := by simp [moveCount]
@[simp] theorem moveCount_idx_measReq (d : BitVec 16) (s : State) : (moveCount d s).idx.measReq = s.idx.measReq := by simp [moveCount]
@[simp] theorem moveCount_idx_firingReq (d : BitVec 16) (s : State) : (moveCount d s).idx.firingReq = s.idx.firingReq := by simp [moveCount]
@[simp] theorem moveCount_table (d : BitVec 16) (s : State) : (moveCount d s).table = s.table := by simp [moveCount]
@[simp] theorem moveCount_eng (d : BitVec 16) (s : State) : (moveCount d s).eng = s.eng := by simp [moveCount]
@[simp] theorem moveCount_drift (d : BitVec 16) (s : State) : (moveCount d s).drift = s.drift := by simp [moveCount]
@[simp] theorem moveCount_pages (d : BitVec 16) (s : State) : (moveCount d s).pages = s.pages := by simp [moveCount]
@[simp] theorem moveCount_gates (d : BitVec 16) (s : State) : (moveCount d s).gates = s.gates := by simp [moveCount]
@[simp] theorem moveCount_link_queue (d : BitVec 16) (s : State) : (moveCount d s).link.queue = s.link.queue := by simp [moveCount]
@[simp] theorem moveCount_link_lineIdle (d : BitVec 16) (s : State) : (moveCount d s).link.lineIdle = s.link.lineIdle := by simp [moveCount]
@[simp] theorem moveCount_link_quietSince (d : BitVec 16) (s : State) : (moveCount d s).link.quietSince = s.link.quietSince := by simp [moveCount]
@[simp] theorem moveCount_link_deferral (d : BitVec 16) (s : State) : (moveCount d s).link.deferral = s.link.deferral := by simp [moveCount]
@[simp] theorem moveCount_link_lastSender (d : BitVec 16) (s : State) : (moveCount d s).link.lastSender = s.link.lastSender := by simp [moveCount]
@[simp] theorem moveCount_peers (d : BitVec 16) (s : State) : (moveCount d s).peers = s.peers := by simp [moveCount]
@[simp] theorem moveCount_ctl (d : BitVec 16) (s : State) : (moveCount d s).ctl = s.ctl := by simp [moveCount]
@[simp] theorem moveCount_alerts_mask (d : BitVec 16) (s : State) : (moveCount d s).alerts.mask = s.alerts.mask := by simp [moveCount]
@[simp] theorem moveCount_alerts_master (d : BitVec 16) (s : State) : (moveCount d s).alerts.master = s.alerts.master := by simp [moveCount]
@[simp] theorem moveCount_work_units (d : BitVec 16) (s : State) : (moveCount d s).work.units = s.work.units := by simp [moveCount]
@[simp] theorem moveCount_work_status (d : BitVec 16) (s : State) : (moveCount d s).work.status = s.work.status := by simp [moveCount]
@[simp] theorem moveCount_freeDraws (d : BitVec 16) (s : State) : (moveCount d s).freeDraws = s.freeDraws := by simp [moveCount]
@[simp] theorem moveCount_pending (d : BitVec 16) (s : State) : (moveCount d s).pending = s.pending := by simp [moveCount]
@[simp] theorem forgetOffsets_now (s : State) : (forgetOffsets s).now = s.now := by simp [forgetOffsets]
@[simp] theorem forgetOffsets_resetHeld (s : State) : (forgetOffsets s).resetHeld = s.resetHeld := by simp [forgetOffsets]
@[simp] theorem forgetOffsets_idx (s : State) : (forgetOffsets s).idx = s.idx := by simp [forgetOffsets]
@[simp] theorem forgetOffsets_table (s : State) : (forgetOffsets s).table = s.table := by simp [forgetOffsets]
@[simp] theorem forgetOffsets_eng (s : State) : (forgetOffsets s).eng = s.eng := by simp [forgetOffsets]
@[simp] theorem forgetOffsets_drift (s : State) : (forgetOffsets s).drift = s.drift := by simp [forgetOffsets]
@[simp] theorem forgetOffsets_pages (s : State) : (forgetOffsets s).pages = s.pages := by simp [forgetOffsets]
@[simp] theorem forgetOffsets_gates (s : State) : (forgetOffsets s).gates = s.gates := by simp [forgetOffsets]
@[simp] theorem forgetOffsets_link (s : State) : (forgetOffsets s).link = s.link := by simp [forgetOffsets]
@[simp] theorem forgetOffsets_ctl (s : State) : (forgetOffsets s).ctl = s.ctl := by simp [forgetOffsets]
@[simp] theorem forgetOffsets_alerts (s : State) : (forgetOffsets s).alerts = s.alerts := by simp [forgetOffsets]
@[simp] theorem forgetOffsets_work (s : State) : (forgetOffsets s).work = s.work := by simp [forgetOffsets]
@[simp] theorem forgetOffsets_freeDraws (s : State) : (forgetOffsets s).freeDraws = s.freeDraws := by simp [forgetOffsets]
@[simp] theorem forgetOffsets_pending (s : State) : (forgetOffsets s).pending = s.pending := by simp [forgetOffsets]
@[simp] theorem realignTable_now (s : State) : (realignTable s).now = s.now := by simp [realignTable]
@[simp] theorem realignTable_resetHeld (s : State) : (realignTable s).resetHeld = s.resetHeld := by simp [realignTable]
@[simp] theorem realignTable_idx (s : State) : (realignTable s).idx = s.idx := by simp [realignTable]
@[simp] theorem realignTable_eng (s : State) : (realignTable s).eng = s.eng := by simp [realignTable]
@[simp] theorem realignTable_drift (s : State) : (realignTable s).drift = s.drift := by simp [realignTable]
@[simp] theorem realignTable_pages (s : State) : (realignTable s).pages = s.pages := by simp [realignTable]
@[simp] theorem realignTable_gates_firings (s : State) : (realignTable s).gates.firings = s.gates.firings := by simp [realignTable]
@[simp] theorem realignTable_gates_drivers (s : State) : (realignTable s).gates.drivers = s.gates.drivers := by simp [realignTable]
@[simp] theorem realignTable_gates_binTallies (s : State) : (realignTable s).gates.binTallies = s.gates.binTallies := by simp [realignTable]
@[simp] theorem realignTable_link (s : State) : (realignTable s).link = s.link := by simp [realignTable]
@[simp] theorem realignTable_peers (s : State) : (realignTable s).peers = s.peers := by simp [realignTable]
@[simp] theorem realignTable_ctl (s : State) : (realignTable s).ctl = s.ctl := by simp [realignTable]
@[simp] theorem realignTable_alerts (s : State) : (realignTable s).alerts = s.alerts := by simp [realignTable]
@[simp] theorem realignTable_work_units (s : State) : (realignTable s).work.units = s.work.units := by simp [realignTable]
@[simp] theorem realignTable_work_status (s : State) : (realignTable s).work.status = s.work.status := by simp [realignTable]
@[simp] theorem realignTable_freeDraws (s : State) : (realignTable s).freeDraws = s.freeDraws := by simp [realignTable]
@[simp] theorem realignTable_pending (s : State) : (realignTable s).pending = s.pending := by simp [realignTable]
@[simp] theorem modifyRow_now (n : Fin 8) (f : PeerRow → PeerRow) (s : State) : (modifyRow n f s).now = s.now := by
  unfold modifyRow; split <;> simp
@[simp] theorem modifyRow_resetHeld (n : Fin 8) (f : PeerRow → PeerRow) (s : State) : (modifyRow n f s).resetHeld = s.resetHeld := by
  unfold modifyRow; split <;> simp
@[simp] theorem modifyRow_idx (n : Fin 8) (f : PeerRow → PeerRow) (s : State) : (modifyRow n f s).idx = s.idx := by
  unfold modifyRow; split <;> simp
@[simp] theorem modifyRow_table (n : Fin 8) (f : PeerRow → PeerRow) (s : State) : (modifyRow n f s).table = s.table := by
  unfold modifyRow; split <;> simp
@[simp] theorem modifyRow_eng (n : Fin 8) (f : PeerRow → PeerRow) (s : State) : (modifyRow n f s).eng = s.eng := by
  unfold modifyRow; split <;> simp
@[simp] theorem modifyRow_drift (n : Fin 8) (f : PeerRow → PeerRow) (s : State) : (modifyRow n f s).drift = s.drift := by
  unfold modifyRow; split <;> simp
@[simp] theorem modifyRow_pages (n : Fin 8) (f : PeerRow → PeerRow) (s : State) : (modifyRow n f s).pages = s.pages := by
  unfold modifyRow; split <;> simp
@[simp] theorem modifyRow_gates (n : Fin 8) (f : PeerRow → PeerRow) (s : State) : (modifyRow n f s).gates = s.gates := by
  unfold modifyRow; split <;> simp
@[simp] theorem modifyRow_link (n : Fin 8) (f : PeerRow → PeerRow) (s : State) : (modifyRow n f s).link = s.link := by
  unfold modifyRow; split <;> simp
@[simp] theorem modifyRow_ctl (n : Fin 8) (f : PeerRow → PeerRow) (s : State) : (modifyRow n f s).ctl = s.ctl := by
  unfold modifyRow; split <;> simp
@[simp] theorem modifyRow_alerts (n : Fin 8) (f : PeerRow → PeerRow) (s : State) : (modifyRow n f s).alerts = s.alerts := by
  unfold modifyRow; split <;> simp
@[simp] theorem modifyRow_work (n : Fin 8) (f : PeerRow → PeerRow) (s : State) : (modifyRow n f s).work = s.work := by
  unfold modifyRow; split <;> simp
@[simp] theorem modifyRow_freeDraws (n : Fin 8) (f : PeerRow → PeerRow) (s : State) : (modifyRow n f s).freeDraws = s.freeDraws := by
  unfold modifyRow; split <;> simp
@[simp] theorem modifyRow_pending (n : Fin 8) (f : PeerRow → PeerRow) (s : State) : (modifyRow n f s).pending = s.pending := by
  unfold modifyRow; split <;> simp
@[simp] theorem endFrame_now (sender : Option (BitVec 4)) (s : State) : (endFrame sender s).now = s.now := by simp [endFrame]
@[simp] theorem endFrame_resetHeld (sender : Option (BitVec 4)) (s : State) : (endFrame sender s).resetHeld = s.resetHeld := by simp [endFrame]
@[simp] theorem endFrame_idx (sender : Option (BitVec 4)) (s : State) : (endFrame sender s).idx = s.idx := by simp [endFrame]
@[simp] theorem endFrame_table (sender : Option (BitVec 4)) (s : State) : (endFrame sender s).table = s.table := by simp [endFrame]
@[simp] theorem endFrame_eng (sender : Option (BitVec 4)) (s : State) : (endFrame sender s).eng = s.eng := by simp [endFrame]
@[simp] theorem endFrame_drift (sender : Option (BitVec 4)) (s : State) : (endFrame sender s).drift = s.drift := by simp [endFrame]
@[simp] theorem endFrame_pages (sender : Option (BitVec 4)) (s : State) : (endFrame sender s).pages = s.pages := by simp [endFrame]
@[simp] theorem endFrame_gates (sender : Option (BitVec 4)) (s : State) : (endFrame sender s).gates = s.gates := by simp [endFrame]
@[simp] theorem endFrame_link_queue (sender : Option (BitVec 4)) (s : State) : (endFrame sender s).link.queue = s.link.queue := by simp [endFrame]
@[simp] theorem endFrame_link_tx (sender : Option (BitVec 4)) (s : State) : (endFrame sender s).link.tx = s.link.tx := by simp [endFrame]
@[simp] theorem endFrame_peers (sender : Option (BitVec 4)) (s : State) : (endFrame sender s).peers = s.peers := by simp [endFrame]
@[simp] theorem endFrame_ctl (sender : Option (BitVec 4)) (s : State) : (endFrame sender s).ctl = s.ctl := by simp [endFrame]
@[simp] theorem endFrame_alerts (sender : Option (BitVec 4)) (s : State) : (endFrame sender s).alerts = s.alerts := by simp [endFrame]
@[simp] theorem endFrame_work (sender : Option (BitVec 4)) (s : State) : (endFrame sender s).work = s.work := by simp [endFrame]
@[simp] theorem endFrame_freeDraws (sender : Option (BitVec 4)) (s : State) : (endFrame sender s).freeDraws = s.freeDraws := by simp [endFrame]
@[simp] theorem endFrame_pending (sender : Option (BitVec 4)) (s : State) : (endFrame sender s).pending = s.pending := by simp [endFrame]
theorem fromActiveSource_now (h : FrameHead) (content : Fin 8 → Role → State → State) (s : State) (hc : ∀ n r a, (content n r a).now = a.now) : (fromActiveSource h content s).now = s.now := by
  unfold fromActiveSource; (repeat' split) <;> simp_all
theorem fromActiveSource_resetHeld (h : FrameHead) (content : Fin 8 → Role → State → State) (s : State) (hc : ∀ n r a, (content n r a).resetHeld = a.resetHeld) : (fromActiveSource h content s).resetHeld = s.resetHeld := by
  unfold fromActiveSource; (repeat' split) <;> simp_all
theorem fromActiveSource_idx (h : FrameHead) (content : Fin 8 → Role → State → State) (s : State) (hc : ∀ n r a, (content n r a).idx = a.idx) : (fromActiveSource h content s).idx = s.idx := by
  unfold fromActiveSource; (repeat' split) <;> simp_all
theorem fromActiveSource_table (h : FrameHead) (content : Fin 8 → Role → State → State) (s : State) (hc : ∀ n r a, (content n r a).table = a.table) : (fromActiveSource h content s).table = s.table := by
  unfold fromActiveSource; (repeat' split) <;> simp_all
theorem fromActiveSource_eng (h : FrameHead) (content : Fin 8 → Role → State → State) (s : State) (hc : ∀ n r a, (content n r a).eng = a.eng) : (fromActiveSource h content s).eng = s.eng := by
  unfold fromActiveSource; (repeat' split) <;> simp_all
theorem fromActiveSource_drift (h : FrameHead) (content : Fin 8 → Role → State → State) (s : State) (hc : ∀ n r a, (content n r a).drift = a.drift) : (fromActiveSource h content s).drift = s.drift := by
  unfold fromActiveSource; (repeat' split) <;> simp_all
theorem fromActiveSource_pages (h : FrameHead) (content : Fin 8 → Role → State → State) (s : State) (hc : ∀ n r a, (content n r a).pages = a.pages) : (fromActiveSource h content s).pages = s.pages := by
  unfold fromActiveSource; (repeat' split) <;> simp_all
theorem fromActiveSource_gates (h : FrameHead) (content : Fin 8 → Role → State → State) (s : State) (hc : ∀ n r a, (content n r a).gates = a.gates) : (fromActiveSource h content s).gates = s.gates := by
  unfold fromActiveSource; (repeat' split) <;> simp_all
theorem fromActiveSource_link (h : FrameHead) (content : Fin 8 → Role → State → State) (s : State) (hc : ∀ n r a, (content n r a).link = a.link) : (fromActiveSource h content s).link = s.link := by
  unfold fromActiveSource; (repeat' split) <;> simp_all
theorem fromActiveSource_peers (h : FrameHead) (content : Fin 8 → Role → State → State) (s : State) (hc : ∀ n r a, (content n r a).peers = a.peers) : (fromActiveSource h content s).peers = s.peers := by
  unfold fromActiveSource; (repeat' split) <;> simp_all
theorem fromActiveSource_ctl (h : FrameHead) (content : Fin 8 → Role → State → State) (s : State) (hc : ∀ n r a, (content n r a).ctl = a.ctl) : (fromActiveSource h content s).ctl = s.ctl := by
  unfold fromActiveSource; (repeat' split) <;> simp_all
theorem fromActiveSource_alerts (h : FrameHead) (content : Fin 8 → Role → State → State) (s : State) (hc : ∀ n r a, (content n r a).alerts = a.alerts) : (fromActiveSource h content s).alerts = s.alerts := by
  unfold fromActiveSource; (repeat' split) <;> simp_all
theorem fromActiveSource_work (h : FrameHead) (content : Fin 8 → Role → State → State) (s : State) (hc : ∀ n r a, (content n r a).work = a.work) : (fromActiveSource h content s).work = s.work := by
  unfold fromActiveSource; (repeat' split) <;> simp_all
theorem fromActiveSource_freeDraws (h : FrameHead) (content : Fin 8 → Role → State → State) (s : State) (hc : ∀ n r a, (content n r a).freeDraws = a.freeDraws) : (fromActiveSource h content s).freeDraws = s.freeDraws := by
  unfold fromActiveSource; (repeat' split) <;> simp_all
theorem fromActiveSource_pending (h : FrameHead) (content : Fin 8 → Role → State → State) (s : State) (hc : ∀ n r a, (content n r a).pending = a.pending) : (fromActiveSource h content s).pending = s.pending := by
  unfold fromActiveSource; (repeat' split) <;> simp_all
@[simp] theorem reportLate_now (s : State) : (reportLate s).now = s.now := by simp [reportLate]
@[simp] theorem reportLate_resetHeld (s : State) : (reportLate s).resetHeld = s.resetHeld := by simp [reportLate]
@[simp] theorem reportLate_idx (s : State) : (reportLate s).idx = s.idx := by simp [reportLate]
@[simp] theorem reportLate_table (s : State) : (reportLate s).table = s.table := by simp [reportLate]
@[simp] theorem reportLate_eng (s : State) : (reportLate s).eng = s.eng := by simp [reportLate]
@[simp] theorem reportLate_drift (s : State) : (reportLate s).drift = s.drift := by simp [reportLate]
@[simp] theorem reportLate_pages (s : State) : (reportLate s).pages = s.pages := by simp [reportLate]
@[simp] theorem reportLate_gates (s : State) : (reportLate s).gates = s.gates := by simp [reportLate]
@[simp] theorem reportLate_link (s : State) : (reportLate s).link = s.link := by simp [reportLate]
@[simp] theorem reportLate_peers (s : State) : (reportLate s).peers = s.peers := by simp [reportLate]
@[simp] theorem reportLate_ctl (s : State) : (reportLate s).ctl = s.ctl := by simp [reportLate]
@[simp] theorem reportLate_alerts_mask (s : State) : (reportLate s).alerts.mask = s.alerts.mask := by simp [reportLate]
@[simp] theorem reportLate_alerts_master (s : State) : (reportLate s).alerts.master = s.alerts.master := by simp [reportLate]
@[simp] theorem reportLate_work_units (s : State) : (reportLate s).work.units = s.work.units := by simp [reportLate]
@[simp] theorem reportLate_work_status (s : State) : (reportLate s).work.status = s.work.status := by simp [reportLate]
@[simp] theorem reportLate_freeDraws (s : State) : (reportLate s).freeDraws = s.freeDraws := by simp [reportLate]
@[simp] theorem reportLate_pending (s : State) : (reportLate s).pending = s.pending := by simp [reportLate]
@[simp] theorem setPage_now (p : Fin 4) (x : Page) (s : State) : (setPage p x s).now = s.now := by simp [setPage]
@[simp] theorem setPage_resetHeld (p : Fin 4) (x : Page) (s : State) : (setPage p x s).resetHeld = s.resetHeld := by simp [setPage]
@[simp] theorem setPage_idx (p : Fin 4) (x : Page) (s : State) : (setPage p x s).idx = s.idx := by simp [setPage]
@[simp] theorem setPage_table (p : Fin 4) (x : Page) (s : State) : (setPage p x s).table = s.table := by simp [setPage]
@[simp] theorem setPage_eng (p : Fin 4) (x : Page) (s : State) : (setPage p x s).eng = s.eng := by simp [setPage]
@[simp] theorem setPage_drift (p : Fin 4) (x : Page) (s : State) : (setPage p x s).drift = s.drift := by simp [setPage]
@[simp] theorem setPage_gates (p : Fin 4) (x : Page) (s : State) : (setPage p x s).gates = s.gates := by simp [setPage]
@[simp] theorem setPage_link (p : Fin 4) (x : Page) (s : State) : (setPage p x s).link = s.link := by simp [setPage]
@[simp] theorem setPage_peers (p : Fin 4) (x : Page) (s : State) : (setPage p x s).peers = s.peers := by simp [setPage]
@[simp] theorem setPage_ctl (p : Fin 4) (x : Page) (s : State) : (setPage p x s).ctl = s.ctl := by simp [setPage]
@[simp] theorem setPage_alerts (p : Fin 4) (x : Page) (s : State) : (setPage p x s).alerts = s.alerts := by simp [setPage]
@[simp] theorem setPage_work (p : Fin 4) (x : Page) (s : State) : (setPage p x s).work = s.work := by simp [setPage]
@[simp] theorem setPage_freeDraws (p : Fin 4) (x : Page) (s : State) : (setPage p x s).freeDraws = s.freeDraws := by simp [setPage]
@[simp] theorem setPage_pending (p : Fin 4) (x : Page) (s : State) : (setPage p x s).pending = s.pending := by simp [setPage]
theorem recipeFrame_now (page : BitVec 4) (act : Fin 4 → State → State) (s : State) (hc : ∀ p a, (act p a).now = a.now) : (recipeFrame page act s).now = s.now := by
  unfold recipeFrame; (repeat' split) <;> simp_all
theorem recipeFrame_resetHeld (page : BitVec 4) (act : Fin 4 → State → State) (s : State) (hc : ∀ p a, (act p a).resetHeld = a.resetHeld) : (recipeFrame page act s).resetHeld = s.resetHeld := by
  unfold recipeFrame; (repeat' split) <;> simp_all
theorem recipeFrame_idx (page : BitVec 4) (act : Fin 4 → State → State) (s : State) (hc : ∀ p a, (act p a).idx = a.idx) : (recipeFrame page act s).idx = s.idx := by
  unfold recipeFrame; (repeat' split) <;> simp_all
theorem recipeFrame_table (page : BitVec 4) (act : Fin 4 → State → State) (s : State) (hc : ∀ p a, (act p a).table = a.table) : (recipeFrame page act s).table = s.table := by
  unfold recipeFrame; (repeat' split) <;> simp_all
theorem recipeFrame_eng (page : BitVec 4) (act : Fin 4 → State → State) (s : State) (hc : ∀ p a, (act p a).eng = a.eng) : (recipeFrame page act s).eng = s.eng := by
  unfold recipeFrame; (repeat' split) <;> simp_all
theorem recipeFrame_drift (page : BitVec 4) (act : Fin 4 → State → State) (s : State) (hc : ∀ p a, (act p a).drift = a.drift) : (recipeFrame page act s).drift = s.drift := by
  unfold recipeFrame; (repeat' split) <;> simp_all
theorem recipeFrame_pages (page : BitVec 4) (act : Fin 4 → State → State) (s : State) (hc : ∀ p a, (act p a).pages = a.pages) : (recipeFrame page act s).pages = s.pages := by
  unfold recipeFrame; (repeat' split) <;> simp_all
theorem recipeFrame_gates (page : BitVec 4) (act : Fin 4 → State → State) (s : State) (hc : ∀ p a, (act p a).gates = a.gates) : (recipeFrame page act s).gates = s.gates := by
  unfold recipeFrame; (repeat' split) <;> simp_all
theorem recipeFrame_link (page : BitVec 4) (act : Fin 4 → State → State) (s : State) (hc : ∀ p a, (act p a).link = a.link) : (recipeFrame page act s).link = s.link := by
  unfold recipeFrame; (repeat' split) <;> simp_all
theorem recipeFrame_peers (page : BitVec 4) (act : Fin 4 → State → State) (s : State) (hc : ∀ p a, (act p a).peers = a.peers) : (recipeFrame page act s).peers = s.peers := by
  unfold recipeFrame; (repeat' split) <;> simp_all
theorem recipeFrame_ctl (page : BitVec 4) (act : Fin 4 → State → State) (s : State) (hc : ∀ p a, (act p a).ctl = a.ctl) : (recipeFrame page act s).ctl = s.ctl := by
  unfold recipeFrame; (repeat' split) <;> simp_all
theorem recipeFrame_alerts_mask (page : BitVec 4) (act : Fin 4 → State → State) (s : State) (hc : ∀ p a, (act p a).alerts.mask = a.alerts.mask) : (recipeFrame page act s).alerts.mask = s.alerts.mask := by
  unfold recipeFrame; (repeat' split) <;> simp_all
theorem recipeFrame_alerts_master (page : BitVec 4) (act : Fin 4 → State → State) (s : State) (hc : ∀ p a, (act p a).alerts.master = a.alerts.master) : (recipeFrame page act s).alerts.master = s.alerts.master := by
  unfold recipeFrame; (repeat' split) <;> simp_all
theorem recipeFrame_work_units (page : BitVec 4) (act : Fin 4 → State → State) (s : State) (hc : ∀ p a, (act p a).work.units = a.work.units) : (recipeFrame page act s).work.units = s.work.units := by
  unfold recipeFrame; (repeat' split) <;> simp_all
theorem recipeFrame_work_status (page : BitVec 4) (act : Fin 4 → State → State) (s : State) (hc : ∀ p a, (act p a).work.status = a.work.status) : (recipeFrame page act s).work.status = s.work.status := by
  unfold recipeFrame; (repeat' split) <;> simp_all
theorem recipeFrame_freeDraws (page : BitVec 4) (act : Fin 4 → State → State) (s : State) (hc : ∀ p a, (act p a).freeDraws = a.freeDraws) : (recipeFrame page act s).freeDraws = s.freeDraws := by
  unfold recipeFrame; (repeat' split) <;> simp_all
theorem recipeFrame_pending (page : BitVec 4) (act : Fin 4 → State → State) (s : State) (hc : ∀ p a, (act p a).pending = a.pending) : (recipeFrame page act s).pending = s.pending := by
  unfold recipeFrame; (repeat' split) <;> simp_all
@[simp] theorem loadParameterPage_now (field : BitVec 12) (v : Dev) (p : Fin 4) (s : State) : (loadParameterPage field v p s).now = s.now := by
  unfold loadParameterPage; (repeat' split) <;> simp_all
@[simp] theorem loadParameterPage_resetHeld (field : BitVec 12) (v : Dev) (p : Fin 4) (s : State) : (loadParameterPage field v p s).resetHeld = s.resetHeld := by
  unfold loadParameterPage; (repeat' split) <;> simp_all
@[simp] theorem loadParameterPage_idx (field : BitVec 12) (v : Dev) (p : Fin 4) (s : State) : (loadParameterPage field v p s).idx = s.idx := by
  unfold loadParameterPage; (repeat' split) <;> simp_all
@[simp] theorem loadParameterPage_table (field : BitVec 12) (v : Dev) (p : Fin 4) (s : State) : (loadParameterPage field v p s).table = s.table := by
  unfold loadParameterPage; (repeat' split) <;> simp_all
@[simp] theorem loadParameterPage_eng (field : BitVec 12) (v : Dev) (p : Fin 4) (s : State) : (loadParameterPage field v p s).eng = s.eng := by
  unfold loadParameterPage; (repeat' split) <;> simp_all
@[simp] theorem loadParameterPage_drift (field : BitVec 12) (v : Dev) (p : Fin 4) (s : State) : (loadParameterPage field v p s).drift = s.drift := by
  unfold loadParameterPage; (repeat' split) <;> simp_all
@[simp] theorem loadParameterPage_gates (field : BitVec 12) (v : Dev) (p : Fin 4) (s : State) : (loadParameterPage field v p s).gates = s.gates := by
  unfold loadParameterPage; (repeat' split) <;> simp_all
@[simp] theorem loadParameterPage_link (field : BitVec 12) (v : Dev) (p : Fin 4) (s : State) : (loadParameterPage field v p s).link = s.link := by
  unfold loadParameterPage; (repeat' split) <;> simp_all
@[simp] theorem loadParameterPage_peers (field : BitVec 12) (v : Dev) (p : Fin 4) (s : State) : (loadParameterPage field v p s).peers = s.peers := by
  unfold loadParameterPage; (repeat' split) <;> simp_all
@[simp] theorem loadParameterPage_ctl (field : BitVec 12) (v : Dev) (p : Fin 4) (s : State) : (loadParameterPage field v p s).ctl = s.ctl := by
  unfold loadParameterPage; (repeat' split) <;> simp_all
@[simp] theorem loadParameterPage_alerts_mask (field : BitVec 12) (v : Dev) (p : Fin 4) (s : State) : (loadParameterPage field v p s).alerts.mask = s.alerts.mask := by
  unfold loadParameterPage; (repeat' split) <;> simp_all
@[simp] theorem loadParameterPage_alerts_master (field : BitVec 12) (v : Dev) (p : Fin 4) (s : State) : (loadParameterPage field v p s).alerts.master = s.alerts.master := by
  unfold loadParameterPage; (repeat' split) <;> simp_all
@[simp] theorem loadParameterPage_work_units (field : BitVec 12) (v : Dev) (p : Fin 4) (s : State) : (loadParameterPage field v p s).work.units = s.work.units := by
  unfold loadParameterPage; (repeat' split) <;> simp_all
@[simp] theorem loadParameterPage_work_status (field : BitVec 12) (v : Dev) (p : Fin 4) (s : State) : (loadParameterPage field v p s).work.status = s.work.status := by
  unfold loadParameterPage; (repeat' split) <;> simp_all
@[simp] theorem loadParameterPage_freeDraws (field : BitVec 12) (v : Dev) (p : Fin 4) (s : State) : (loadParameterPage field v p s).freeDraws = s.freeDraws := by
  unfold loadParameterPage; (repeat' split) <;> simp_all
@[simp] theorem loadParameterPage_pending (field : BitVec 12) (v : Dev) (p : Fin 4) (s : State) : (loadParameterPage field v p s).pending = s.pending := by
  unfold loadParameterPage; (repeat' split) <;> simp_all
@[simp] theorem loadBinPage_now (bin : BitVec 12) (lower upper : Dev) (gate : BitVec 12) (capacity : BitVec 16) (lo hi : Option Dev) (p : Fin 4) (s : State) : (loadBinPage bin lower upper gate capacity lo hi p s).now = s.now := by
  unfold loadBinPage; dsimp only; (repeat' split) <;> simp
@[simp] theorem loadBinPage_resetHeld (bin : BitVec 12) (lower upper : Dev) (gate : BitVec 12) (capacity : BitVec 16) (lo hi : Option Dev) (p : Fin 4) (s : State) : (loadBinPage bin lower upper gate capacity lo hi p s).resetHeld = s.resetHeld := by
  unfold loadBinPage; dsimp only; (repeat' split) <;> simp
@[simp] theorem loadBinPage_idx (bin : BitVec 12) (lower upper : Dev) (gate : BitVec 12) (capacity : BitVec 16) (lo hi : Option Dev) (p : Fin 4) (s : State) : (loadBinPage bin lower upper gate capacity lo hi p s).idx = s.idx := by
  unfold loadBinPage; dsimp only; (repeat' split) <;> simp
@[simp] theorem loadBinPage_table (bin : BitVec 12) (lower upper : Dev) (gate : BitVec 12) (capacity : BitVec 16) (lo hi : Option Dev) (p : Fin 4) (s : State) : (loadBinPage bin lower upper gate capacity lo hi p s).table = s.table := by
  unfold loadBinPage; dsimp only; (repeat' split) <;> simp
@[simp] theorem loadBinPage_eng (bin : BitVec 12) (lower upper : Dev) (gate : BitVec 12) (capacity : BitVec 16) (lo hi : Option Dev) (p : Fin 4) (s : State) : (loadBinPage bin lower upper gate capacity lo hi p s).eng = s.eng := by
  unfold loadBinPage; dsimp only; (repeat' split) <;> simp
@[simp] theorem loadBinPage_drift (bin : BitVec 12) (lower upper : Dev) (gate : BitVec 12) (capacity : BitVec 16) (lo hi : Option Dev) (p : Fin 4) (s : State) : (loadBinPage bin lower upper gate capacity lo hi p s).drift = s.drift := by
  unfold loadBinPage; dsimp only; (repeat' split) <;> simp
@[simp] theorem loadBinPage_gates (bin : BitVec 12) (lower upper : Dev) (gate : BitVec 12) (capacity : BitVec 16) (lo hi : Option Dev) (p : Fin 4) (s : State) : (loadBinPage bin lower upper gate capacity lo hi p s).gates = s.gates := by
  unfold loadBinPage; dsimp only; (repeat' split) <;> simp
@[simp] theorem loadBinPage_link (bin : BitVec 12) (lower upper : Dev) (gate : BitVec 12) (capacity : BitVec 16) (lo hi : Option Dev) (p : Fin 4) (s : State) : (loadBinPage bin lower upper gate capacity lo hi p s).link = s.link := by
  unfold loadBinPage; dsimp only; (repeat' split) <;> simp
@[simp] theorem loadBinPage_peers (bin : BitVec 12) (lower upper : Dev) (gate : BitVec 12) (capacity : BitVec 16) (lo hi : Option Dev) (p : Fin 4) (s : State) : (loadBinPage bin lower upper gate capacity lo hi p s).peers = s.peers := by
  unfold loadBinPage; dsimp only; (repeat' split) <;> simp
@[simp] theorem loadBinPage_ctl (bin : BitVec 12) (lower upper : Dev) (gate : BitVec 12) (capacity : BitVec 16) (lo hi : Option Dev) (p : Fin 4) (s : State) : (loadBinPage bin lower upper gate capacity lo hi p s).ctl = s.ctl := by
  unfold loadBinPage; dsimp only; (repeat' split) <;> simp
@[simp] theorem loadBinPage_alerts_mask (bin : BitVec 12) (lower upper : Dev) (gate : BitVec 12) (capacity : BitVec 16) (lo hi : Option Dev) (p : Fin 4) (s : State) : (loadBinPage bin lower upper gate capacity lo hi p s).alerts.mask = s.alerts.mask := by
  unfold loadBinPage; dsimp only; (repeat' split) <;> simp
@[simp] theorem loadBinPage_alerts_master (bin : BitVec 12) (lower upper : Dev) (gate : BitVec 12) (capacity : BitVec 16) (lo hi : Option Dev) (p : Fin 4) (s : State) : (loadBinPage bin lower upper gate capacity lo hi p s).alerts.master = s.alerts.master := by
  unfold loadBinPage; dsimp only; (repeat' split) <;> simp
@[simp] theorem loadBinPage_work_units (bin : BitVec 12) (lower upper : Dev) (gate : BitVec 12) (capacity : BitVec 16) (lo hi : Option Dev) (p : Fin 4) (s : State) : (loadBinPage bin lower upper gate capacity lo hi p s).work.units = s.work.units := by
  unfold loadBinPage; dsimp only; (repeat' split) <;> simp
@[simp] theorem loadBinPage_work_status (bin : BitVec 12) (lower upper : Dev) (gate : BitVec 12) (capacity : BitVec 16) (lo hi : Option Dev) (p : Fin 4) (s : State) : (loadBinPage bin lower upper gate capacity lo hi p s).work.status = s.work.status := by
  unfold loadBinPage; dsimp only; (repeat' split) <;> simp
@[simp] theorem loadBinPage_freeDraws (bin : BitVec 12) (lower upper : Dev) (gate : BitVec 12) (capacity : BitVec 16) (lo hi : Option Dev) (p : Fin 4) (s : State) : (loadBinPage bin lower upper gate capacity lo hi p s).freeDraws = s.freeDraws := by
  unfold loadBinPage; dsimp only; (repeat' split) <;> simp
@[simp] theorem loadBinPage_pending (bin : BitVec 12) (lower upper : Dev) (gate : BitVec 12) (capacity : BitVec 16) (lo hi : Option Dev) (p : Fin 4) (s : State) : (loadBinPage bin lower upper gate capacity lo hi p s).pending = s.pending := by
  unfold loadBinPage; dsimp only; (repeat' split) <;> simp
@[simp] theorem removeBinPage_now (bin : BitVec 12) (p : Fin 4) (s : State) : (removeBinPage bin p s).now = s.now := by
  unfold removeBinPage; dsimp only; (repeat' split) <;> simp
@[simp] theorem removeBinPage_resetHeld (bin : BitVec 12) (p : Fin 4) (s : State) : (removeBinPage bin p s).resetHeld = s.resetHeld := by
  unfold removeBinPage; dsimp only; (repeat' split) <;> simp
@[simp] theorem removeBinPage_idx (bin : BitVec 12) (p : Fin 4) (s : State) : (removeBinPage bin p s).idx = s.idx := by
  unfold removeBinPage; dsimp only; (repeat' split) <;> simp
@[simp] theorem removeBinPage_table (bin : BitVec 12) (p : Fin 4) (s : State) : (removeBinPage bin p s).table = s.table := by
  unfold removeBinPage; dsimp only; (repeat' split) <;> simp
@[simp] theorem removeBinPage_eng (bin : BitVec 12) (p : Fin 4) (s : State) : (removeBinPage bin p s).eng = s.eng := by
  unfold removeBinPage; dsimp only; (repeat' split) <;> simp
@[simp] theorem removeBinPage_drift (bin : BitVec 12) (p : Fin 4) (s : State) : (removeBinPage bin p s).drift = s.drift := by
  unfold removeBinPage; dsimp only; (repeat' split) <;> simp
@[simp] theorem removeBinPage_gates (bin : BitVec 12) (p : Fin 4) (s : State) : (removeBinPage bin p s).gates = s.gates := by
  unfold removeBinPage; dsimp only; (repeat' split) <;> simp
@[simp] theorem removeBinPage_link (bin : BitVec 12) (p : Fin 4) (s : State) : (removeBinPage bin p s).link = s.link := by
  unfold removeBinPage; dsimp only; (repeat' split) <;> simp
@[simp] theorem removeBinPage_peers (bin : BitVec 12) (p : Fin 4) (s : State) : (removeBinPage bin p s).peers = s.peers := by
  unfold removeBinPage; dsimp only; (repeat' split) <;> simp
@[simp] theorem removeBinPage_ctl (bin : BitVec 12) (p : Fin 4) (s : State) : (removeBinPage bin p s).ctl = s.ctl := by
  unfold removeBinPage; dsimp only; (repeat' split) <;> simp
@[simp] theorem removeBinPage_alerts_mask (bin : BitVec 12) (p : Fin 4) (s : State) : (removeBinPage bin p s).alerts.mask = s.alerts.mask := by
  unfold removeBinPage; dsimp only; (repeat' split) <;> simp
@[simp] theorem removeBinPage_alerts_master (bin : BitVec 12) (p : Fin 4) (s : State) : (removeBinPage bin p s).alerts.master = s.alerts.master := by
  unfold removeBinPage; dsimp only; (repeat' split) <;> simp
@[simp] theorem removeBinPage_work_units (bin : BitVec 12) (p : Fin 4) (s : State) : (removeBinPage bin p s).work.units = s.work.units := by
  unfold removeBinPage; dsimp only; (repeat' split) <;> simp
@[simp] theorem removeBinPage_work_status (bin : BitVec 12) (p : Fin 4) (s : State) : (removeBinPage bin p s).work.status = s.work.status := by
  unfold removeBinPage; dsimp only; (repeat' split) <;> simp
@[simp] theorem removeBinPage_freeDraws (bin : BitVec 12) (p : Fin 4) (s : State) : (removeBinPage bin p s).freeDraws = s.freeDraws := by
  unfold removeBinPage; dsimp only; (repeat' split) <;> simp
@[simp] theorem removeBinPage_pending (bin : BitVec 12) (p : Fin 4) (s : State) : (removeBinPage bin p s).pending = s.pending := by
  unfold removeBinPage; dsimp only; (repeat' split) <;> simp
@[simp] theorem lockPage_now (expected : BitVec 12) (p : Fin 4) (s : State) : (lockPage expected p s).now = s.now := by
  unfold lockPage; dsimp only; (repeat' split) <;> simp
@[simp] theorem lockPage_resetHeld (expected : BitVec 12) (p : Fin 4) (s : State) : (lockPage expected p s).resetHeld = s.resetHeld := by
  unfold lockPage; dsimp only; (repeat' split) <;> simp
@[simp] theorem lockPage_idx (expected : BitVec 12) (p : Fin 4) (s : State) : (lockPage expected p s).idx = s.idx := by
  unfold lockPage; dsimp only; (repeat' split) <;> simp
@[simp] theorem lockPage_table (expected : BitVec 12) (p : Fin 4) (s : State) : (lockPage expected p s).table = s.table := by
  unfold lockPage; dsimp only; (repeat' split) <;> simp
@[simp] theorem lockPage_eng (expected : BitVec 12) (p : Fin 4) (s : State) : (lockPage expected p s).eng = s.eng := by
  unfold lockPage; dsimp only; (repeat' split) <;> simp
@[simp] theorem lockPage_drift (expected : BitVec 12) (p : Fin 4) (s : State) : (lockPage expected p s).drift = s.drift := by
  unfold lockPage; dsimp only; (repeat' split) <;> simp
@[simp] theorem lockPage_gates (expected : BitVec 12) (p : Fin 4) (s : State) : (lockPage expected p s).gates = s.gates := by
  unfold lockPage; dsimp only; (repeat' split) <;> simp
@[simp] theorem lockPage_link (expected : BitVec 12) (p : Fin 4) (s : State) : (lockPage expected p s).link = s.link := by
  unfold lockPage; dsimp only; (repeat' split) <;> simp
@[simp] theorem lockPage_peers (expected : BitVec 12) (p : Fin 4) (s : State) : (lockPage expected p s).peers = s.peers := by
  unfold lockPage; dsimp only; (repeat' split) <;> simp
@[simp] theorem lockPage_ctl (expected : BitVec 12) (p : Fin 4) (s : State) : (lockPage expected p s).ctl = s.ctl := by
  unfold lockPage; dsimp only; (repeat' split) <;> simp
@[simp] theorem lockPage_alerts_mask (expected : BitVec 12) (p : Fin 4) (s : State) : (lockPage expected p s).alerts.mask = s.alerts.mask := by
  unfold lockPage; dsimp only; (repeat' split) <;> simp
@[simp] theorem lockPage_alerts_master (expected : BitVec 12) (p : Fin 4) (s : State) : (lockPage expected p s).alerts.master = s.alerts.master := by
  unfold lockPage; dsimp only; (repeat' split) <;> simp
@[simp] theorem lockPage_work_units (expected : BitVec 12) (p : Fin 4) (s : State) : (lockPage expected p s).work.units = s.work.units := by
  unfold lockPage; dsimp only; (repeat' split) <;> simp
@[simp] theorem lockPage_work_status (expected : BitVec 12) (p : Fin 4) (s : State) : (lockPage expected p s).work.status = s.work.status := by
  unfold lockPage; dsimp only; (repeat' split) <;> simp
@[simp] theorem lockPage_freeDraws (expected : BitVec 12) (p : Fin 4) (s : State) : (lockPage expected p s).freeDraws = s.freeDraws := by
  unfold lockPage; dsimp only; (repeat' split) <;> simp
@[simp] theorem lockPage_pending (expected : BitVec 12) (p : Fin 4) (s : State) : (lockPage expected p s).pending = s.pending := by
  unfold lockPage; dsimp only; (repeat' split) <;> simp
@[simp] theorem clearPageTallies_now (p : Fin 4) (s : State) : (clearPageTallies p s).now = s.now := by simp [clearPageTallies]
@[simp] theorem clearPageTallies_resetHeld (p : Fin 4) (s : State) : (clearPageTallies p s).resetHeld = s.resetHeld := by simp [clearPageTallies]
@[simp] theorem clearPageTallies_idx (p : Fin 4) (s : State) : (clearPageTallies p s).idx = s.idx := by simp [clearPageTallies]
@[simp] theorem clearPageTallies_table (p : Fin 4) (s : State) : (clearPageTallies p s).table = s.table := by simp [clearPageTallies]
@[simp] theorem clearPageTallies_eng (p : Fin 4) (s : State) : (clearPageTallies p s).eng = s.eng := by simp [clearPageTallies]
@[simp] theorem clearPageTallies_drift (p : Fin 4) (s : State) : (clearPageTallies p s).drift = s.drift := by simp [clearPageTallies]
@[simp] theorem clearPageTallies_pages (p : Fin 4) (s : State) : (clearPageTallies p s).pages = s.pages := by simp [clearPageTallies]
@[simp] theorem clearPageTallies_gates_firings (p : Fin 4) (s : State) : (clearPageTallies p s).gates.firings = s.gates.firings := by simp [clearPageTallies]
@[simp] theorem clearPageTallies_gates_drivers (p : Fin 4) (s : State) : (clearPageTallies p s).gates.drivers = s.gates.drivers := by simp [clearPageTallies]
@[simp] theorem clearPageTallies_gates_reasonTallies (p : Fin 4) (s : State) : (clearPageTallies p s).gates.reasonTallies = s.gates.reasonTallies := by simp [clearPageTallies]
@[simp] theorem clearPageTallies_link (p : Fin 4) (s : State) : (clearPageTallies p s).link = s.link := by simp [clearPageTallies]
@[simp] theorem clearPageTallies_peers (p : Fin 4) (s : State) : (clearPageTallies p s).peers = s.peers := by simp [clearPageTallies]
@[simp] theorem clearPageTallies_ctl (p : Fin 4) (s : State) : (clearPageTallies p s).ctl = s.ctl := by simp [clearPageTallies]
@[simp] theorem clearPageTallies_alerts_mask (p : Fin 4) (s : State) : (clearPageTallies p s).alerts.mask = s.alerts.mask := by simp [clearPageTallies]
@[simp] theorem clearPageTallies_alerts_master (p : Fin 4) (s : State) : (clearPageTallies p s).alerts.master = s.alerts.master := by simp [clearPageTallies]
@[simp] theorem clearPageTallies_work (p : Fin 4) (s : State) : (clearPageTallies p s).work = s.work := by simp [clearPageTallies]
@[simp] theorem clearPageTallies_freeDraws (p : Fin 4) (s : State) : (clearPageTallies p s).freeDraws = s.freeDraws := by simp [clearPageTallies]
@[simp] theorem clearPageTallies_pending (p : Fin 4) (s : State) : (clearPageTallies p s).pending = s.pending := by simp [clearPageTallies]
@[simp] theorem erasePage_now (p : Fin 4) (s : State) : (erasePage p s).now = s.now := by
  unfold erasePage; dsimp only; (repeat' split) <;> simp
@[simp] theorem erasePage_resetHeld (p : Fin 4) (s : State) : (erasePage p s).resetHeld = s.resetHeld := by
  unfold erasePage; dsimp only; (repeat' split) <;> simp
@[simp] theorem erasePage_idx (p : Fin 4) (s : State) : (erasePage p s).idx = s.idx := by
  unfold erasePage; dsimp only; (repeat' split) <;> simp
@[simp] theorem erasePage_table (p : Fin 4) (s : State) : (erasePage p s).table = s.table := by
  unfold erasePage; dsimp only; (repeat' split) <;> simp
@[simp] theorem erasePage_eng (p : Fin 4) (s : State) : (erasePage p s).eng = s.eng := by
  unfold erasePage; dsimp only; (repeat' split) <;> simp
@[simp] theorem erasePage_drift (p : Fin 4) (s : State) : (erasePage p s).drift = s.drift := by
  unfold erasePage; dsimp only; (repeat' split) <;> simp
@[simp] theorem erasePage_gates_firings (p : Fin 4) (s : State) : (erasePage p s).gates.firings = s.gates.firings := by
  unfold erasePage; dsimp only; (repeat' split) <;> simp
@[simp] theorem erasePage_gates_drivers (p : Fin 4) (s : State) : (erasePage p s).gates.drivers = s.gates.drivers := by
  unfold erasePage; dsimp only; (repeat' split) <;> simp
@[simp] theorem erasePage_gates_reasonTallies (p : Fin 4) (s : State) : (erasePage p s).gates.reasonTallies = s.gates.reasonTallies := by
  unfold erasePage; dsimp only; (repeat' split) <;> simp
@[simp] theorem erasePage_link (p : Fin 4) (s : State) : (erasePage p s).link = s.link := by
  unfold erasePage; dsimp only; (repeat' split) <;> simp
@[simp] theorem erasePage_peers (p : Fin 4) (s : State) : (erasePage p s).peers = s.peers := by
  unfold erasePage; dsimp only; (repeat' split) <;> simp
@[simp] theorem erasePage_ctl (p : Fin 4) (s : State) : (erasePage p s).ctl = s.ctl := by
  unfold erasePage; dsimp only; (repeat' split) <;> simp
@[simp] theorem erasePage_alerts_mask (p : Fin 4) (s : State) : (erasePage p s).alerts.mask = s.alerts.mask := by
  unfold erasePage; dsimp only; (repeat' split) <;> simp
@[simp] theorem erasePage_alerts_master (p : Fin 4) (s : State) : (erasePage p s).alerts.master = s.alerts.master := by
  unfold erasePage; dsimp only; (repeat' split) <;> simp
@[simp] theorem erasePage_work_units (p : Fin 4) (s : State) : (erasePage p s).work.units = s.work.units := by
  unfold erasePage; dsimp only; (repeat' split) <;> simp
@[simp] theorem erasePage_work_status (p : Fin 4) (s : State) : (erasePage p s).work.status = s.work.status := by
  unfold erasePage; dsimp only; (repeat' split) <;> simp
@[simp] theorem erasePage_freeDraws (p : Fin 4) (s : State) : (erasePage p s).freeDraws = s.freeDraws := by
  unfold erasePage; dsimp only; (repeat' split) <;> simp
@[simp] theorem erasePage_pending (p : Fin 4) (s : State) : (erasePage p s).pending = s.pending := by
  unfold erasePage; dsimp only; (repeat' split) <;> simp
@[simp] theorem realign_now (d : BitVec 16) (s : State) : (realign d s).now = s.now := by simp [realign]
@[simp] theorem realign_resetHeld (d : BitVec 16) (s : State) : (realign d s).resetHeld = s.resetHeld := by simp [realign]
@[simp] theorem realign_idx_lastIndex (d : BitVec 16) (s : State) : (realign d s).idx.lastIndex = s.idx.lastIndex := by simp [realign]
@[simp] theorem realign_idx_retireLimit (d : BitVec 16) (s : State) : (realign d s).idx.retireLimit = s.idx.retireLimit := by simp [realign]
@[simp] theorem realign_idx_currentPage (d : BitVec 16) (s : State) : (realign d s).idx.currentPage = s.idx.currentPage := by simp [realign]
@[simp] theorem realign_idx_firingReq (d : BitVec 16) (s : State) : (realign d s).idx.firingReq = s.idx.firingReq := by simp [realign]
@[simp] theorem realign_eng_recentPage (d : BitVec 16) (s : State) : (realign d s).eng.recentPage = s.eng.recentPage := by simp [realign]
@[simp] theorem realign_drift (d : BitVec 16) (s : State) : (realign d s).drift = s.drift := by simp [realign]
@[simp] theorem realign_pages (d : BitVec 16) (s : State) : (realign d s).pages = s.pages := by simp [realign]
@[simp] theorem realign_gates_drivers (d : BitVec 16) (s : State) : (realign d s).gates.drivers = s.gates.drivers := by simp [realign]
@[simp] theorem realign_gates_binTallies (d : BitVec 16) (s : State) : (realign d s).gates.binTallies = s.gates.binTallies := by simp [realign]
@[simp] theorem realign_link_lineIdle (d : BitVec 16) (s : State) : (realign d s).link.lineIdle = s.link.lineIdle := by simp [realign]
@[simp] theorem realign_link_quietSince (d : BitVec 16) (s : State) : (realign d s).link.quietSince = s.link.quietSince := by simp [realign]
@[simp] theorem realign_link_deferral (d : BitVec 16) (s : State) : (realign d s).link.deferral = s.link.deferral := by simp [realign]
@[simp] theorem realign_link_lastSender (d : BitVec 16) (s : State) : (realign d s).link.lastSender = s.link.lastSender := by simp [realign]
@[simp] theorem realign_ctl_node (d : BitVec 16) (s : State) : (realign d s).ctl.node = s.ctl.node := by simp [realign]
@[simp] theorem realign_ctl_role (d : BitVec 16) (s : State) : (realign d s).ctl.role = s.ctl.role := by simp [realign]
@[simp] theorem realign_ctl_faultReason (d : BitVec 16) (s : State) : (realign d s).ctl.faultReason = s.ctl.faultReason := by simp [realign]
@[simp] theorem realign_ctl_cause (d : BitVec 16) (s : State) : (realign d s).ctl.cause = s.ctl.cause := by simp [realign]
@[simp] theorem realign_ctl_listenDue (d : BitVec 16) (s : State) : (realign d s).ctl.listenDue = s.ctl.listenDue := by simp [realign]
@[simp] theorem realign_ctl_items (d : BitVec 16) (s : State) : (realign d s).ctl.items = s.ctl.items := by simp [realign]
@[simp] theorem realign_alerts_mask (d : BitVec 16) (s : State) : (realign d s).alerts.mask = s.alerts.mask := by simp [realign]
@[simp] theorem realign_alerts_master (d : BitVec 16) (s : State) : (realign d s).alerts.master = s.alerts.master := by simp [realign]
@[simp] theorem realign_work_status (d : BitVec 16) (s : State) : (realign d s).work.status = s.work.status := by simp [realign]
@[simp] theorem realign_freeDraws (d : BitVec 16) (s : State) : (realign d s).freeDraws = s.freeDraws := by simp [realign]
@[simp] theorem realign_pending (d : BitVec 16) (s : State) : (realign d s).pending = s.pending := by simp [realign]
@[simp] theorem realignTest_now (s : State) : (realignTest s).now = s.now := by
  unfold realignTest; split <;> simp
@[simp] theorem realignTest_resetHeld (s : State) : (realignTest s).resetHeld = s.resetHeld := by
  unfold realignTest; split <;> simp
@[simp] theorem realignTest_idx_lastIndex (s : State) : (realignTest s).idx.lastIndex = s.idx.lastIndex := by
  unfold realignTest; split <;> simp
@[simp] theorem realignTest_idx_retireLimit (s : State) : (realignTest s).idx.retireLimit = s.idx.retireLimit := by
  unfold realignTest; split <;> simp
@[simp] theorem realignTest_idx_currentPage (s : State) : (realignTest s).idx.currentPage = s.idx.currentPage := by
  unfold realignTest; split <;> simp
@[simp] theorem realignTest_idx_firingReq (s : State) : (realignTest s).idx.firingReq = s.idx.firingReq := by
  unfold realignTest; split <;> simp
@[simp] theorem realignTest_eng_recentPage (s : State) : (realignTest s).eng.recentPage = s.eng.recentPage := by
  unfold realignTest; split <;> simp
@[simp] theorem realignTest_drift (s : State) : (realignTest s).drift = s.drift := by
  unfold realignTest; split <;> simp
@[simp] theorem realignTest_pages (s : State) : (realignTest s).pages = s.pages := by
  unfold realignTest; split <;> simp
@[simp] theorem realignTest_gates_drivers (s : State) : (realignTest s).gates.drivers = s.gates.drivers := by
  unfold realignTest; split <;> simp
@[simp] theorem realignTest_gates_binTallies (s : State) : (realignTest s).gates.binTallies = s.gates.binTallies := by
  unfold realignTest; split <;> simp
@[simp] theorem realignTest_link_lineIdle (s : State) : (realignTest s).link.lineIdle = s.link.lineIdle := by
  unfold realignTest; split <;> simp
@[simp] theorem realignTest_link_quietSince (s : State) : (realignTest s).link.quietSince = s.link.quietSince := by
  unfold realignTest; split <;> simp
@[simp] theorem realignTest_link_deferral (s : State) : (realignTest s).link.deferral = s.link.deferral := by
  unfold realignTest; split <;> simp
@[simp] theorem realignTest_link_lastSender (s : State) : (realignTest s).link.lastSender = s.link.lastSender := by
  unfold realignTest; split <;> simp
@[simp] theorem realignTest_ctl_node (s : State) : (realignTest s).ctl.node = s.ctl.node := by
  unfold realignTest; split <;> simp
@[simp] theorem realignTest_ctl_role (s : State) : (realignTest s).ctl.role = s.ctl.role := by
  unfold realignTest; split <;> simp
@[simp] theorem realignTest_ctl_faultReason (s : State) : (realignTest s).ctl.faultReason = s.ctl.faultReason := by
  unfold realignTest; split <;> simp
@[simp] theorem realignTest_ctl_cause (s : State) : (realignTest s).ctl.cause = s.ctl.cause := by
  unfold realignTest; split <;> simp
@[simp] theorem realignTest_ctl_listenDue (s : State) : (realignTest s).ctl.listenDue = s.ctl.listenDue := by
  unfold realignTest; split <;> simp
@[simp] theorem realignTest_ctl_items (s : State) : (realignTest s).ctl.items = s.ctl.items := by
  unfold realignTest; split <;> simp
@[simp] theorem realignTest_alerts_mask (s : State) : (realignTest s).alerts.mask = s.alerts.mask := by
  unfold realignTest; split <;> simp
@[simp] theorem realignTest_alerts_master (s : State) : (realignTest s).alerts.master = s.alerts.master := by
  unfold realignTest; split <;> simp
@[simp] theorem realignTest_work_status (s : State) : (realignTest s).work.status = s.work.status := by
  unfold realignTest; split <;> simp
@[simp] theorem realignTest_freeDraws (s : State) : (realignTest s).freeDraws = s.freeDraws := by
  unfold realignTest; split <;> simp
@[simp] theorem realignTest_pending (s : State) : (realignTest s).pending = s.pending := by
  unfold realignTest; split <;> simp
@[simp] theorem peerTests_now (s : State) : (peerTests s).now = s.now := by simp [peerTests]
@[simp] theorem peerTests_resetHeld (s : State) : (peerTests s).resetHeld = s.resetHeld := by simp [peerTests]
@[simp] theorem peerTests_idx_lastIndex (s : State) : (peerTests s).idx.lastIndex = s.idx.lastIndex := by simp [peerTests]
@[simp] theorem peerTests_idx_retireLimit (s : State) : (peerTests s).idx.retireLimit = s.idx.retireLimit := by simp [peerTests]
@[simp] theorem peerTests_idx_currentPage (s : State) : (peerTests s).idx.currentPage = s.idx.currentPage := by simp [peerTests]
@[simp] theorem peerTests_idx_firingReq (s : State) : (peerTests s).idx.firingReq = s.idx.firingReq := by simp [peerTests]
@[simp] theorem peerTests_eng_recentPage (s : State) : (peerTests s).eng.recentPage = s.eng.recentPage := by simp [peerTests]
@[simp] theorem peerTests_drift (s : State) : (peerTests s).drift = s.drift := by simp [peerTests]
@[simp] theorem peerTests_pages (s : State) : (peerTests s).pages = s.pages := by simp [peerTests]
@[simp] theorem peerTests_gates_drivers (s : State) : (peerTests s).gates.drivers = s.gates.drivers := by simp [peerTests]
@[simp] theorem peerTests_gates_binTallies (s : State) : (peerTests s).gates.binTallies = s.gates.binTallies := by simp [peerTests]
@[simp] theorem peerTests_link_lineIdle (s : State) : (peerTests s).link.lineIdle = s.link.lineIdle := by simp [peerTests]
@[simp] theorem peerTests_link_quietSince (s : State) : (peerTests s).link.quietSince = s.link.quietSince := by simp [peerTests]
@[simp] theorem peerTests_link_deferral (s : State) : (peerTests s).link.deferral = s.link.deferral := by simp [peerTests]
@[simp] theorem peerTests_link_lastSender (s : State) : (peerTests s).link.lastSender = s.link.lastSender := by simp [peerTests]
@[simp] theorem peerTests_ctl_node (s : State) : (peerTests s).ctl.node = s.ctl.node := by simp [peerTests]
@[simp] theorem peerTests_ctl_role (s : State) : (peerTests s).ctl.role = s.ctl.role := by simp [peerTests]
@[simp] theorem peerTests_ctl_faultReason (s : State) : (peerTests s).ctl.faultReason = s.ctl.faultReason := by simp [peerTests]
@[simp] theorem peerTests_ctl_cause (s : State) : (peerTests s).ctl.cause = s.ctl.cause := by simp [peerTests]
@[simp] theorem peerTests_ctl_listenDue (s : State) : (peerTests s).ctl.listenDue = s.ctl.listenDue := by simp [peerTests]
@[simp] theorem peerTests_ctl_items (s : State) : (peerTests s).ctl.items = s.ctl.items := by simp [peerTests]
@[simp] theorem peerTests_alerts_mask (s : State) : (peerTests s).alerts.mask = s.alerts.mask := by simp [peerTests]
@[simp] theorem peerTests_alerts_master (s : State) : (peerTests s).alerts.master = s.alerts.master := by simp [peerTests]
@[simp] theorem peerTests_work_status (s : State) : (peerTests s).work.status = s.work.status := by simp [peerTests]
@[simp] theorem peerTests_freeDraws (s : State) : (peerTests s).freeDraws = s.freeDraws := by simp [peerTests]
@[simp] theorem peerTests_pending (s : State) : (peerTests s).pending = s.pending := by simp [peerTests]
@[simp] theorem hearStation_now (n : Fin 8) (h : FrameHead) (hail : Option HailBody) (m : Mark) (s : State) : (hearStation n h hail m s).now = s.now := by simp [hearStation]
@[simp] theorem hearStation_resetHeld (n : Fin 8) (h : FrameHead) (hail : Option HailBody) (m : Mark) (s : State) : (hearStation n h hail m s).resetHeld = s.resetHeld := by simp [hearStation]
@[simp] theorem hearStation_idx_lastIndex (n : Fin 8) (h : FrameHead) (hail : Option HailBody) (m : Mark) (s : State) : (hearStation n h hail m s).idx.lastIndex = s.idx.lastIndex := by simp [hearStation]
@[simp] theorem hearStation_idx_retireLimit (n : Fin 8) (h : FrameHead) (hail : Option HailBody) (m : Mark) (s : State) : (hearStation n h hail m s).idx.retireLimit = s.idx.retireLimit := by simp [hearStation]
@[simp] theorem hearStation_idx_currentPage (n : Fin 8) (h : FrameHead) (hail : Option HailBody) (m : Mark) (s : State) : (hearStation n h hail m s).idx.currentPage = s.idx.currentPage := by simp [hearStation]
@[simp] theorem hearStation_idx_firingReq (n : Fin 8) (h : FrameHead) (hail : Option HailBody) (m : Mark) (s : State) : (hearStation n h hail m s).idx.firingReq = s.idx.firingReq := by simp [hearStation]
@[simp] theorem hearStation_eng_recentPage (n : Fin 8) (h : FrameHead) (hail : Option HailBody) (m : Mark) (s : State) : (hearStation n h hail m s).eng.recentPage = s.eng.recentPage := by simp [hearStation]
@[simp] theorem hearStation_drift (n : Fin 8) (h : FrameHead) (hail : Option HailBody) (m : Mark) (s : State) : (hearStation n h hail m s).drift = s.drift := by simp [hearStation]
@[simp] theorem hearStation_pages (n : Fin 8) (h : FrameHead) (hail : Option HailBody) (m : Mark) (s : State) : (hearStation n h hail m s).pages = s.pages := by simp [hearStation]
@[simp] theorem hearStation_gates_drivers (n : Fin 8) (h : FrameHead) (hail : Option HailBody) (m : Mark) (s : State) : (hearStation n h hail m s).gates.drivers = s.gates.drivers := by simp [hearStation]
@[simp] theorem hearStation_gates_binTallies (n : Fin 8) (h : FrameHead) (hail : Option HailBody) (m : Mark) (s : State) : (hearStation n h hail m s).gates.binTallies = s.gates.binTallies := by simp [hearStation]
@[simp] theorem hearStation_link_lineIdle (n : Fin 8) (h : FrameHead) (hail : Option HailBody) (m : Mark) (s : State) : (hearStation n h hail m s).link.lineIdle = s.link.lineIdle := by simp [hearStation]
@[simp] theorem hearStation_link_quietSince (n : Fin 8) (h : FrameHead) (hail : Option HailBody) (m : Mark) (s : State) : (hearStation n h hail m s).link.quietSince = s.link.quietSince := by simp [hearStation]
@[simp] theorem hearStation_link_deferral (n : Fin 8) (h : FrameHead) (hail : Option HailBody) (m : Mark) (s : State) : (hearStation n h hail m s).link.deferral = s.link.deferral := by simp [hearStation]
@[simp] theorem hearStation_link_lastSender (n : Fin 8) (h : FrameHead) (hail : Option HailBody) (m : Mark) (s : State) : (hearStation n h hail m s).link.lastSender = s.link.lastSender := by simp [hearStation]
@[simp] theorem hearStation_ctl_node (n : Fin 8) (h : FrameHead) (hail : Option HailBody) (m : Mark) (s : State) : (hearStation n h hail m s).ctl.node = s.ctl.node := by simp [hearStation]
@[simp] theorem hearStation_ctl_role (n : Fin 8) (h : FrameHead) (hail : Option HailBody) (m : Mark) (s : State) : (hearStation n h hail m s).ctl.role = s.ctl.role := by simp [hearStation]
@[simp] theorem hearStation_ctl_faultReason (n : Fin 8) (h : FrameHead) (hail : Option HailBody) (m : Mark) (s : State) : (hearStation n h hail m s).ctl.faultReason = s.ctl.faultReason := by simp [hearStation]
@[simp] theorem hearStation_ctl_cause (n : Fin 8) (h : FrameHead) (hail : Option HailBody) (m : Mark) (s : State) : (hearStation n h hail m s).ctl.cause = s.ctl.cause := by simp [hearStation]
@[simp] theorem hearStation_ctl_listenDue (n : Fin 8) (h : FrameHead) (hail : Option HailBody) (m : Mark) (s : State) : (hearStation n h hail m s).ctl.listenDue = s.ctl.listenDue := by simp [hearStation]
@[simp] theorem hearStation_ctl_items (n : Fin 8) (h : FrameHead) (hail : Option HailBody) (m : Mark) (s : State) : (hearStation n h hail m s).ctl.items = s.ctl.items := by simp [hearStation]
@[simp] theorem hearStation_alerts_mask (n : Fin 8) (h : FrameHead) (hail : Option HailBody) (m : Mark) (s : State) : (hearStation n h hail m s).alerts.mask = s.alerts.mask := by simp [hearStation]
@[simp] theorem hearStation_alerts_master (n : Fin 8) (h : FrameHead) (hail : Option HailBody) (m : Mark) (s : State) : (hearStation n h hail m s).alerts.master = s.alerts.master := by simp [hearStation]
@[simp] theorem hearStation_work_status (n : Fin 8) (h : FrameHead) (hail : Option HailBody) (m : Mark) (s : State) : (hearStation n h hail m s).work.status = s.work.status := by simp [hearStation]
@[simp] theorem hearStation_freeDraws (n : Fin 8) (h : FrameHead) (hail : Option HailBody) (m : Mark) (s : State) : (hearStation n h hail m s).freeDraws = s.freeDraws := by simp [hearStation]
@[simp] theorem hearStation_pending (n : Fin 8) (h : FrameHead) (hail : Option HailBody) (m : Mark) (s : State) : (hearStation n h hail m s).pending = s.pending := by simp [hearStation]
theorem takeFrame_now (h : FrameHead) (hail : Option HailBody) (content : State → State) (s : State) (hc : ∀ a, (content a).now = a.now) : (takeFrame h hail content s).now = s.now := by
  unfold takeFrame actOnFrame; (repeat' split) <;> simp [hc]
theorem takeFrame_resetHeld (h : FrameHead) (hail : Option HailBody) (content : State → State) (s : State) (hc : ∀ a, (content a).resetHeld = a.resetHeld) : (takeFrame h hail content s).resetHeld = s.resetHeld := by
  unfold takeFrame actOnFrame; (repeat' split) <;> simp [hc]
theorem takeFrame_idx_lastIndex (h : FrameHead) (hail : Option HailBody) (content : State → State) (s : State) (hc : ∀ a, (content a).idx.lastIndex = a.idx.lastIndex) : (takeFrame h hail content s).idx.lastIndex = s.idx.lastIndex := by
  unfold takeFrame actOnFrame; (repeat' split) <;> simp [hc]
theorem takeFrame_idx_retireLimit (h : FrameHead) (hail : Option HailBody) (content : State → State) (s : State) (hc : ∀ a, (content a).idx.retireLimit = a.idx.retireLimit) : (takeFrame h hail content s).idx.retireLimit = s.idx.retireLimit := by
  unfold takeFrame actOnFrame; (repeat' split) <;> simp [hc]
theorem takeFrame_idx_currentPage (h : FrameHead) (hail : Option HailBody) (content : State → State) (s : State) (hc : ∀ a, (content a).idx.currentPage = a.idx.currentPage) : (takeFrame h hail content s).idx.currentPage = s.idx.currentPage := by
  unfold takeFrame actOnFrame; (repeat' split) <;> simp [hc]
theorem takeFrame_eng_recentPage (h : FrameHead) (hail : Option HailBody) (content : State → State) (s : State) (hc : ∀ a, (content a).eng.recentPage = a.eng.recentPage) : (takeFrame h hail content s).eng.recentPage = s.eng.recentPage := by
  unfold takeFrame actOnFrame; (repeat' split) <;> simp [hc]
theorem takeFrame_drift (h : FrameHead) (hail : Option HailBody) (content : State → State) (s : State) (hc : ∀ a, (content a).drift = a.drift) : (takeFrame h hail content s).drift = s.drift := by
  unfold takeFrame actOnFrame; (repeat' split) <;> simp [hc]
theorem takeFrame_pages (h : FrameHead) (hail : Option HailBody) (content : State → State) (s : State) (hc : ∀ a, (content a).pages = a.pages) : (takeFrame h hail content s).pages = s.pages := by
  unfold takeFrame actOnFrame; (repeat' split) <;> simp [hc]
theorem takeFrame_gates_binTallies (h : FrameHead) (hail : Option HailBody) (content : State → State) (s : State) (hc : ∀ a, (content a).gates.binTallies = a.gates.binTallies) : (takeFrame h hail content s).gates.binTallies = s.gates.binTallies := by
  unfold takeFrame actOnFrame; (repeat' split) <;> simp [hc]
theorem takeFrame_ctl_node (h : FrameHead) (hail : Option HailBody) (content : State → State) (s : State) (hc : ∀ a, (content a).ctl.node = a.ctl.node) : (takeFrame h hail content s).ctl.node = s.ctl.node := by
  unfold takeFrame actOnFrame; (repeat' split) <;> simp [hc]
theorem takeFrame_ctl_role (h : FrameHead) (hail : Option HailBody) (content : State → State) (s : State) (hc : ∀ a, (content a).ctl.role = a.ctl.role) : (takeFrame h hail content s).ctl.role = s.ctl.role := by
  unfold takeFrame actOnFrame; (repeat' split) <;> simp [hc]
theorem takeFrame_ctl_cause (h : FrameHead) (hail : Option HailBody) (content : State → State) (s : State) (hc : ∀ a, (content a).ctl.cause = a.ctl.cause) : (takeFrame h hail content s).ctl.cause = s.ctl.cause := by
  unfold takeFrame actOnFrame; (repeat' split) <;> simp [hc]
theorem takeFrame_ctl_items (h : FrameHead) (hail : Option HailBody) (content : State → State) (s : State) (hc : ∀ a, (content a).ctl.items = a.ctl.items) : (takeFrame h hail content s).ctl.items = s.ctl.items := by
  unfold takeFrame actOnFrame; (repeat' split) <;> simp [hc]
theorem takeFrame_alerts_mask (h : FrameHead) (hail : Option HailBody) (content : State → State) (s : State) (hc : ∀ a, (content a).alerts.mask = a.alerts.mask) : (takeFrame h hail content s).alerts.mask = s.alerts.mask := by
  unfold takeFrame actOnFrame; (repeat' split) <;> simp [hc]
theorem takeFrame_alerts_master (h : FrameHead) (hail : Option HailBody) (content : State → State) (s : State) (hc : ∀ a, (content a).alerts.master = a.alerts.master) : (takeFrame h hail content s).alerts.master = s.alerts.master := by
  unfold takeFrame actOnFrame; (repeat' split) <;> simp [hc]
theorem takeFrame_freeDraws (h : FrameHead) (hail : Option HailBody) (content : State → State) (s : State) (hc : ∀ a, (content a).freeDraws = a.freeDraws) : (takeFrame h hail content s).freeDraws = s.freeDraws := by
  unfold takeFrame actOnFrame; (repeat' split) <;> simp [hc]
theorem takeFrame_pending (h : FrameHead) (hail : Option HailBody) (content : State → State) (s : State) (hc : ∀ a, (content a).pending = a.pending) : (takeFrame h hail content s).pending = s.pending := by
  unfold takeFrame actOnFrame; (repeat' split) <;> simp [hc]
@[simp] theorem reportAhead_now (n : Fin 8) (s : State) : (reportAhead n s).now = s.now := by simp [reportAhead]
@[simp] theorem reportAhead_resetHeld (n : Fin 8) (s : State) : (reportAhead n s).resetHeld = s.resetHeld := by simp [reportAhead]
@[simp] theorem reportAhead_idx_lastIndex (n : Fin 8) (s : State) : (reportAhead n s).idx.lastIndex = s.idx.lastIndex := by simp [reportAhead]
@[simp] theorem reportAhead_idx_retireLimit (n : Fin 8) (s : State) : (reportAhead n s).idx.retireLimit = s.idx.retireLimit := by simp [reportAhead]
@[simp] theorem reportAhead_idx_currentPage (n : Fin 8) (s : State) : (reportAhead n s).idx.currentPage = s.idx.currentPage := by simp [reportAhead]
@[simp] theorem reportAhead_idx_firingReq (n : Fin 8) (s : State) : (reportAhead n s).idx.firingReq = s.idx.firingReq := by simp [reportAhead]
@[simp] theorem reportAhead_eng_recentPage (n : Fin 8) (s : State) : (reportAhead n s).eng.recentPage = s.eng.recentPage := by simp [reportAhead]
@[simp] theorem reportAhead_drift (n : Fin 8) (s : State) : (reportAhead n s).drift = s.drift := by simp [reportAhead]
@[simp] theorem reportAhead_pages (n : Fin 8) (s : State) : (reportAhead n s).pages = s.pages := by simp [reportAhead]
@[simp] theorem reportAhead_gates_drivers (n : Fin 8) (s : State) : (reportAhead n s).gates.drivers = s.gates.drivers := by simp [reportAhead]
@[simp] theorem reportAhead_gates_binTallies (n : Fin 8) (s : State) : (reportAhead n s).gates.binTallies = s.gates.binTallies := by simp [reportAhead]
@[simp] theorem reportAhead_link_lineIdle (n : Fin 8) (s : State) : (reportAhead n s).link.lineIdle = s.link.lineIdle := by simp [reportAhead]
@[simp] theorem reportAhead_link_quietSince (n : Fin 8) (s : State) : (reportAhead n s).link.quietSince = s.link.quietSince := by simp [reportAhead]
@[simp] theorem reportAhead_link_deferral (n : Fin 8) (s : State) : (reportAhead n s).link.deferral = s.link.deferral := by simp [reportAhead]
@[simp] theorem reportAhead_link_lastSender (n : Fin 8) (s : State) : (reportAhead n s).link.lastSender = s.link.lastSender := by simp [reportAhead]
@[simp] theorem reportAhead_ctl_node (n : Fin 8) (s : State) : (reportAhead n s).ctl.node = s.ctl.node := by simp [reportAhead]
@[simp] theorem reportAhead_ctl_role (n : Fin 8) (s : State) : (reportAhead n s).ctl.role = s.ctl.role := by simp [reportAhead]
@[simp] theorem reportAhead_ctl_faultReason (n : Fin 8) (s : State) : (reportAhead n s).ctl.faultReason = s.ctl.faultReason := by simp [reportAhead]
@[simp] theorem reportAhead_ctl_cause (n : Fin 8) (s : State) : (reportAhead n s).ctl.cause = s.ctl.cause := by simp [reportAhead]
@[simp] theorem reportAhead_ctl_listenDue (n : Fin 8) (s : State) : (reportAhead n s).ctl.listenDue = s.ctl.listenDue := by simp [reportAhead]
@[simp] theorem reportAhead_ctl_items (n : Fin 8) (s : State) : (reportAhead n s).ctl.items = s.ctl.items := by simp [reportAhead]
@[simp] theorem reportAhead_alerts_mask (n : Fin 8) (s : State) : (reportAhead n s).alerts.mask = s.alerts.mask := by simp [reportAhead]
@[simp] theorem reportAhead_alerts_master (n : Fin 8) (s : State) : (reportAhead n s).alerts.master = s.alerts.master := by simp [reportAhead]
@[simp] theorem reportAhead_work_status (n : Fin 8) (s : State) : (reportAhead n s).work.status = s.work.status := by simp [reportAhead]
@[simp] theorem reportAhead_freeDraws (n : Fin 8) (s : State) : (reportAhead n s).freeDraws = s.freeDraws := by simp [reportAhead]
@[simp] theorem reportAhead_pending (n : Fin 8) (s : State) : (reportAhead n s).pending = s.pending := by simp [reportAhead]


















end Sys2Proof.Machine
end

