-- ==== Sys2Proof/Laws/KeepCommands.lean ====
section
/-! SUPPORT. What the commands' own effects leave as it was: one lemma for each operation and each block (or part of a block) that it does not touch. -/

-- One lemma after the other: elaborated side by side, the lemmas of one operation wait for its unfolding, each on a thread of its own.
set_option Elab.async false

namespace Sys2Proof.Machine

@[simp] theorem countEdge_now (s : State) : (countEdge s).now = s.now := by simp [countEdge]
@[simp] theorem countEdge_resetHeld (s : State) : (countEdge s).resetHeld = s.resetHeld := by simp [countEdge]
@[simp] theorem countEdge_idx_retireLimit (s : State) : (countEdge s).idx.retireLimit = s.idx.retireLimit := by simp [countEdge]
@[simp] theorem countEdge_idx_currentPage (s : State) : (countEdge s).idx.currentPage = s.idx.currentPage := by simp [countEdge]
@[simp] theorem countEdge_idx_measReq (s : State) : (countEdge s).idx.measReq = s.idx.measReq := by simp [countEdge]
@[simp] theorem countEdge_idx_firingReq (s : State) : (countEdge s).idx.firingReq = s.idx.firingReq := by simp [countEdge]
@[simp] theorem countEdge_table (s : State) : (countEdge s).table = s.table := by simp [countEdge]
@[simp] theorem countEdge_eng (s : State) : (countEdge s).eng = s.eng := by simp [countEdge]
@[simp] theorem countEdge_drift (s : State) : (countEdge s).drift = s.drift := by simp [countEdge]
@[simp] theorem countEdge_pages (s : State) : (countEdge s).pages = s.pages := by simp [countEdge]
@[simp] theorem countEdge_gates (s : State) : (countEdge s).gates = s.gates := by simp [countEdge]
@[simp] theorem countEdge_link (s : State) : (countEdge s).link = s.link := by simp [countEdge]
@[simp] theorem countEdge_peers (s : State) : (countEdge s).peers = s.peers := by simp [countEdge]
@[simp] theorem countEdge_ctl (s : State) : (countEdge s).ctl = s.ctl := by simp [countEdge]
@[simp] theorem countEdge_alerts (s : State) : (countEdge s).alerts = s.alerts := by simp [countEdge]
@[simp] theorem countEdge_work (s : State) : (countEdge s).work = s.work := by simp [countEdge]
@[simp] theorem countEdge_freeDraws (s : State) : (countEdge s).freeDraws = s.freeDraws := by simp [countEdge]
@[simp] theorem countEdge_pending (s : State) : (countEdge s).pending = s.pending := by simp [countEdge]
@[simp] theorem markEdge_now (s : State) : (markEdge s).now = s.now := by simp [markEdge]
@[simp] theorem markEdge_resetHeld (s : State) : (markEdge s).resetHeld = s.resetHeld := by simp [markEdge]
@[simp] theorem markEdge_idx (s : State) : (markEdge s).idx = s.idx := by simp [markEdge]
@[simp] theorem markEdge_table (s : State) : (markEdge s).table = s.table := by simp [markEdge]
@[simp] theorem markEdge_eng (s : State) : (markEdge s).eng = s.eng := by simp [markEdge]
@[simp] theorem markEdge_drift (s : State) : (markEdge s).drift = s.drift := by simp [markEdge]
@[simp] theorem markEdge_pages (s : State) : (markEdge s).pages = s.pages := by simp [markEdge]
@[simp] theorem markEdge_gates (s : State) : (markEdge s).gates = s.gates := by simp [markEdge]
@[simp] theorem markEdge_link_queue (s : State) : (markEdge s).link.queue = s.link.queue := by simp [markEdge]
@[simp] theorem markEdge_link_lineIdle (s : State) : (markEdge s).link.lineIdle = s.link.lineIdle := by simp [markEdge]
@[simp] theorem markEdge_link_quietSince (s : State) : (markEdge s).link.quietSince = s.link.quietSince := by simp [markEdge]
@[simp] theorem markEdge_link_deferral (s : State) : (markEdge s).link.deferral = s.link.deferral := by simp [markEdge]
@[simp] theorem markEdge_link_lastSender (s : State) : (markEdge s).link.lastSender = s.link.lastSender := by simp [markEdge]
@[simp] theorem markEdge_peers (s : State) : (markEdge s).peers = s.peers := by simp [markEdge]
@[simp] theorem markEdge_ctl (s : State) : (markEdge s).ctl = s.ctl := by simp [markEdge]
@[simp] theorem markEdge_alerts (s : State) : (markEdge s).alerts = s.alerts := by simp [markEdge]
@[simp] theorem markEdge_work (s : State) : (markEdge s).work = s.work := by simp [markEdge]
@[simp] theorem markEdge_freeDraws (s : State) : (markEdge s).freeDraws = s.freeDraws := by simp [markEdge]
@[simp] theorem markEdge_pending (s : State) : (markEdge s).pending = s.pending := by simp [markEdge]
@[simp] theorem samplePage_now (pins : BitVec 2) (s : State) : (samplePage pins s).now = s.now := by
  unfold samplePage; split <;> simp
@[simp] theorem samplePage_resetHeld (pins : BitVec 2) (s : State) : (samplePage pins s).resetHeld = s.resetHeld := by
  unfold samplePage; split <;> simp
@[simp] theorem samplePage_idx_count (pins : BitVec 2) (s : State) : (samplePage pins s).idx.count = s.idx.count := by
  unfold samplePage; split <;> simp
@[simp] theorem samplePage_idx_lastIndex (pins : BitVec 2) (s : State) : (samplePage pins s).idx.lastIndex = s.idx.lastIndex := by
  unfold samplePage; split <;> simp
@[simp] theorem samplePage_idx_retireLimit (pins : BitVec 2) (s : State) : (samplePage pins s).idx.retireLimit = s.idx.retireLimit := by
  unfold samplePage; split <;> simp
@[simp] theorem samplePage_idx_measReq (pins : BitVec 2) (s : State) : (samplePage pins s).idx.measReq = s.idx.measReq := by
  unfold samplePage; split <;> simp
@[simp] theorem samplePage_idx_firingReq (pins : BitVec 2) (s : State) : (samplePage pins s).idx.firingReq = s.idx.firingReq := by
  unfold samplePage; split <;> simp
@[simp] theorem samplePage_table (pins : BitVec 2) (s : State) : (samplePage pins s).table = s.table := by
  unfold samplePage; split <;> simp
@[simp] theorem samplePage_eng (pins : BitVec 2) (s : State) : (samplePage pins s).eng = s.eng := by
  unfold samplePage; split <;> simp
@[simp] theorem samplePage_drift (pins : BitVec 2) (s : State) : (samplePage pins s).drift = s.drift := by
  unfold samplePage; split <;> simp
@[simp] theorem samplePage_pages (pins : BitVec 2) (s : State) : (samplePage pins s).pages = s.pages := by
  unfold samplePage; split <;> simp
@[simp] theorem samplePage_gates (pins : BitVec 2) (s : State) : (samplePage pins s).gates = s.gates := by
  unfold samplePage; split <;> simp
@[simp] theorem samplePage_link (pins : BitVec 2) (s : State) : (samplePage pins s).link = s.link := by
  unfold samplePage; split <;> simp
@[simp] theorem samplePage_peers (pins : BitVec 2) (s : State) : (samplePage pins s).peers = s.peers := by
  unfold samplePage; split <;> simp
@[simp] theorem samplePage_ctl (pins : BitVec 2) (s : State) : (samplePage pins s).ctl = s.ctl := by
  unfold samplePage; split <;> simp
@[simp] theorem samplePage_alerts (pins : BitVec 2) (s : State) : (samplePage pins s).alerts = s.alerts := by
  unfold samplePage; split <;> simp
@[simp] theorem samplePage_work (pins : BitVec 2) (s : State) : (samplePage pins s).work = s.work := by
  unfold samplePage; split <;> simp
@[simp] theorem samplePage_freeDraws (pins : BitVec 2) (s : State) : (samplePage pins s).freeDraws = s.freeDraws := by
  unfold samplePage; split <;> simp
@[simp] theorem samplePage_pending (pins : BitVec 2) (s : State) : (samplePage pins s).pending = s.pending := by
  unfold samplePage; split <;> simp
@[simp] theorem ageQueue_now (s : State) : (ageQueue s).now = s.now := by simp [ageQueue]
@[simp] theorem ageQueue_resetHeld (s : State) : (ageQueue s).resetHeld = s.resetHeld := by simp [ageQueue]
@[simp] theorem ageQueue_idx (s : State) : (ageQueue s).idx = s.idx := by simp [ageQueue]
@[simp] theorem ageQueue_table (s : State) : (ageQueue s).table = s.table := by simp [ageQueue]
@[simp] theorem ageQueue_eng (s : State) : (ageQueue s).eng = s.eng := by simp [ageQueue]
@[simp] theorem ageQueue_drift (s : State) : (ageQueue s).drift = s.drift := by simp [ageQueue]
@[simp] theorem ageQueue_pages (s : State) : (ageQueue s).pages = s.pages := by simp [ageQueue]
@[simp] theorem ageQueue_gates (s : State) : (ageQueue s).gates = s.gates := by simp [ageQueue]
@[simp] theorem ageQueue_link_lineIdle (s : State) : (ageQueue s).link.lineIdle = s.link.lineIdle := by simp [ageQueue]
@[simp] theorem ageQueue_link_quietSince (s : State) : (ageQueue s).link.quietSince = s.link.quietSince := by simp [ageQueue]
@[simp] theorem ageQueue_link_deferral (s : State) : (ageQueue s).link.deferral = s.link.deferral := by simp [ageQueue]
@[simp] theorem ageQueue_link_lastSender (s : State) : (ageQueue s).link.lastSender = s.link.lastSender := by simp [ageQueue]
@[simp] theorem ageQueue_peers (s : State) : (ageQueue s).peers = s.peers := by simp [ageQueue]
@[simp] theorem ageQueue_ctl (s : State) : (ageQueue s).ctl = s.ctl := by simp [ageQueue]
@[simp] theorem ageQueue_alerts_mask (s : State) : (ageQueue s).alerts.mask = s.alerts.mask := by simp [ageQueue]
@[simp] theorem ageQueue_alerts_master (s : State) : (ageQueue s).alerts.master = s.alerts.master := by simp [ageQueue]
@[simp] theorem ageQueue_work_units (s : State) : (ageQueue s).work.units = s.work.units := by simp [ageQueue]
@[simp] theorem ageQueue_work_status (s : State) : (ageQueue s).work.status = s.work.status := by simp [ageQueue]
@[simp] theorem ageQueue_freeDraws (s : State) : (ageQueue s).freeDraws = s.freeDraws := by simp [ageQueue]
@[simp] theorem ageQueue_pending (s : State) : (ageQueue s).pending = s.pending := by simp [ageQueue]
@[simp] theorem ageStandards_now (s : State) : (ageStandards s).now = s.now := by
  unfold ageStandards; split <;> simp
@[simp] theorem ageStandards_resetHeld (s : State) : (ageStandards s).resetHeld = s.resetHeld := by
  unfold ageStandards; split <;> simp
@[simp] theorem ageStandards_idx (s : State) : (ageStandards s).idx = s.idx := by
  unfold ageStandards; split <;> simp
@[simp] theorem ageStandards_table (s : State) : (ageStandards s).table = s.table := by
  unfold ageStandards; split <;> simp
@[simp] theorem ageStandards_eng (s : State) : (ageStandards s).eng = s.eng := by
  unfold ageStandards; split <;> simp
@[simp] theorem ageStandards_pages (s : State) : (ageStandards s).pages = s.pages := by
  unfold ageStandards; split <;> simp
@[simp] theorem ageStandards_gates (s : State) : (ageStandards s).gates = s.gates := by
  unfold ageStandards; split <;> simp
@[simp] theorem ageStandards_link (s : State) : (ageStandards s).link = s.link := by
  unfold ageStandards; split <;> simp
@[simp] theorem ageStandards_peers (s : State) : (ageStandards s).peers = s.peers := by
  unfold ageStandards; split <;> simp
@[simp] theorem ageStandards_ctl (s : State) : (ageStandards s).ctl = s.ctl := by
  unfold ageStandards; split <;> simp
@[simp] theorem ageStandards_alerts (s : State) : (ageStandards s).alerts = s.alerts := by
  unfold ageStandards; split <;> simp
@[simp] theorem ageStandards_work (s : State) : (ageStandards s).work = s.work := by
  unfold ageStandards; split <;> simp
@[simp] theorem ageStandards_freeDraws (s : State) : (ageStandards s).freeDraws = s.freeDraws := by
  unfold ageStandards; split <;> simp
@[simp] theorem ageStandards_pending (s : State) : (ageStandards s).pending = s.pending := by
  unfold ageStandards; split <;> simp
@[simp] theorem abortRunning_now (s : State) : (abortRunning s).now = s.now := by simp [abortRunning]
@[simp] theorem abortRunning_resetHeld (s : State) : (abortRunning s).resetHeld = s.resetHeld := by simp [abortRunning]
@[simp] theorem abortRunning_idx_count (s : State) : (abortRunning s).idx.count = s.idx.count := by simp [abortRunning]
@[simp] theorem abortRunning_idx_lastIndex (s : State) : (abortRunning s).idx.lastIndex = s.idx.lastIndex := by simp [abortRunning]
@[simp] theorem abortRunning_idx_retireLimit (s : State) : (abortRunning s).idx.retireLimit = s.idx.retireLimit := by simp [abortRunning]
@[simp] theorem abortRunning_idx_currentPage (s : State) : (abortRunning s).idx.currentPage = s.idx.currentPage := by simp [abortRunning]
@[simp] theorem abortRunning_idx_firingReq (s : State) : (abortRunning s).idx.firingReq = s.idx.firingReq := by simp [abortRunning]
@[simp] theorem abortRunning_table_lastRemoved (s : State) : (abortRunning s).table.lastRemoved = s.table.lastRemoved := by simp [abortRunning]
@[simp] theorem abortRunning_eng_recentPage (s : State) : (abortRunning s).eng.recentPage = s.eng.recentPage := by simp [abortRunning]
@[simp] theorem abortRunning_eng_relays (s : State) : (abortRunning s).eng.relays = s.eng.relays := by simp [abortRunning]
@[simp] theorem abortRunning_eng_channels (s : State) : (abortRunning s).eng.channels = s.eng.channels := by simp [abortRunning]
@[simp] theorem abortRunning_drift (s : State) : (abortRunning s).drift = s.drift := by simp [abortRunning]
@[simp] theorem abortRunning_pages (s : State) : (abortRunning s).pages = s.pages := by simp [abortRunning]
@[simp] theorem abortRunning_gates (s : State) : (abortRunning s).gates = s.gates := by simp [abortRunning]
@[simp] theorem abortRunning_link (s : State) : (abortRunning s).link = s.link := by simp [abortRunning]
@[simp] theorem abortRunning_peers (s : State) : (abortRunning s).peers = s.peers := by simp [abortRunning]
@[simp] theorem abortRunning_ctl (s : State) : (abortRunning s).ctl = s.ctl := by simp [abortRunning]
@[simp] theorem abortRunning_alerts_mask (s : State) : (abortRunning s).alerts.mask = s.alerts.mask := by simp [abortRunning]
@[simp] theorem abortRunning_alerts_master (s : State) : (abortRunning s).alerts.master = s.alerts.master := by simp [abortRunning]
@[simp] theorem abortRunning_work_status (s : State) : (abortRunning s).work.status = s.work.status := by simp [abortRunning]
@[simp] theorem abortRunning_freeDraws (s : State) : (abortRunning s).freeDraws = s.freeDraws := by simp [abortRunning]
@[simp] theorem abortRunning_pending (s : State) : (abortRunning s).pending = s.pending := by simp [abortRunning]
@[simp] theorem retireEntries_now (s : State) : (retireEntries s).now = s.now := by
  unfold retireEntries; split <;> simp
@[simp] theorem retireEntries_resetHeld (s : State) : (retireEntries s).resetHeld = s.resetHeld := by
  unfold retireEntries; split <;> simp
@[simp] theorem retireEntries_idx (s : State) : (retireEntries s).idx = s.idx := by
  unfold retireEntries; split <;> simp
@[simp] theorem retireEntries_eng (s : State) : (retireEntries s).eng = s.eng := by
  unfold retireEntries; split <;> simp
@[simp] theorem retireEntries_drift (s : State) : (retireEntries s).drift = s.drift := by
  unfold retireEntries; split <;> simp
@[simp] theorem retireEntries_pages (s : State) : (retireEntries s).pages = s.pages := by
  unfold retireEntries; split <;> simp
@[simp] theorem retireEntries_gates_firings (s : State) : (retireEntries s).gates.firings = s.gates.firings := by
  unfold retireEntries; split <;> simp
@[simp] theorem retireEntries_gates_drivers (s : State) : (retireEntries s).gates.drivers = s.gates.drivers := by
  unfold retireEntries; split <;> simp
@[simp] theorem retireEntries_gates_binTallies (s : State) : (retireEntries s).gates.binTallies = s.gates.binTallies := by
  unfold retireEntries; split <;> simp
@[simp] theorem retireEntries_link (s : State) : (retireEntries s).link = s.link := by
  unfold retireEntries; split <;> simp
@[simp] theorem retireEntries_peers (s : State) : (retireEntries s).peers = s.peers := by
  unfold retireEntries; split <;> simp
@[simp] theorem retireEntries_ctl (s : State) : (retireEntries s).ctl = s.ctl := by
  unfold retireEntries; split <;> simp
@[simp] theorem retireEntries_alerts (s : State) : (retireEntries s).alerts = s.alerts := by
  unfold retireEntries; split <;> simp
@[simp] theorem retireEntries_work_units (s : State) : (retireEntries s).work.units = s.work.units := by
  unfold retireEntries; split <;> simp
@[simp] theorem retireEntries_work_status (s : State) : (retireEntries s).work.status = s.work.status := by
  unfold retireEntries; split <;> simp
@[simp] theorem retireEntries_freeDraws (s : State) : (retireEntries s).freeDraws = s.freeDraws := by
  unfold retireEntries; split <;> simp
@[simp] theorem retireEntries_pending (s : State) : (retireEntries s).pending = s.pending := by
  unfold retireEntries; split <;> simp
@[simp] theorem handleIndex_now (s : State) : (handleIndex s).now = s.now := by
  unfold handleIndex; split <;> simp
@[simp] theorem handleIndex_resetHeld (s : State) : (handleIndex s).resetHeld = s.resetHeld := by
  unfold handleIndex; split <;> simp
@[simp] theorem handleIndex_idx_count (s : State) : (handleIndex s).idx.count = s.idx.count := by
  unfold handleIndex; split <;> simp
@[simp] theorem handleIndex_idx_lastIndex (s : State) : (handleIndex s).idx.lastIndex = s.idx.lastIndex := by
  unfold handleIndex; split <;> simp
@[simp] theorem handleIndex_idx_retireLimit (s : State) : (handleIndex s).idx.retireLimit = s.idx.retireLimit := by
  unfold handleIndex; split <;> simp
@[simp] theorem handleIndex_idx_currentPage (s : State) : (handleIndex s).idx.currentPage = s.idx.currentPage := by
  unfold handleIndex; split <;> simp
@[simp] theorem handleIndex_drift (s : State) : (handleIndex s).drift = s.drift := by
  unfold handleIndex; split <;> simp
@[simp] theorem handleIndex_pages (s : State) : (handleIndex s).pages = s.pages := by
  unfold handleIndex; split <;> simp
@[simp] theorem handleIndex_link (s : State) : (handleIndex s).link = s.link := by
  unfold handleIndex; split <;> simp
@[simp] theorem handleIndex_peers (s : State) : (handleIndex s).peers = s.peers := by
  unfold handleIndex; split <;> simp
@[simp] theorem handleIndex_ctl (s : State) : (handleIndex s).ctl = s.ctl := by
  unfold handleIndex; split <;> simp
@[simp] theorem handleIndex_alerts_mask (s : State) : (handleIndex s).alerts.mask = s.alerts.mask := by
  unfold handleIndex; split <;> simp
@[simp] theorem handleIndex_alerts_master (s : State) : (handleIndex s).alerts.master = s.alerts.master := by
  unfold handleIndex; split <;> simp
@[simp] theorem handleIndex_work_status (s : State) : (handleIndex s).work.status = s.work.status := by
  unfold handleIndex; split <;> simp
@[simp] theorem handleIndex_freeDraws (s : State) : (handleIndex s).freeDraws = s.freeDraws := by
  unfold handleIndex; split <;> simp
@[simp] theorem handleIndex_pending (s : State) : (handleIndex s).pending = s.pending := by
  unfold handleIndex; split <;> simp
@[simp] theorem indexEffect_now (pins : BitVec 2) (s : State) : (indexEffect pins s).now = s.now := by simp [indexEffect]
@[simp] theorem indexEffect_resetHeld (pins : BitVec 2) (s : State) : (indexEffect pins s).resetHeld = s.resetHeld := by simp [indexEffect]
@[simp] theorem indexEffect_idx_retireLimit (pins : BitVec 2) (s : State) : (indexEffect pins s).idx.retireLimit = s.idx.retireLimit := by simp [indexEffect]
@[simp] theorem indexEffect_pages (pins : BitVec 2) (s : State) : (indexEffect pins s).pages = s.pages := by simp [indexEffect]
@[simp] theorem indexEffect_link_lineIdle (pins : BitVec 2) (s : State) : (indexEffect pins s).link.lineIdle = s.link.lineIdle := by simp [indexEffect]
@[simp] theorem indexEffect_link_quietSince (pins : BitVec 2) (s : State) : (indexEffect pins s).link.quietSince = s.link.quietSince := by simp [indexEffect]
@[simp] theorem indexEffect_link_deferral (pins : BitVec 2) (s : State) : (indexEffect pins s).link.deferral = s.link.deferral := by simp [indexEffect]
@[simp] theorem indexEffect_link_lastSender (pins : BitVec 2) (s : State) : (indexEffect pins s).link.lastSender = s.link.lastSender := by simp [indexEffect]
@[simp] theorem indexEffect_peers (pins : BitVec 2) (s : State) : (indexEffect pins s).peers = s.peers := by simp [indexEffect]
@[simp] theorem indexEffect_ctl (pins : BitVec 2) (s : State) : (indexEffect pins s).ctl = s.ctl := by simp [indexEffect]
@[simp] theorem indexEffect_alerts_mask (pins : BitVec 2) (s : State) : (indexEffect pins s).alerts.mask = s.alerts.mask := by simp [indexEffect]
@[simp] theorem indexEffect_alerts_master (pins : BitVec 2) (s : State) : (indexEffect pins s).alerts.master = s.alerts.master := by simp [indexEffect]
@[simp] theorem indexEffect_work_status (pins : BitVec 2) (s : State) : (indexEffect pins s).work.status = s.work.status := by simp [indexEffect]
@[simp] theorem indexEffect_freeDraws (pins : BitVec 2) (s : State) : (indexEffect pins s).freeDraws = s.freeDraws := by simp [indexEffect]
@[simp] theorem indexEffect_pending (pins : BitVec 2) (s : State) : (indexEffect pins s).pending = s.pending := by simp [indexEffect]
@[simp] theorem assertReset_now (s : State) : (assertReset s).now = s.now := by simp [assertReset]
@[simp] theorem assertReset_idx (s : State) : (assertReset s).idx = s.idx := by simp [assertReset]
@[simp] theorem assertReset_table (s : State) : (assertReset s).table = s.table := by simp [assertReset]
@[simp] theorem assertReset_eng (s : State) : (assertReset s).eng = s.eng := by simp [assertReset]
@[simp] theorem assertReset_drift (s : State) : (assertReset s).drift = s.drift := by simp [assertReset]
@[simp] theorem assertReset_pages (s : State) : (assertReset s).pages = s.pages := by simp [assertReset]
@[simp] theorem assertReset_gates (s : State) : (assertReset s).gates = s.gates := by simp [assertReset]
@[simp] theorem assertReset_link_queue (s : State) : (assertReset s).link.queue = s.link.queue := by simp [assertReset]
@[simp] theorem assertReset_link_lineIdle (s : State) : (assertReset s).link.lineIdle = s.link.lineIdle := by simp [assertReset]
@[simp] theorem assertReset_link_quietSince (s : State) : (assertReset s).link.quietSince = s.link.quietSince := by simp [assertReset]
@[simp] theorem assertReset_link_deferral (s : State) : (assertReset s).link.deferral = s.link.deferral := by simp [assertReset]
@[simp] theorem assertReset_link_lastSender (s : State) : (assertReset s).link.lastSender = s.link.lastSender := by simp [assertReset]
@[simp] theorem assertReset_peers (s : State) : (assertReset s).peers = s.peers := by simp [assertReset]
@[simp] theorem assertReset_ctl (s : State) : (assertReset s).ctl = s.ctl := by simp [assertReset]
@[simp] theorem assertReset_alerts (s : State) : (assertReset s).alerts = s.alerts := by simp [assertReset]
@[simp] theorem assertReset_work (s : State) : (assertReset s).work = s.work := by simp [assertReset]
@[simp] theorem assertReset_freeDraws (s : State) : (assertReset s).freeDraws = s.freeDraws := by simp [assertReset]
@[simp] theorem assertReset_pending (s : State) : (assertReset s).pending = s.pending := by simp [assertReset]
@[simp] theorem enterListen_now (s : State) : (enterListen s).now = s.now := by simp [enterListen]
@[simp] theorem enterListen_resetHeld (s : State) : (enterListen s).resetHeld = s.resetHeld := by simp [enterListen]
@[simp] theorem enterListen_idx (s : State) : (enterListen s).idx = s.idx := by simp [enterListen]
@[simp] theorem enterListen_table (s : State) : (enterListen s).table = s.table := by simp [enterListen]
@[simp] theorem enterListen_eng (s : State) : (enterListen s).eng = s.eng := by simp [enterListen]
@[simp] theorem enterListen_drift (s : State) : (enterListen s).drift = s.drift := by simp [enterListen]
@[simp] theorem enterListen_pages (s : State) : (enterListen s).pages = s.pages := by simp [enterListen]
@[simp] theorem enterListen_gates (s : State) : (enterListen s).gates = s.gates := by simp [enterListen]
@[simp] theorem enterListen_link (s : State) : (enterListen s).link = s.link := by simp [enterListen]
@[simp] theorem enterListen_peers (s : State) : (enterListen s).peers = s.peers := by simp [enterListen]
@[simp] theorem enterListen_ctl_node (s : State) : (enterListen s).ctl.node = s.ctl.node := by simp [enterListen]
@[simp] theorem enterListen_ctl_role (s : State) : (enterListen s).ctl.role = s.ctl.role := by simp [enterListen]
@[simp] theorem enterListen_ctl_faultReason (s : State) : (enterListen s).ctl.faultReason = s.ctl.faultReason := by simp [enterListen]
@[simp] theorem enterListen_ctl_drain (s : State) : (enterListen s).ctl.drain = s.ctl.drain := by simp [enterListen]
@[simp] theorem enterListen_ctl_activity (s : State) : (enterListen s).ctl.activity = s.ctl.activity := by simp [enterListen]
@[simp] theorem enterListen_ctl_cause (s : State) : (enterListen s).ctl.cause = s.ctl.cause := by simp [enterListen]
@[simp] theorem enterListen_ctl_items (s : State) : (enterListen s).ctl.items = s.ctl.items := by simp [enterListen]
@[simp] theorem enterListen_alerts (s : State) : (enterListen s).alerts = s.alerts := by simp [enterListen]
@[simp] theorem enterListen_work_units (s : State) : (enterListen s).work.units = s.work.units := by simp [enterListen]
@[simp] theorem enterListen_work_status (s : State) : (enterListen s).work.status = s.work.status := by simp [enterListen]
@[simp] theorem enterListen_freeDraws (s : State) : (enterListen s).freeDraws = s.freeDraws := by simp [enterListen]
@[simp] theorem enterListen_pending (s : State) : (enterListen s).pending = s.pending := by simp [enterListen]
@[simp] theorem clearAll_freeDraws (t : Instant) (cause : HardCause) (node role : BitVec 3) (page : BitVec 2) (s : State) : (clearAll t cause node role page s).freeDraws = s.freeDraws := by simp [clearAll]
@[simp] theorem clearAll_pending (t : Instant) (cause : HardCause) (node role : BitVec 3) (page : BitVec 2) (s : State) : (clearAll t cause node role page s).pending = s.pending := by simp [clearAll]
@[simp] theorem startUp_now (s : State) : (startUp s).now = s.now := by
  unfold startUp; split <;> simp
@[simp] theorem startUp_resetHeld (s : State) : (startUp s).resetHeld = s.resetHeld := by
  unfold startUp; split <;> simp
@[simp] theorem startUp_idx_count (s : State) : (startUp s).idx.count = s.idx.count := by
  unfold startUp; split <;> simp
@[simp] theorem startUp_idx_lastIndex (s : State) : (startUp s).idx.lastIndex = s.idx.lastIndex := by
  unfold startUp; split <;> simp
@[simp] theorem startUp_idx_retireLimit (s : State) : (startUp s).idx.retireLimit = s.idx.retireLimit := by
  unfold startUp; split <;> simp
@[simp] theorem startUp_idx_currentPage (s : State) : (startUp s).idx.currentPage = s.idx.currentPage := by
  unfold startUp; split <;> simp
@[simp] theorem startUp_table (s : State) : (startUp s).table = s.table := by
  unfold startUp; split <;> simp
@[simp] theorem startUp_eng_recentPage (s : State) : (startUp s).eng.recentPage = s.eng.recentPage := by
  unfold startUp; split <;> simp
@[simp] theorem startUp_drift (s : State) : (startUp s).drift = s.drift := by
  unfold startUp; split <;> simp
@[simp] theorem startUp_pages (s : State) : (startUp s).pages = s.pages := by
  unfold startUp; split <;> simp
@[simp] theorem startUp_gates_binTallies (s : State) : (startUp s).gates.binTallies = s.gates.binTallies := by
  unfold startUp; split <;> simp
@[simp] theorem startUp_gates_reasonTallies (s : State) : (startUp s).gates.reasonTallies = s.gates.reasonTallies := by
  unfold startUp; split <;> simp
@[simp] theorem startUp_link_lineIdle (s : State) : (startUp s).link.lineIdle = s.link.lineIdle := by
  unfold startUp; split <;> simp
@[simp] theorem startUp_link_quietSince (s : State) : (startUp s).link.quietSince = s.link.quietSince := by
  unfold startUp; split <;> simp
@[simp] theorem startUp_link_deferral (s : State) : (startUp s).link.deferral = s.link.deferral := by
  unfold startUp; split <;> simp
@[simp] theorem startUp_link_lastSender (s : State) : (startUp s).link.lastSender = s.link.lastSender := by
  unfold startUp; split <;> simp
@[simp] theorem startUp_peers (s : State) : (startUp s).peers = s.peers := by
  unfold startUp; split <;> simp
@[simp] theorem startUp_ctl_node (s : State) : (startUp s).ctl.node = s.ctl.node := by
  unfold startUp; split <;> simp
@[simp] theorem startUp_ctl_role (s : State) : (startUp s).ctl.role = s.ctl.role := by
  unfold startUp; split <;> simp
@[simp] theorem startUp_ctl_drain (s : State) : (startUp s).ctl.drain = s.ctl.drain := by
  unfold startUp; split <;> simp
@[simp] theorem startUp_ctl_activity (s : State) : (startUp s).ctl.activity = s.ctl.activity := by
  unfold startUp; split <;> simp
@[simp] theorem startUp_ctl_cause (s : State) : (startUp s).ctl.cause = s.ctl.cause := by
  unfold startUp; split <;> simp
@[simp] theorem startUp_ctl_items (s : State) : (startUp s).ctl.items = s.ctl.items := by
  unfold startUp; split <;> simp
@[simp] theorem startUp_alerts_mask (s : State) : (startUp s).alerts.mask = s.alerts.mask := by
  unfold startUp; split <;> simp
@[simp] theorem startUp_alerts_master (s : State) : (startUp s).alerts.master = s.alerts.master := by
  unfold startUp; split <;> simp
@[simp] theorem startUp_freeDraws (s : State) : (startUp s).freeDraws = s.freeDraws := by
  unfold startUp; split <;> simp
@[simp] theorem startUp_pending (s : State) : (startUp s).pending = s.pending := by
  unfold startUp; split <;> simp
@[simp] theorem expireHail_now (s : State) : (expireHail s).now = s.now := by
  unfold expireHail; split <;> simp
@[simp] theorem expireHail_resetHeld (s : State) : (expireHail s).resetHeld = s.resetHeld := by
  unfold expireHail; split <;> simp
@[simp] theorem expireHail_idx (s : State) : (expireHail s).idx = s.idx := by
  unfold expireHail; split <;> simp
@[simp] theorem expireHail_table (s : State) : (expireHail s).table = s.table := by
  unfold expireHail; split <;> simp
@[simp] theorem expireHail_eng (s : State) : (expireHail s).eng = s.eng := by
  unfold expireHail; split <;> simp
@[simp] theorem expireHail_drift (s : State) : (expireHail s).drift = s.drift := by
  unfold expireHail; split <;> simp
@[simp] theorem expireHail_pages (s : State) : (expireHail s).pages = s.pages := by
  unfold expireHail; split <;> simp
@[simp] theorem expireHail_gates (s : State) : (expireHail s).gates = s.gates := by
  unfold expireHail; split <;> simp
@[simp] theorem expireHail_link (s : State) : (expireHail s).link = s.link := by
  unfold expireHail; split <;> simp
@[simp] theorem expireHail_peers (s : State) : (expireHail s).peers = s.peers := by
  unfold expireHail; split <;> simp
@[simp] theorem expireHail_ctl_node (s : State) : (expireHail s).ctl.node = s.ctl.node := by
  unfold expireHail; split <;> simp
@[simp] theorem expireHail_ctl_role (s : State) : (expireHail s).ctl.role = s.ctl.role := by
  unfold expireHail; split <;> simp
@[simp] theorem expireHail_ctl_run (s : State) : (expireHail s).ctl.run = s.ctl.run := by
  unfold expireHail; split <;> simp
@[simp] theorem expireHail_ctl_faultReason (s : State) : (expireHail s).ctl.faultReason = s.ctl.faultReason := by
  unfold expireHail; split <;> simp
@[simp] theorem expireHail_ctl_drain (s : State) : (expireHail s).ctl.drain = s.ctl.drain := by
  unfold expireHail; split <;> simp
@[simp] theorem expireHail_ctl_activity (s : State) : (expireHail s).ctl.activity = s.ctl.activity := by
  unfold expireHail; split <;> simp
@[simp] theorem expireHail_ctl_cause (s : State) : (expireHail s).ctl.cause = s.ctl.cause := by
  unfold expireHail; split <;> simp
@[simp] theorem expireHail_ctl_listenDue (s : State) : (expireHail s).ctl.listenDue = s.ctl.listenDue := by
  unfold expireHail; split <;> simp
@[simp] theorem expireHail_ctl_items (s : State) : (expireHail s).ctl.items = s.ctl.items := by
  unfold expireHail; split <;> simp
@[simp] theorem expireHail_alerts (s : State) : (expireHail s).alerts = s.alerts := by
  unfold expireHail; split <;> simp
@[simp] theorem expireHail_work_units (s : State) : (expireHail s).work.units = s.work.units := by
  unfold expireHail; split <;> simp
@[simp] theorem expireHail_work_status (s : State) : (expireHail s).work.status = s.work.status := by
  unfold expireHail; split <;> simp
@[simp] theorem expireHail_freeDraws (s : State) : (expireHail s).freeDraws = s.freeDraws := by
  unfold expireHail; split <;> simp
@[simp] theorem expireHail_pending (s : State) : (expireHail s).pending = s.pending := by
  unfold expireHail; split <;> simp
@[simp] theorem endListen_now (s : State) : (endListen s).now = s.now := by simp [endListen]
@[simp] theorem endListen_resetHeld (s : State) : (endListen s).resetHeld = s.resetHeld := by simp [endListen]
@[simp] theorem endListen_idx (s : State) : (endListen s).idx = s.idx := by simp [endListen]
@[simp] theorem endListen_table (s : State) : (endListen s).table = s.table := by simp [endListen]
@[simp] theorem endListen_eng (s : State) : (endListen s).eng = s.eng := by simp [endListen]
@[simp] theorem endListen_drift (s : State) : (endListen s).drift = s.drift := by simp [endListen]
@[simp] theorem endListen_pages (s : State) : (endListen s).pages = s.pages := by simp [endListen]
@[simp] theorem endListen_gates (s : State) : (endListen s).gates = s.gates := by simp [endListen]
@[simp] theorem endListen_link (s : State) : (endListen s).link = s.link := by simp [endListen]
@[simp] theorem endListen_peers (s : State) : (endListen s).peers = s.peers := by simp [endListen]
@[simp] theorem endListen_ctl_node (s : State) : (endListen s).ctl.node = s.ctl.node := by simp [endListen]
@[simp] theorem endListen_ctl_role (s : State) : (endListen s).ctl.role = s.ctl.role := by simp [endListen]
@[simp] theorem endListen_ctl_faultReason (s : State) : (endListen s).ctl.faultReason = s.ctl.faultReason := by simp [endListen]
@[simp] theorem endListen_ctl_activity (s : State) : (endListen s).ctl.activity = s.ctl.activity := by simp [endListen]
@[simp] theorem endListen_ctl_cause (s : State) : (endListen s).ctl.cause = s.ctl.cause := by simp [endListen]
@[simp] theorem endListen_ctl_items (s : State) : (endListen s).ctl.items = s.ctl.items := by simp [endListen]
@[simp] theorem endListen_alerts (s : State) : (endListen s).alerts = s.alerts := by simp [endListen]
@[simp] theorem endListen_work_units (s : State) : (endListen s).work.units = s.work.units := by simp [endListen]
@[simp] theorem endListen_work_status (s : State) : (endListen s).work.status = s.work.status := by simp [endListen]
@[simp] theorem endListen_freeDraws (s : State) : (endListen s).freeDraws = s.freeDraws := by simp [endListen]
@[simp] theorem endListen_pending (s : State) : (endListen s).pending = s.pending := by simp [endListen]
@[simp] theorem expireListen_now (s : State) : (expireListen s).now = s.now := by
  unfold expireListen; split <;> simp
@[simp] theorem expireListen_resetHeld (s : State) : (expireListen s).resetHeld = s.resetHeld := by
  unfold expireListen; split <;> simp
@[simp] theorem expireListen_idx (s : State) : (expireListen s).idx = s.idx := by
  unfold expireListen; split <;> simp
@[simp] theorem expireListen_table (s : State) : (expireListen s).table = s.table := by
  unfold expireListen; split <;> simp
@[simp] theorem expireListen_eng (s : State) : (expireListen s).eng = s.eng := by
  unfold expireListen; split <;> simp
@[simp] theorem expireListen_drift (s : State) : (expireListen s).drift = s.drift := by
  unfold expireListen; split <;> simp
@[simp] theorem expireListen_pages (s : State) : (expireListen s).pages = s.pages := by
  unfold expireListen; split <;> simp
@[simp] theorem expireListen_gates (s : State) : (expireListen s).gates = s.gates := by
  unfold expireListen; split <;> simp
@[simp] theorem expireListen_link (s : State) : (expireListen s).link = s.link := by
  unfold expireListen; split <;> simp
@[simp] theorem expireListen_peers (s : State) : (expireListen s).peers = s.peers := by
  unfold expireListen; split <;> simp
@[simp] theorem expireListen_ctl_node (s : State) : (expireListen s).ctl.node = s.ctl.node := by
  unfold expireListen; split <;> simp
@[simp] theorem expireListen_ctl_role (s : State) : (expireListen s).ctl.role = s.ctl.role := by
  unfold expireListen; split <;> simp
@[simp] theorem expireListen_ctl_faultReason (s : State) : (expireListen s).ctl.faultReason = s.ctl.faultReason := by
  unfold expireListen; split <;> simp
@[simp] theorem expireListen_ctl_activity (s : State) : (expireListen s).ctl.activity = s.ctl.activity := by
  unfold expireListen; split <;> simp
@[simp] theorem expireListen_ctl_cause (s : State) : (expireListen s).ctl.cause = s.ctl.cause := by
  unfold expireListen; split <;> simp
@[simp] theorem expireListen_ctl_items (s : State) : (expireListen s).ctl.items = s.ctl.items := by
  unfold expireListen; split <;> simp
@[simp] theorem expireListen_alerts (s : State) : (expireListen s).alerts = s.alerts := by
  unfold expireListen; split <;> simp
@[simp] theorem expireListen_work_units (s : State) : (expireListen s).work.units = s.work.units := by
  unfold expireListen; split <;> simp
@[simp] theorem expireListen_work_status (s : State) : (expireListen s).work.status = s.work.status := by
  unfold expireListen; split <;> simp
@[simp] theorem expireListen_freeDraws (s : State) : (expireListen s).freeDraws = s.freeDraws := by
  unfold expireListen; split <;> simp
@[simp] theorem expireListen_pending (s : State) : (expireListen s).pending = s.pending := by
  unfold expireListen; split <;> simp
@[simp] theorem completeFrame_now (s : State) : (completeFrame s).now = s.now := by
  unfold completeFrame; dsimp only; (repeat' split) <;> simp
@[simp] theorem completeFrame_resetHeld (s : State) : (completeFrame s).resetHeld = s.resetHeld := by
  unfold completeFrame; dsimp only; (repeat' split) <;> simp
@[simp] theorem completeFrame_idx (s : State) : (completeFrame s).idx = s.idx := by
  unfold completeFrame; dsimp only; (repeat' split) <;> simp
@[simp] theorem completeFrame_table (s : State) : (completeFrame s).table = s.table := by
  unfold completeFrame; dsimp only; (repeat' split) <;> simp
@[simp] theorem completeFrame_eng (s : State) : (completeFrame s).eng = s.eng := by
  unfold completeFrame; dsimp only; (repeat' split) <;> simp
@[simp] theorem completeFrame_drift (s : State) : (completeFrame s).drift = s.drift := by
  unfold completeFrame; dsimp only; (repeat' split) <;> simp
@[simp] theorem completeFrame_pages (s : State) : (completeFrame s).pages = s.pages := by
  unfold completeFrame; dsimp only; (repeat' split) <;> simp
@[simp] theorem completeFrame_gates (s : State) : (completeFrame s).gates = s.gates := by
  unfold completeFrame; dsimp only; (repeat' split) <;> simp
@[simp] theorem completeFrame_link_queue (s : State) : (completeFrame s).link.queue = s.link.queue := by
  unfold completeFrame; dsimp only; (repeat' split) <;> simp
@[simp] theorem completeFrame_link_rx (s : State) : (completeFrame s).link.rx = s.link.rx := by
  unfold completeFrame; dsimp only; (repeat' split) <;> simp
@[simp] theorem completeFrame_link_lineIdle (s : State) : (completeFrame s).link.lineIdle = s.link.lineIdle := by
  unfold completeFrame; dsimp only; (repeat' split) <;> simp
@[simp] theorem completeFrame_link_deferral (s : State) : (completeFrame s).link.deferral = s.link.deferral := by
  unfold completeFrame; dsimp only; (repeat' split) <;> simp
@[simp] theorem completeFrame_link_lastSender (s : State) : (completeFrame s).link.lastSender = s.link.lastSender := by
  unfold completeFrame; dsimp only; (repeat' split) <;> simp
@[simp] theorem completeFrame_peers (s : State) : (completeFrame s).peers = s.peers := by
  unfold completeFrame; dsimp only; (repeat' split) <;> simp
@[simp] theorem completeFrame_ctl (s : State) : (completeFrame s).ctl = s.ctl := by
  unfold completeFrame; dsimp only; (repeat' split) <;> simp
@[simp] theorem completeFrame_alerts (s : State) : (completeFrame s).alerts = s.alerts := by
  unfold completeFrame; dsimp only; (repeat' split) <;> simp
@[simp] theorem completeFrame_work (s : State) : (completeFrame s).work = s.work := by
  unfold completeFrame; dsimp only; (repeat' split) <;> simp
@[simp] theorem completeFrame_freeDraws (s : State) : (completeFrame s).freeDraws = s.freeDraws := by
  unfold completeFrame; dsimp only; (repeat' split) <;> simp
@[simp] theorem completeFrame_pending (s : State) : (completeFrame s).pending = s.pending := by
  unfold completeFrame; dsimp only; (repeat' split) <;> simp
@[simp] theorem dropReception_now (s : State) : (dropReception s).now = s.now := by
  unfold dropReception; (repeat' split) <;> simp
@[simp] theorem dropReception_resetHeld (s : State) : (dropReception s).resetHeld = s.resetHeld := by
  unfold dropReception; (repeat' split) <;> simp
@[simp] theorem dropReception_idx (s : State) : (dropReception s).idx = s.idx := by
  unfold dropReception; (repeat' split) <;> simp
@[simp] theorem dropReception_table (s : State) : (dropReception s).table = s.table := by
  unfold dropReception; (repeat' split) <;> simp
@[simp] theorem dropReception_eng (s : State) : (dropReception s).eng = s.eng := by
  unfold dropReception; (repeat' split) <;> simp
@[simp] theorem dropReception_drift (s : State) : (dropReception s).drift = s.drift := by
  unfold dropReception; (repeat' split) <;> simp
@[simp] theorem dropReception_pages (s : State) : (dropReception s).pages = s.pages := by
  unfold dropReception; (repeat' split) <;> simp
@[simp] theorem dropReception_gates (s : State) : (dropReception s).gates = s.gates := by
  unfold dropReception; (repeat' split) <;> simp
@[simp] theorem dropReception_link_queue (s : State) : (dropReception s).link.queue = s.link.queue := by
  unfold dropReception; (repeat' split) <;> simp
@[simp] theorem dropReception_peers (s : State) : (dropReception s).peers = s.peers := by
  unfold dropReception; (repeat' split) <;> simp
@[simp] theorem dropReception_ctl (s : State) : (dropReception s).ctl = s.ctl := by
  unfold dropReception; (repeat' split) <;> simp
@[simp] theorem dropReception_alerts (s : State) : (dropReception s).alerts = s.alerts := by
  unfold dropReception; (repeat' split) <;> simp
@[simp] theorem dropReception_work (s : State) : (dropReception s).work = s.work := by
  unfold dropReception; (repeat' split) <;> simp
@[simp] theorem dropReception_freeDraws (s : State) : (dropReception s).freeDraws = s.freeDraws := by
  unfold dropReception; (repeat' split) <;> simp
@[simp] theorem dropReception_pending (s : State) : (dropReception s).pending = s.pending := by
  unfold dropReception; (repeat' split) <;> simp
@[simp] theorem goIdle_now (s : State) : (goIdle s).now = s.now := by simp [goIdle]
@[simp] theorem goIdle_resetHeld (s : State) : (goIdle s).resetHeld = s.resetHeld := by simp [goIdle]
@[simp] theorem goIdle_idx (s : State) : (goIdle s).idx = s.idx := by simp [goIdle]
@[simp] theorem goIdle_table (s : State) : (goIdle s).table = s.table := by simp [goIdle]
@[simp] theorem goIdle_eng (s : State) : (goIdle s).eng = s.eng := by simp [goIdle]
@[simp] theorem goIdle_drift (s : State) : (goIdle s).drift = s.drift := by simp [goIdle]
@[simp] theorem goIdle_pages (s : State) : (goIdle s).pages = s.pages := by simp [goIdle]
@[simp] theorem goIdle_gates (s : State) : (goIdle s).gates = s.gates := by simp [goIdle]
@[simp] theorem goIdle_link_queue (s : State) : (goIdle s).link.queue = s.link.queue := by simp [goIdle]
@[simp] theorem goIdle_peers (s : State) : (goIdle s).peers = s.peers := by simp [goIdle]
@[simp] theorem goIdle_ctl (s : State) : (goIdle s).ctl = s.ctl := by simp [goIdle]
@[simp] theorem goIdle_alerts (s : State) : (goIdle s).alerts = s.alerts := by simp [goIdle]
@[simp] theorem goIdle_work (s : State) : (goIdle s).work = s.work := by simp [goIdle]
@[simp] theorem goIdle_freeDraws (s : State) : (goIdle s).freeDraws = s.freeDraws := by simp [goIdle]
@[simp] theorem goIdle_pending (s : State) : (goIdle s).pending = s.pending := by simp [goIdle]
@[simp] theorem lineBecomesIdle_now (s : State) : (lineBecomesIdle s).now = s.now := by
  unfold lineBecomesIdle; dsimp only; (repeat' split) <;> simp
@[simp] theorem lineBecomesIdle_resetHeld (s : State) : (lineBecomesIdle s).resetHeld = s.resetHeld := by
  unfold lineBecomesIdle; dsimp only; (repeat' split) <;> simp
@[simp] theorem lineBecomesIdle_idx (s : State) : (lineBecomesIdle s).idx = s.idx := by
  unfold lineBecomesIdle; dsimp only; (repeat' split) <;> simp
@[simp] theorem lineBecomesIdle_table (s : State) : (lineBecomesIdle s).table = s.table := by
  unfold lineBecomesIdle; dsimp only; (repeat' split) <;> simp
@[simp] theorem lineBecomesIdle_eng (s : State) : (lineBecomesIdle s).eng = s.eng := by
  unfold lineBecomesIdle; dsimp only; (repeat' split) <;> simp
@[simp] theorem lineBecomesIdle_drift (s : State) : (lineBecomesIdle s).drift = s.drift := by
  unfold lineBecomesIdle; dsimp only; (repeat' split) <;> simp
@[simp] theorem lineBecomesIdle_pages (s : State) : (lineBecomesIdle s).pages = s.pages := by
  unfold lineBecomesIdle; dsimp only; (repeat' split) <;> simp
@[simp] theorem lineBecomesIdle_gates (s : State) : (lineBecomesIdle s).gates = s.gates := by
  unfold lineBecomesIdle; dsimp only; (repeat' split) <;> simp
@[simp] theorem lineBecomesIdle_link_queue (s : State) : (lineBecomesIdle s).link.queue = s.link.queue := by
  unfold lineBecomesIdle; dsimp only; (repeat' split) <;> simp
@[simp] theorem lineBecomesIdle_peers (s : State) : (lineBecomesIdle s).peers = s.peers := by
  unfold lineBecomesIdle; dsimp only; (repeat' split) <;> simp
@[simp] theorem lineBecomesIdle_ctl (s : State) : (lineBecomesIdle s).ctl = s.ctl := by
  unfold lineBecomesIdle; dsimp only; (repeat' split) <;> simp
@[simp] theorem lineBecomesIdle_alerts (s : State) : (lineBecomesIdle s).alerts = s.alerts := by
  unfold lineBecomesIdle; dsimp only; (repeat' split) <;> simp
@[simp] theorem lineBecomesIdle_work (s : State) : (lineBecomesIdle s).work = s.work := by
  unfold lineBecomesIdle; dsimp only; (repeat' split) <;> simp
@[simp] theorem lineBecomesIdle_freeDraws (s : State) : (lineBecomesIdle s).freeDraws = s.freeDraws := by
  unfold lineBecomesIdle; dsimp only; (repeat' split) <;> simp
@[simp] theorem lineBecomesIdle_pending (s : State) : (lineBecomesIdle s).pending = s.pending := by
  unfold lineBecomesIdle; dsimp only; (repeat' split) <;> simp
@[simp] theorem endWait_now (s : State) : (endWait s).now = s.now := by
  unfold endWait; dsimp only; (repeat' split) <;> simp
@[simp] theorem endWait_resetHeld (s : State) : (endWait s).resetHeld = s.resetHeld := by
  unfold endWait; dsimp only; (repeat' split) <;> simp
@[simp] theorem endWait_idx (s : State) : (endWait s).idx = s.idx := by
  unfold endWait; dsimp only; (repeat' split) <;> simp
@[simp] theorem endWait_table (s : State) : (endWait s).table = s.table := by
  unfold endWait; dsimp only; (repeat' split) <;> simp
@[simp] theorem endWait_eng (s : State) : (endWait s).eng = s.eng := by
  unfold endWait; dsimp only; (repeat' split) <;> simp
@[simp] theorem endWait_drift (s : State) : (endWait s).drift = s.drift := by
  unfold endWait; dsimp only; (repeat' split) <;> simp
@[simp] theorem endWait_pages (s : State) : (endWait s).pages = s.pages := by
  unfold endWait; dsimp only; (repeat' split) <;> simp
@[simp] theorem endWait_gates (s : State) : (endWait s).gates = s.gates := by
  unfold endWait; dsimp only; (repeat' split) <;> simp
@[simp] theorem endWait_link_queue (s : State) : (endWait s).link.queue = s.link.queue := by
  unfold endWait; dsimp only; (repeat' split) <;> simp
@[simp] theorem endWait_link_tx (s : State) : (endWait s).link.tx = s.link.tx := by
  unfold endWait; dsimp only; (repeat' split) <;> simp
@[simp] theorem endWait_link_rx (s : State) : (endWait s).link.rx = s.link.rx := by
  unfold endWait; dsimp only; (repeat' split) <;> simp
@[simp] theorem endWait_link_lineIdle (s : State) : (endWait s).link.lineIdle = s.link.lineIdle := by
  unfold endWait; dsimp only; (repeat' split) <;> simp
@[simp] theorem endWait_link_quietSince (s : State) : (endWait s).link.quietSince = s.link.quietSince := by
  unfold endWait; dsimp only; (repeat' split) <;> simp
@[simp] theorem endWait_link_lastSender (s : State) : (endWait s).link.lastSender = s.link.lastSender := by
  unfold endWait; dsimp only; (repeat' split) <;> simp
@[simp] theorem endWait_peers (s : State) : (endWait s).peers = s.peers := by
  unfold endWait; dsimp only; (repeat' split) <;> simp
@[simp] theorem endWait_ctl (s : State) : (endWait s).ctl = s.ctl := by
  unfold endWait; dsimp only; (repeat' split) <;> simp
@[simp] theorem endWait_alerts (s : State) : (endWait s).alerts = s.alerts := by
  unfold endWait; dsimp only; (repeat' split) <;> simp
@[simp] theorem endWait_work (s : State) : (endWait s).work = s.work := by
  unfold endWait; dsimp only; (repeat' split) <;> simp
@[simp] theorem endWait_freeDraws (s : State) : (endWait s).freeDraws = s.freeDraws := by
  unfold endWait; dsimp only; (repeat' split) <;> simp
@[simp] theorem endWait_pending (s : State) : (endWait s).pending = s.pending := by
  unfold endWait; dsimp only; (repeat' split) <;> simp
@[simp] theorem loseClaim_now (s : State) : (loseClaim s).now = s.now := by
  unfold loseClaim; dsimp only; (repeat' split) <;> simp
@[simp] theorem loseClaim_resetHeld (s : State) : (loseClaim s).resetHeld = s.resetHeld := by
  unfold loseClaim; dsimp only; (repeat' split) <;> simp
@[simp] theorem loseClaim_idx (s : State) : (loseClaim s).idx = s.idx := by
  unfold loseClaim; dsimp only; (repeat' split) <;> simp
@[simp] theorem loseClaim_table (s : State) : (loseClaim s).table = s.table := by
  unfold loseClaim; dsimp only; (repeat' split) <;> simp
@[simp] theorem loseClaim_eng (s : State) : (loseClaim s).eng = s.eng := by
  unfold loseClaim; dsimp only; (repeat' split) <;> simp
@[simp] theorem loseClaim_drift (s : State) : (loseClaim s).drift = s.drift := by
  unfold loseClaim; dsimp only; (repeat' split) <;> simp
@[simp] theorem loseClaim_pages (s : State) : (loseClaim s).pages = s.pages := by
  unfold loseClaim; dsimp only; (repeat' split) <;> simp
@[simp] theorem loseClaim_gates (s : State) : (loseClaim s).gates = s.gates := by
  unfold loseClaim; dsimp only; (repeat' split) <;> simp
@[simp] theorem loseClaim_link_queue (s : State) : (loseClaim s).link.queue = s.link.queue := by
  unfold loseClaim; dsimp only; (repeat' split) <;> simp
@[simp] theorem loseClaim_link_quietSince (s : State) : (loseClaim s).link.quietSince = s.link.quietSince := by
  unfold loseClaim; dsimp only; (repeat' split) <;> simp
@[simp] theorem loseClaim_link_lastSender (s : State) : (loseClaim s).link.lastSender = s.link.lastSender := by
  unfold loseClaim; dsimp only; (repeat' split) <;> simp
@[simp] theorem loseClaim_peers (s : State) : (loseClaim s).peers = s.peers := by
  unfold loseClaim; dsimp only; (repeat' split) <;> simp
@[simp] theorem loseClaim_ctl (s : State) : (loseClaim s).ctl = s.ctl := by
  unfold loseClaim; dsimp only; (repeat' split) <;> simp
@[simp] theorem loseClaim_alerts (s : State) : (loseClaim s).alerts = s.alerts := by
  unfold loseClaim; dsimp only; (repeat' split) <;> simp
@[simp] theorem loseClaim_work (s : State) : (loseClaim s).work = s.work := by
  unfold loseClaim; dsimp only; (repeat' split) <;> simp
@[simp] theorem loseClaim_freeDraws (s : State) : (loseClaim s).freeDraws = s.freeDraws := by
  unfold loseClaim; dsimp only; (repeat' split) <;> simp
@[simp] theorem loseClaim_pending (s : State) : (loseClaim s).pending = s.pending := by
  unfold loseClaim; dsimp only; (repeat' split) <;> simp
@[simp] theorem collide_now (s : State) : (collide s).now = s.now := by
  unfold collide; dsimp only; (repeat' split) <;> simp
@[simp] theorem collide_resetHeld (s : State) : (collide s).resetHeld = s.resetHeld := by
  unfold collide; dsimp only; (repeat' split) <;> simp
@[simp] theorem collide_idx_count (s : State) : (collide s).idx.count = s.idx.count := by
  unfold collide; dsimp only; (repeat' split) <;> simp
@[simp] theorem collide_idx_lastIndex (s : State) : (collide s).idx.lastIndex = s.idx.lastIndex := by
  unfold collide; dsimp only; (repeat' split) <;> simp
@[simp] theorem collide_idx_retireLimit (s : State) : (collide s).idx.retireLimit = s.idx.retireLimit := by
  unfold collide; dsimp only; (repeat' split) <;> simp
@[simp] theorem collide_idx_currentPage (s : State) : (collide s).idx.currentPage = s.idx.currentPage := by
  unfold collide; dsimp only; (repeat' split) <;> simp
@[simp] theorem collide_table (s : State) : (collide s).table = s.table := by
  unfold collide; dsimp only; (repeat' split) <;> simp
@[simp] theorem collide_eng_recentPage (s : State) : (collide s).eng.recentPage = s.eng.recentPage := by
  unfold collide; dsimp only; (repeat' split) <;> simp
@[simp] theorem collide_drift (s : State) : (collide s).drift = s.drift := by
  unfold collide; dsimp only; (repeat' split) <;> simp
@[simp] theorem collide_pages (s : State) : (collide s).pages = s.pages := by
  unfold collide; dsimp only; (repeat' split) <;> simp
@[simp] theorem collide_gates_binTallies (s : State) : (collide s).gates.binTallies = s.gates.binTallies := by
  unfold collide; dsimp only; (repeat' split) <;> simp
@[simp] theorem collide_gates_reasonTallies (s : State) : (collide s).gates.reasonTallies = s.gates.reasonTallies := by
  unfold collide; dsimp only; (repeat' split) <;> simp
@[simp] theorem collide_link_deferral (s : State) : (collide s).link.deferral = s.link.deferral := by
  unfold collide; dsimp only; (repeat' split) <;> simp
@[simp] theorem collide_link_lastSender (s : State) : (collide s).link.lastSender = s.link.lastSender := by
  unfold collide; dsimp only; (repeat' split) <;> simp
@[simp] theorem collide_peers (s : State) : (collide s).peers = s.peers := by
  unfold collide; dsimp only; (repeat' split) <;> simp
@[simp] theorem collide_ctl_node (s : State) : (collide s).ctl.node = s.ctl.node := by
  unfold collide; dsimp only; (repeat' split) <;> simp
@[simp] theorem collide_ctl_role (s : State) : (collide s).ctl.role = s.ctl.role := by
  unfold collide; dsimp only; (repeat' split) <;> simp
@[simp] theorem collide_ctl_drain (s : State) : (collide s).ctl.drain = s.ctl.drain := by
  unfold collide; dsimp only; (repeat' split) <;> simp
@[simp] theorem collide_ctl_activity (s : State) : (collide s).ctl.activity = s.ctl.activity := by
  unfold collide; dsimp only; (repeat' split) <;> simp
@[simp] theorem collide_ctl_cause (s : State) : (collide s).ctl.cause = s.ctl.cause := by
  unfold collide; dsimp only; (repeat' split) <;> simp
@[simp] theorem collide_ctl_items (s : State) : (collide s).ctl.items = s.ctl.items := by
  unfold collide; dsimp only; (repeat' split) <;> simp
@[simp] theorem collide_alerts_mask (s : State) : (collide s).alerts.mask = s.alerts.mask := by
  unfold collide; dsimp only; (repeat' split) <;> simp
@[simp] theorem collide_alerts_master (s : State) : (collide s).alerts.master = s.alerts.master := by
  unfold collide; dsimp only; (repeat' split) <;> simp
@[simp] theorem collide_freeDraws (s : State) : (collide s).freeDraws = s.freeDraws := by
  unfold collide; dsimp only; (repeat' split) <;> simp
@[simp] theorem collide_pending (s : State) : (collide s).pending = s.pending := by
  unfold collide; dsimp only; (repeat' split) <;> simp
@[simp] theorem beginReception_now (s : State) : (beginReception s).now = s.now := by
  unfold beginReception; split <;> simp
@[simp] theorem beginReception_resetHeld (s : State) : (beginReception s).resetHeld = s.resetHeld := by
  unfold beginReception; split <;> simp
@[simp] theorem beginReception_idx (s : State) : (beginReception s).idx = s.idx := by
  unfold beginReception; split <;> simp
@[simp] theorem beginReception_table (s : State) : (beginReception s).table = s.table := by
  unfold beginReception; split <;> simp
@[simp] theorem beginReception_eng (s : State) : (beginReception s).eng = s.eng := by
  unfold beginReception; split <;> simp
@[simp] theorem beginReception_drift (s : State) : (beginReception s).drift = s.drift := by
  unfold beginReception; split <;> simp
@[simp] theorem beginReception_pages (s : State) : (beginReception s).pages = s.pages := by
  unfold beginReception; split <;> simp
@[simp] theorem beginReception_gates (s : State) : (beginReception s).gates = s.gates := by
  unfold beginReception; split <;> simp
@[simp] theorem beginReception_link_queue (s : State) : (beginReception s).link.queue = s.link.queue := by
  unfold beginReception; split <;> simp
@[simp] theorem beginReception_link_tx (s : State) : (beginReception s).link.tx = s.link.tx := by
  unfold beginReception; split <;> simp
@[simp] theorem beginReception_link_lastSender (s : State) : (beginReception s).link.lastSender = s.link.lastSender := by
  unfold beginReception; split <;> simp
@[simp] theorem beginReception_peers (s : State) : (beginReception s).peers = s.peers := by
  unfold beginReception; split <;> simp
@[simp] theorem beginReception_ctl (s : State) : (beginReception s).ctl = s.ctl := by
  unfold beginReception; split <;> simp
@[simp] theorem beginReception_alerts (s : State) : (beginReception s).alerts = s.alerts := by
  unfold beginReception; split <;> simp
@[simp] theorem beginReception_work (s : State) : (beginReception s).work = s.work := by
  unfold beginReception; split <;> simp
@[simp] theorem beginReception_freeDraws (s : State) : (beginReception s).freeDraws = s.freeDraws := by
  unfold beginReception; split <;> simp
@[simp] theorem beginReception_pending (s : State) : (beginReception s).pending = s.pending := by
  unfold beginReception; split <;> simp
@[simp] theorem runMode_now (s : State) : (runMode s).now = s.now := by
  unfold runMode; (repeat' split) <;> simp_all
@[simp] theorem runMode_resetHeld (s : State) : (runMode s).resetHeld = s.resetHeld := by
  unfold runMode; (repeat' split) <;> simp_all
@[simp] theorem runMode_idx (s : State) : (runMode s).idx = s.idx := by
  unfold runMode; (repeat' split) <;> simp_all
@[simp] theorem runMode_table (s : State) : (runMode s).table = s.table := by
  unfold runMode; (repeat' split) <;> simp_all
@[simp] theorem runMode_eng (s : State) : (runMode s).eng = s.eng := by
  unfold runMode; (repeat' split) <;> simp_all
@[simp] theorem runMode_drift (s : State) : (runMode s).drift = s.drift := by
  unfold runMode; (repeat' split) <;> simp_all
@[simp] theorem runMode_pages (s : State) : (runMode s).pages = s.pages := by
  unfold runMode; (repeat' split) <;> simp_all
@[simp] theorem runMode_gates (s : State) : (runMode s).gates = s.gates := by
  unfold runMode; (repeat' split) <;> simp_all
@[simp] theorem runMode_link (s : State) : (runMode s).link = s.link := by
  unfold runMode; (repeat' split) <;> simp_all
@[simp] theorem runMode_peers (s : State) : (runMode s).peers = s.peers := by
  unfold runMode; (repeat' split) <;> simp_all
@[simp] theorem runMode_ctl_node (s : State) : (runMode s).ctl.node = s.ctl.node := by
  unfold runMode; (repeat' split) <;> simp_all
@[simp] theorem runMode_ctl_role (s : State) : (runMode s).ctl.role = s.ctl.role := by
  unfold runMode; (repeat' split) <;> simp_all
@[simp] theorem runMode_ctl_faultReason (s : State) : (runMode s).ctl.faultReason = s.ctl.faultReason := by
  unfold runMode; (repeat' split) <;> simp_all
@[simp] theorem runMode_ctl_activity (s : State) : (runMode s).ctl.activity = s.ctl.activity := by
  unfold runMode; (repeat' split) <;> simp_all
@[simp] theorem runMode_ctl_cause (s : State) : (runMode s).ctl.cause = s.ctl.cause := by
  unfold runMode; (repeat' split) <;> simp_all
@[simp] theorem runMode_ctl_listenDue (s : State) : (runMode s).ctl.listenDue = s.ctl.listenDue := by
  unfold runMode; (repeat' split) <;> simp_all
@[simp] theorem runMode_ctl_items (s : State) : (runMode s).ctl.items = s.ctl.items := by
  unfold runMode; (repeat' split) <;> simp_all
@[simp] theorem runMode_alerts_mask (s : State) : (runMode s).alerts.mask = s.alerts.mask := by
  unfold runMode; (repeat' split) <;> simp_all
@[simp] theorem runMode_alerts_master (s : State) : (runMode s).alerts.master = s.alerts.master := by
  unfold runMode; (repeat' split) <;> simp_all
@[simp] theorem runMode_work_units (s : State) : (runMode s).work.units = s.work.units := by
  unfold runMode; (repeat' split) <;> simp_all
@[simp] theorem runMode_work_status (s : State) : (runMode s).work.status = s.work.status := by
  unfold runMode; (repeat' split) <;> simp_all
@[simp] theorem runMode_freeDraws (s : State) : (runMode s).freeDraws = s.freeDraws := by
  unfold runMode; (repeat' split) <;> simp_all
@[simp] theorem runMode_pending (s : State) : (runMode s).pending = s.pending := by
  unfold runMode; (repeat' split) <;> simp_all
@[simp] theorem haltMode_now (m : HaltMode) (s : State) : (haltMode m s).now = s.now := by
  unfold haltMode; split <;> simp
@[simp] theorem haltMode_resetHeld (m : HaltMode) (s : State) : (haltMode m s).resetHeld = s.resetHeld := by
  unfold haltMode; split <;> simp
@[simp] theorem haltMode_idx (m : HaltMode) (s : State) : (haltMode m s).idx = s.idx := by
  unfold haltMode; split <;> simp
@[simp] theorem haltMode_table (m : HaltMode) (s : State) : (haltMode m s).table = s.table := by
  unfold haltMode; split <;> simp
@[simp] theorem haltMode_eng (m : HaltMode) (s : State) : (haltMode m s).eng = s.eng := by
  unfold haltMode; split <;> simp
@[simp] theorem haltMode_drift (m : HaltMode) (s : State) : (haltMode m s).drift = s.drift := by
  unfold haltMode; split <;> simp
@[simp] theorem haltMode_pages (m : HaltMode) (s : State) : (haltMode m s).pages = s.pages := by
  unfold haltMode; split <;> simp
@[simp] theorem haltMode_gates (m : HaltMode) (s : State) : (haltMode m s).gates = s.gates := by
  unfold haltMode; split <;> simp
@[simp] theorem haltMode_link (m : HaltMode) (s : State) : (haltMode m s).link = s.link := by
  unfold haltMode; split <;> simp
@[simp] theorem haltMode_peers (m : HaltMode) (s : State) : (haltMode m s).peers = s.peers := by
  unfold haltMode; split <;> simp
@[simp] theorem haltMode_ctl_node (m : HaltMode) (s : State) : (haltMode m s).ctl.node = s.ctl.node := by
  unfold haltMode; split <;> simp
@[simp] theorem haltMode_ctl_role (m : HaltMode) (s : State) : (haltMode m s).ctl.role = s.ctl.role := by
  unfold haltMode; split <;> simp
@[simp] theorem haltMode_ctl_faultReason (m : HaltMode) (s : State) : (haltMode m s).ctl.faultReason = s.ctl.faultReason := by
  unfold haltMode; split <;> simp
@[simp] theorem haltMode_ctl_activity (m : HaltMode) (s : State) : (haltMode m s).ctl.activity = s.ctl.activity := by
  unfold haltMode; split <;> simp
@[simp] theorem haltMode_ctl_cause (m : HaltMode) (s : State) : (haltMode m s).ctl.cause = s.ctl.cause := by
  unfold haltMode; split <;> simp
@[simp] theorem haltMode_ctl_listenDue (m : HaltMode) (s : State) : (haltMode m s).ctl.listenDue = s.ctl.listenDue := by
  unfold haltMode; split <;> simp
@[simp] theorem haltMode_ctl_items (m : HaltMode) (s : State) : (haltMode m s).ctl.items = s.ctl.items := by
  unfold haltMode; split <;> simp
@[simp] theorem haltMode_alerts_mask (m : HaltMode) (s : State) : (haltMode m s).alerts.mask = s.alerts.mask := by
  unfold haltMode; split <;> simp
@[simp] theorem haltMode_alerts_master (m : HaltMode) (s : State) : (haltMode m s).alerts.master = s.alerts.master := by
  unfold haltMode; split <;> simp
@[simp] theorem haltMode_work_units (m : HaltMode) (s : State) : (haltMode m s).work.units = s.work.units := by
  unfold haltMode; split <;> simp
@[simp] theorem haltMode_work_status (m : HaltMode) (s : State) : (haltMode m s).work.status = s.work.status := by
  unfold haltMode; split <;> simp
@[simp] theorem haltMode_freeDraws (m : HaltMode) (s : State) : (haltMode m s).freeDraws = s.freeDraws := by
  unfold haltMode; split <;> simp
@[simp] theorem haltMode_pending (m : HaltMode) (s : State) : (haltMode m s).pending = s.pending := by
  unfold haltMode; split <;> simp
@[simp] theorem drainMode_now (s : State) : (drainMode s).now = s.now := by
  unfold drainMode; (repeat' split) <;> simp_all
@[simp] theorem drainMode_resetHeld (s : State) : (drainMode s).resetHeld = s.resetHeld := by
  unfold drainMode; (repeat' split) <;> simp_all
@[simp] theorem drainMode_idx (s : State) : (drainMode s).idx = s.idx := by
  unfold drainMode; (repeat' split) <;> simp_all
@[simp] theorem drainMode_table (s : State) : (drainMode s).table = s.table := by
  unfold drainMode; (repeat' split) <;> simp_all
@[simp] theorem drainMode_eng (s : State) : (drainMode s).eng = s.eng := by
  unfold drainMode; (repeat' split) <;> simp_all
@[simp] theorem drainMode_drift (s : State) : (drainMode s).drift = s.drift := by
  unfold drainMode; (repeat' split) <;> simp_all
@[simp] theorem drainMode_pages (s : State) : (drainMode s).pages = s.pages := by
  unfold drainMode; (repeat' split) <;> simp_all
@[simp] theorem drainMode_gates (s : State) : (drainMode s).gates = s.gates := by
  unfold drainMode; (repeat' split) <;> simp_all
@[simp] theorem drainMode_link (s : State) : (drainMode s).link = s.link := by
  unfold drainMode; (repeat' split) <;> simp_all
@[simp] theorem drainMode_peers (s : State) : (drainMode s).peers = s.peers := by
  unfold drainMode; (repeat' split) <;> simp_all
@[simp] theorem drainMode_ctl_node (s : State) : (drainMode s).ctl.node = s.ctl.node := by
  unfold drainMode; (repeat' split) <;> simp_all
@[simp] theorem drainMode_ctl_role (s : State) : (drainMode s).ctl.role = s.ctl.role := by
  unfold drainMode; (repeat' split) <;> simp_all
@[simp] theorem drainMode_ctl_faultReason (s : State) : (drainMode s).ctl.faultReason = s.ctl.faultReason := by
  unfold drainMode; (repeat' split) <;> simp_all
@[simp] theorem drainMode_ctl_activity (s : State) : (drainMode s).ctl.activity = s.ctl.activity := by
  unfold drainMode; (repeat' split) <;> simp_all
@[simp] theorem drainMode_ctl_cause (s : State) : (drainMode s).ctl.cause = s.ctl.cause := by
  unfold drainMode; (repeat' split) <;> simp_all
@[simp] theorem drainMode_ctl_listenDue (s : State) : (drainMode s).ctl.listenDue = s.ctl.listenDue := by
  unfold drainMode; (repeat' split) <;> simp_all
@[simp] theorem drainMode_ctl_items (s : State) : (drainMode s).ctl.items = s.ctl.items := by
  unfold drainMode; (repeat' split) <;> simp_all
@[simp] theorem drainMode_alerts_mask (s : State) : (drainMode s).alerts.mask = s.alerts.mask := by
  unfold drainMode; (repeat' split) <;> simp_all
@[simp] theorem drainMode_alerts_master (s : State) : (drainMode s).alerts.master = s.alerts.master := by
  unfold drainMode; (repeat' split) <;> simp_all
@[simp] theorem drainMode_work_units (s : State) : (drainMode s).work.units = s.work.units := by
  unfold drainMode; (repeat' split) <;> simp_all
@[simp] theorem drainMode_work_status (s : State) : (drainMode s).work.status = s.work.status := by
  unfold drainMode; (repeat' split) <;> simp_all
@[simp] theorem drainMode_freeDraws (s : State) : (drainMode s).freeDraws = s.freeDraws := by
  unfold drainMode; (repeat' split) <;> simp_all
@[simp] theorem drainMode_pending (s : State) : (drainMode s).pending = s.pending := by
  unfold drainMode; (repeat' split) <;> simp_all
theorem setupFrame_now (sortItem : Bool) (act : State → State) (s : State) (hc : ∀ a, (act a).now = a.now) : (setupFrame sortItem act s).now = s.now := by
  unfold setupFrame; (repeat' split) <;> simp_all
theorem setupFrame_resetHeld (sortItem : Bool) (act : State → State) (s : State) (hc : ∀ a, (act a).resetHeld = a.resetHeld) : (setupFrame sortItem act s).resetHeld = s.resetHeld := by
  unfold setupFrame; (repeat' split) <;> simp_all
theorem setupFrame_idx (sortItem : Bool) (act : State → State) (s : State) (hc : ∀ a, (act a).idx = a.idx) : (setupFrame sortItem act s).idx = s.idx := by
  unfold setupFrame; (repeat' split) <;> simp_all
theorem setupFrame_table (sortItem : Bool) (act : State → State) (s : State) (hc : ∀ a, (act a).table = a.table) : (setupFrame sortItem act s).table = s.table := by
  unfold setupFrame; (repeat' split) <;> simp_all
theorem setupFrame_eng (sortItem : Bool) (act : State → State) (s : State) (hc : ∀ a, (act a).eng = a.eng) : (setupFrame sortItem act s).eng = s.eng := by
  unfold setupFrame; (repeat' split) <;> simp_all
theorem setupFrame_drift (sortItem : Bool) (act : State → State) (s : State) (hc : ∀ a, (act a).drift = a.drift) : (setupFrame sortItem act s).drift = s.drift := by
  unfold setupFrame; (repeat' split) <;> simp_all
theorem setupFrame_pages (sortItem : Bool) (act : State → State) (s : State) (hc : ∀ a, (act a).pages = a.pages) : (setupFrame sortItem act s).pages = s.pages := by
  unfold setupFrame; (repeat' split) <;> simp_all
theorem setupFrame_gates (sortItem : Bool) (act : State → State) (s : State) (hc : ∀ a, (act a).gates = a.gates) : (setupFrame sortItem act s).gates = s.gates := by
  unfold setupFrame; (repeat' split) <;> simp_all
theorem setupFrame_link (sortItem : Bool) (act : State → State) (s : State) (hc : ∀ a, (act a).link = a.link) : (setupFrame sortItem act s).link = s.link := by
  unfold setupFrame; (repeat' split) <;> simp_all
theorem setupFrame_peers (sortItem : Bool) (act : State → State) (s : State) (hc : ∀ a, (act a).peers = a.peers) : (setupFrame sortItem act s).peers = s.peers := by
  unfold setupFrame; (repeat' split) <;> simp_all
theorem setupFrame_ctl (sortItem : Bool) (act : State → State) (s : State) (hc : ∀ a, (act a).ctl = a.ctl) : (setupFrame sortItem act s).ctl = s.ctl := by
  unfold setupFrame; (repeat' split) <;> simp_all
theorem setupFrame_alerts_mask (sortItem : Bool) (act : State → State) (s : State) (hc : ∀ a, (act a).alerts.mask = a.alerts.mask) : (setupFrame sortItem act s).alerts.mask = s.alerts.mask := by
  unfold setupFrame; (repeat' split) <;> simp_all
theorem setupFrame_alerts_master (sortItem : Bool) (act : State → State) (s : State) (hc : ∀ a, (act a).alerts.master = a.alerts.master) : (setupFrame sortItem act s).alerts.master = s.alerts.master := by
  unfold setupFrame; (repeat' split) <;> simp_all
theorem setupFrame_work_units (sortItem : Bool) (act : State → State) (s : State) (hc : ∀ a, (act a).work.units = a.work.units) : (setupFrame sortItem act s).work.units = s.work.units := by
  unfold setupFrame; (repeat' split) <;> simp_all
theorem setupFrame_work_status (sortItem : Bool) (act : State → State) (s : State) (hc : ∀ a, (act a).work.status = a.work.status) : (setupFrame sortItem act s).work.status = s.work.status := by
  unfold setupFrame; (repeat' split) <;> simp_all
theorem setupFrame_freeDraws (sortItem : Bool) (act : State → State) (s : State) (hc : ∀ a, (act a).freeDraws = a.freeDraws) : (setupFrame sortItem act s).freeDraws = s.freeDraws := by
  unfold setupFrame; (repeat' split) <;> simp_all
theorem setupFrame_pending (sortItem : Bool) (act : State → State) (s : State) (hc : ∀ a, (act a).pending = a.pending) : (setupFrame sortItem act s).pending = s.pending := by
  unfold setupFrame; (repeat' split) <;> simp_all
@[simp] theorem setItems_now (x : Items) (s : State) : (setItems x s).now = s.now := by simp [setItems]
@[simp] theorem setItems_resetHeld (x : Items) (s : State) : (setItems x s).resetHeld = s.resetHeld := by simp [setItems]
@[simp] theorem setItems_idx (x : Items) (s : State) : (setItems x s).idx = s.idx := by simp [setItems]
@[simp] theorem setItems_table (x : Items) (s : State) : (setItems x s).table = s.table := by simp [setItems]
@[simp] theorem setItems_eng (x : Items) (s : State) : (setItems x s).eng = s.eng := by simp [setItems]
@[simp] theorem setItems_drift (x : Items) (s : State) : (setItems x s).drift = s.drift := by simp [setItems]
@[simp] theorem setItems_pages (x : Items) (s : State) : (setItems x s).pages = s.pages := by simp [setItems]
@[simp] theorem setItems_gates (x : Items) (s : State) : (setItems x s).gates = s.gates := by simp [setItems]
@[simp] theorem setItems_link (x : Items) (s : State) : (setItems x s).link = s.link := by simp [setItems]
@[simp] theorem setItems_peers (x : Items) (s : State) : (setItems x s).peers = s.peers := by simp [setItems]
@[simp] theorem setItems_ctl_node (x : Items) (s : State) : (setItems x s).ctl.node = s.ctl.node := by simp [setItems]
@[simp] theorem setItems_ctl_role (x : Items) (s : State) : (setItems x s).ctl.role = s.ctl.role := by simp [setItems]
@[simp] theorem setItems_ctl_run (x : Items) (s : State) : (setItems x s).ctl.run = s.ctl.run := by simp [setItems]
@[simp] theorem setItems_ctl_faultReason (x : Items) (s : State) : (setItems x s).ctl.faultReason = s.ctl.faultReason := by simp [setItems]
@[simp] theorem setItems_ctl_drain (x : Items) (s : State) : (setItems x s).ctl.drain = s.ctl.drain := by simp [setItems]
@[simp] theorem setItems_ctl_activity (x : Items) (s : State) : (setItems x s).ctl.activity = s.ctl.activity := by simp [setItems]
@[simp] theorem setItems_ctl_cause (x : Items) (s : State) : (setItems x s).ctl.cause = s.ctl.cause := by simp [setItems]
@[simp] theorem setItems_ctl_listenDue (x : Items) (s : State) : (setItems x s).ctl.listenDue = s.ctl.listenDue := by simp [setItems]
@[simp] theorem setItems_ctl_hailDue (x : Items) (s : State) : (setItems x s).ctl.hailDue = s.ctl.hailDue := by simp [setItems]
@[simp] theorem setItems_alerts (x : Items) (s : State) : (setItems x s).alerts = s.alerts := by simp [setItems]
@[simp] theorem setItems_work (x : Items) (s : State) : (setItems x s).work = s.work := by simp [setItems]
@[simp] theorem setItems_freeDraws (x : Items) (s : State) : (setItems x s).freeDraws = s.freeDraws := by simp [setItems]
@[simp] theorem setItems_pending (x : Items) (s : State) : (setItems x s).pending = s.pending := by simp [setItems]
@[simp] theorem finishSetup_now (s : State) : (finishSetup s).now = s.now := by
  unfold finishSetup; split <;> simp
@[simp] theorem finishSetup_resetHeld (s : State) : (finishSetup s).resetHeld = s.resetHeld := by
  unfold finishSetup; split <;> simp
@[simp] theorem finishSetup_idx (s : State) : (finishSetup s).idx = s.idx := by
  unfold finishSetup; split <;> simp
@[simp] theorem finishSetup_table (s : State) : (finishSetup s).table = s.table := by
  unfold finishSetup; split <;> simp
@[simp] theorem finishSetup_eng (s : State) : (finishSetup s).eng = s.eng := by
  unfold finishSetup; split <;> simp
@[simp] theorem finishSetup_drift (s : State) : (finishSetup s).drift = s.drift := by
  unfold finishSetup; split <;> simp
@[simp] theorem finishSetup_pages (s : State) : (finishSetup s).pages = s.pages := by
  unfold finishSetup; split <;> simp
@[simp] theorem finishSetup_gates (s : State) : (finishSetup s).gates = s.gates := by
  unfold finishSetup; split <;> simp
@[simp] theorem finishSetup_link (s : State) : (finishSetup s).link = s.link := by
  unfold finishSetup; split <;> simp
@[simp] theorem finishSetup_peers (s : State) : (finishSetup s).peers = s.peers := by
  unfold finishSetup; split <;> simp
@[simp] theorem finishSetup_ctl_node (s : State) : (finishSetup s).ctl.node = s.ctl.node := by
  unfold finishSetup; split <;> simp
@[simp] theorem finishSetup_ctl_role (s : State) : (finishSetup s).ctl.role = s.ctl.role := by
  unfold finishSetup; split <;> simp
@[simp] theorem finishSetup_ctl_faultReason (s : State) : (finishSetup s).ctl.faultReason = s.ctl.faultReason := by
  unfold finishSetup; split <;> simp
@[simp] theorem finishSetup_ctl_activity (s : State) : (finishSetup s).ctl.activity = s.ctl.activity := by
  unfold finishSetup; split <;> simp
@[simp] theorem finishSetup_ctl_cause (s : State) : (finishSetup s).ctl.cause = s.ctl.cause := by
  unfold finishSetup; split <;> simp
@[simp] theorem finishSetup_ctl_listenDue (s : State) : (finishSetup s).ctl.listenDue = s.ctl.listenDue := by
  unfold finishSetup; split <;> simp
@[simp] theorem finishSetup_ctl_items (s : State) : (finishSetup s).ctl.items = s.ctl.items := by
  unfold finishSetup; split <;> simp
@[simp] theorem finishSetup_alerts_mask (s : State) : (finishSetup s).alerts.mask = s.alerts.mask := by
  unfold finishSetup; split <;> simp
@[simp] theorem finishSetup_alerts_master (s : State) : (finishSetup s).alerts.master = s.alerts.master := by
  unfold finishSetup; split <;> simp
@[simp] theorem finishSetup_work_units (s : State) : (finishSetup s).work.units = s.work.units := by
  unfold finishSetup; split <;> simp
@[simp] theorem finishSetup_work_status (s : State) : (finishSetup s).work.status = s.work.status := by
  unfold finishSetup; split <;> simp
@[simp] theorem finishSetup_freeDraws (s : State) : (finishSetup s).freeDraws = s.freeDraws := by
  unfold finishSetup; split <;> simp
@[simp] theorem finishSetup_pending (s : State) : (finishSetup s).pending = s.pending := by
  unfold finishSetup; split <;> simp
@[simp] theorem setupItem_now (item : BitVec 8) (v : Dev) (s : State) : (setupItem item v s).now = s.now := by
  unfold setupItem; (repeat' split) <;> simp_all
@[simp] theorem setupItem_resetHeld (item : BitVec 8) (v : Dev) (s : State) : (setupItem item v s).resetHeld = s.resetHeld := by
  unfold setupItem; (repeat' split) <;> simp_all
@[simp] theorem setupItem_idx_count (item : BitVec 8) (v : Dev) (s : State) : (setupItem item v s).idx.count = s.idx.count := by
  unfold setupItem; (repeat' split) <;> simp_all
@[simp] theorem setupItem_idx_lastIndex (item : BitVec 8) (v : Dev) (s : State) : (setupItem item v s).idx.lastIndex = s.idx.lastIndex := by
  unfold setupItem; (repeat' split) <;> simp_all
@[simp] theorem setupItem_idx_currentPage (item : BitVec 8) (v : Dev) (s : State) : (setupItem item v s).idx.currentPage = s.idx.currentPage := by
  unfold setupItem; (repeat' split) <;> simp_all
@[simp] theorem setupItem_idx_measReq (item : BitVec 8) (v : Dev) (s : State) : (setupItem item v s).idx.measReq = s.idx.measReq := by
  unfold setupItem; (repeat' split) <;> simp_all
@[simp] theorem setupItem_idx_firingReq (item : BitVec 8) (v : Dev) (s : State) : (setupItem item v s).idx.firingReq = s.idx.firingReq := by
  unfold setupItem; (repeat' split) <;> simp_all
@[simp] theorem setupItem_eng (item : BitVec 8) (v : Dev) (s : State) : (setupItem item v s).eng = s.eng := by
  unfold setupItem; (repeat' split) <;> simp_all
@[simp] theorem setupItem_drift (item : BitVec 8) (v : Dev) (s : State) : (setupItem item v s).drift = s.drift := by
  unfold setupItem; (repeat' split) <;> simp_all
@[simp] theorem setupItem_pages (item : BitVec 8) (v : Dev) (s : State) : (setupItem item v s).pages = s.pages := by
  unfold setupItem; (repeat' split) <;> simp_all
@[simp] theorem setupItem_gates_firings (item : BitVec 8) (v : Dev) (s : State) : (setupItem item v s).gates.firings = s.gates.firings := by
  unfold setupItem; (repeat' split) <;> simp_all
@[simp] theorem setupItem_gates_drivers (item : BitVec 8) (v : Dev) (s : State) : (setupItem item v s).gates.drivers = s.gates.drivers := by
  unfold setupItem; (repeat' split) <;> simp_all
@[simp] theorem setupItem_gates_binTallies (item : BitVec 8) (v : Dev) (s : State) : (setupItem item v s).gates.binTallies = s.gates.binTallies := by
  unfold setupItem; (repeat' split) <;> simp_all
@[simp] theorem setupItem_link (item : BitVec 8) (v : Dev) (s : State) : (setupItem item v s).link = s.link := by
  unfold setupItem; (repeat' split) <;> simp_all
@[simp] theorem setupItem_peers (item : BitVec 8) (v : Dev) (s : State) : (setupItem item v s).peers = s.peers := by
  unfold setupItem; (repeat' split) <;> simp_all
@[simp] theorem setupItem_ctl_node (item : BitVec 8) (v : Dev) (s : State) : (setupItem item v s).ctl.node = s.ctl.node := by
  unfold setupItem; (repeat' split) <;> simp_all
@[simp] theorem setupItem_ctl_role (item : BitVec 8) (v : Dev) (s : State) : (setupItem item v s).ctl.role = s.ctl.role := by
  unfold setupItem; (repeat' split) <;> simp_all
@[simp] theorem setupItem_ctl_faultReason (item : BitVec 8) (v : Dev) (s : State) : (setupItem item v s).ctl.faultReason = s.ctl.faultReason := by
  unfold setupItem; (repeat' split) <;> simp_all
@[simp] theorem setupItem_ctl_activity (item : BitVec 8) (v : Dev) (s : State) : (setupItem item v s).ctl.activity = s.ctl.activity := by
  unfold setupItem; (repeat' split) <;> simp_all
@[simp] theorem setupItem_ctl_cause (item : BitVec 8) (v : Dev) (s : State) : (setupItem item v s).ctl.cause = s.ctl.cause := by
  unfold setupItem; (repeat' split) <;> simp_all
@[simp] theorem setupItem_ctl_listenDue (item : BitVec 8) (v : Dev) (s : State) : (setupItem item v s).ctl.listenDue = s.ctl.listenDue := by
  unfold setupItem; (repeat' split) <;> simp_all
@[simp] theorem setupItem_alerts_mask (item : BitVec 8) (v : Dev) (s : State) : (setupItem item v s).alerts.mask = s.alerts.mask := by
  unfold setupItem; (repeat' split) <;> simp_all
@[simp] theorem setupItem_alerts_master (item : BitVec 8) (v : Dev) (s : State) : (setupItem item v s).alerts.master = s.alerts.master := by
  unfold setupItem; (repeat' split) <;> simp_all
@[simp] theorem setupItem_work_units (item : BitVec 8) (v : Dev) (s : State) : (setupItem item v s).work.units = s.work.units := by
  unfold setupItem; (repeat' split) <;> simp_all
@[simp] theorem setupItem_work_status (item : BitVec 8) (v : Dev) (s : State) : (setupItem item v s).work.status = s.work.status := by
  unfold setupItem; (repeat' split) <;> simp_all
@[simp] theorem setupItem_freeDraws (item : BitVec 8) (v : Dev) (s : State) : (setupItem item v s).freeDraws = s.freeDraws := by
  unfold setupItem; (repeat' split) <;> simp_all
@[simp] theorem setupItem_pending (item : BitVec 8) (v : Dev) (s : State) : (setupItem item v s).pending = s.pending := by
  unfold setupItem; (repeat' split) <;> simp_all
@[simp] theorem setPosition_now (v : Dev) (s : State) : (setPosition v s).now = s.now := by simp [setPosition]
@[simp] theorem setPosition_resetHeld (v : Dev) (s : State) : (setPosition v s).resetHeld = s.resetHeld := by simp [setPosition]
@[simp] theorem setPosition_idx_count (v : Dev) (s : State) : (setPosition v s).idx.count = s.idx.count := by simp [setPosition]
@[simp] theorem setPosition_idx_lastIndex (v : Dev) (s : State) : (setPosition v s).idx.lastIndex = s.idx.lastIndex := by simp [setPosition]
@[simp] theorem setPosition_idx_currentPage (v : Dev) (s : State) : (setPosition v s).idx.currentPage = s.idx.currentPage := by simp [setPosition]
@[simp] theorem setPosition_idx_measReq (v : Dev) (s : State) : (setPosition v s).idx.measReq = s.idx.measReq := by simp [setPosition]
@[simp] theorem setPosition_idx_firingReq (v : Dev) (s : State) : (setPosition v s).idx.firingReq = s.idx.firingReq := by simp [setPosition]
@[simp] theorem setPosition_eng (v : Dev) (s : State) : (setPosition v s).eng = s.eng := by simp [setPosition]
@[simp] theorem setPosition_drift (v : Dev) (s : State) : (setPosition v s).drift = s.drift := by simp [setPosition]
@[simp] theorem setPosition_pages (v : Dev) (s : State) : (setPosition v s).pages = s.pages := by simp [setPosition]
@[simp] theorem setPosition_gates_firings (v : Dev) (s : State) : (setPosition v s).gates.firings = s.gates.firings := by simp [setPosition]
@[simp] theorem setPosition_gates_drivers (v : Dev) (s : State) : (setPosition v s).gates.drivers = s.gates.drivers := by simp [setPosition]
@[simp] theorem setPosition_gates_binTallies (v : Dev) (s : State) : (setPosition v s).gates.binTallies = s.gates.binTallies := by simp [setPosition]
@[simp] theorem setPosition_link (v : Dev) (s : State) : (setPosition v s).link = s.link := by simp [setPosition]
@[simp] theorem setPosition_peers (v : Dev) (s : State) : (setPosition v s).peers = s.peers := by simp [setPosition]
@[simp] theorem setPosition_ctl_node (v : Dev) (s : State) : (setPosition v s).ctl.node = s.ctl.node := by simp [setPosition]
@[simp] theorem setPosition_ctl_role (v : Dev) (s : State) : (setPosition v s).ctl.role = s.ctl.role := by simp [setPosition]
@[simp] theorem setPosition_ctl_run (v : Dev) (s : State) : (setPosition v s).ctl.run = s.ctl.run := by simp [setPosition]
@[simp] theorem setPosition_ctl_faultReason (v : Dev) (s : State) : (setPosition v s).ctl.faultReason = s.ctl.faultReason := by simp [setPosition]
@[simp] theorem setPosition_ctl_drain (v : Dev) (s : State) : (setPosition v s).ctl.drain = s.ctl.drain := by simp [setPosition]
@[simp] theorem setPosition_ctl_activity (v : Dev) (s : State) : (setPosition v s).ctl.activity = s.ctl.activity := by simp [setPosition]
@[simp] theorem setPosition_ctl_cause (v : Dev) (s : State) : (setPosition v s).ctl.cause = s.ctl.cause := by simp [setPosition]
@[simp] theorem setPosition_ctl_listenDue (v : Dev) (s : State) : (setPosition v s).ctl.listenDue = s.ctl.listenDue := by simp [setPosition]
@[simp] theorem setPosition_ctl_hailDue (v : Dev) (s : State) : (setPosition v s).ctl.hailDue = s.ctl.hailDue := by simp [setPosition]
@[simp] theorem setPosition_alerts (v : Dev) (s : State) : (setPosition v s).alerts = s.alerts := by simp [setPosition]
@[simp] theorem setPosition_work_units (v : Dev) (s : State) : (setPosition v s).work.units = s.work.units := by simp [setPosition]
@[simp] theorem setPosition_work_status (v : Dev) (s : State) : (setPosition v s).work.status = s.work.status := by simp [setPosition]
@[simp] theorem setPosition_freeDraws (v : Dev) (s : State) : (setPosition v s).freeDraws = s.freeDraws := by simp [setPosition]
@[simp] theorem setPosition_pending (v : Dev) (s : State) : (setPosition v s).pending = s.pending := by simp [setPosition]
@[simp] theorem setGatePos_now (g : Fin 16) (v : Dev) (s : State) : (setGatePos g v s).now = s.now := by simp [setGatePos]
@[simp] theorem setGatePos_resetHeld (g : Fin 16) (v : Dev) (s : State) : (setGatePos g v s).resetHeld = s.resetHeld := by simp [setGatePos]
@[simp] theorem setGatePos_idx_count (g : Fin 16) (v : Dev) (s : State) : (setGatePos g v s).idx.count = s.idx.count := by simp [setGatePos]
@[simp] theorem setGatePos_idx_lastIndex (g : Fin 16) (v : Dev) (s : State) : (setGatePos g v s).idx.lastIndex = s.idx.lastIndex := by simp [setGatePos]
@[simp] theorem setGatePos_idx_currentPage (g : Fin 16) (v : Dev) (s : State) : (setGatePos g v s).idx.currentPage = s.idx.currentPage := by simp [setGatePos]
@[simp] theorem setGatePos_idx_measReq (g : Fin 16) (v : Dev) (s : State) : (setGatePos g v s).idx.measReq = s.idx.measReq := by simp [setGatePos]
@[simp] theorem setGatePos_idx_firingReq (g : Fin 16) (v : Dev) (s : State) : (setGatePos g v s).idx.firingReq = s.idx.firingReq := by simp [setGatePos]
@[simp] theorem setGatePos_eng (g : Fin 16) (v : Dev) (s : State) : (setGatePos g v s).eng = s.eng := by simp [setGatePos]
@[simp] theorem setGatePos_drift (g : Fin 16) (v : Dev) (s : State) : (setGatePos g v s).drift = s.drift := by simp [setGatePos]
@[simp] theorem setGatePos_pages (g : Fin 16) (v : Dev) (s : State) : (setGatePos g v s).pages = s.pages := by simp [setGatePos]
@[simp] theorem setGatePos_gates_firings (g : Fin 16) (v : Dev) (s : State) : (setGatePos g v s).gates.firings = s.gates.firings := by simp [setGatePos]
@[simp] theorem setGatePos_gates_drivers (g : Fin 16) (v : Dev) (s : State) : (setGatePos g v s).gates.drivers = s.gates.drivers := by simp [setGatePos]
@[simp] theorem setGatePos_gates_binTallies (g : Fin 16) (v : Dev) (s : State) : (setGatePos g v s).gates.binTallies = s.gates.binTallies := by simp [setGatePos]
@[simp] theorem setGatePos_link (g : Fin 16) (v : Dev) (s : State) : (setGatePos g v s).link = s.link := by simp [setGatePos]
@[simp] theorem setGatePos_peers (g : Fin 16) (v : Dev) (s : State) : (setGatePos g v s).peers = s.peers := by simp [setGatePos]
@[simp] theorem setGatePos_ctl_node (g : Fin 16) (v : Dev) (s : State) : (setGatePos g v s).ctl.node = s.ctl.node := by simp [setGatePos]
@[simp] theorem setGatePos_ctl_role (g : Fin 16) (v : Dev) (s : State) : (setGatePos g v s).ctl.role = s.ctl.role := by simp [setGatePos]
@[simp] theorem setGatePos_ctl_run (g : Fin 16) (v : Dev) (s : State) : (setGatePos g v s).ctl.run = s.ctl.run := by simp [setGatePos]
@[simp] theorem setGatePos_ctl_faultReason (g : Fin 16) (v : Dev) (s : State) : (setGatePos g v s).ctl.faultReason = s.ctl.faultReason := by simp [setGatePos]
@[simp] theorem setGatePos_ctl_drain (g : Fin 16) (v : Dev) (s : State) : (setGatePos g v s).ctl.drain = s.ctl.drain := by simp [setGatePos]
@[simp] theorem setGatePos_ctl_activity (g : Fin 16) (v : Dev) (s : State) : (setGatePos g v s).ctl.activity = s.ctl.activity := by simp [setGatePos]
@[simp] theorem setGatePos_ctl_cause (g : Fin 16) (v : Dev) (s : State) : (setGatePos g v s).ctl.cause = s.ctl.cause := by simp [setGatePos]
@[simp] theorem setGatePos_ctl_listenDue (g : Fin 16) (v : Dev) (s : State) : (setGatePos g v s).ctl.listenDue = s.ctl.listenDue := by simp [setGatePos]
@[simp] theorem setGatePos_ctl_hailDue (g : Fin 16) (v : Dev) (s : State) : (setGatePos g v s).ctl.hailDue = s.ctl.hailDue := by simp [setGatePos]
@[simp] theorem setGatePos_alerts (g : Fin 16) (v : Dev) (s : State) : (setGatePos g v s).alerts = s.alerts := by simp [setGatePos]
@[simp] theorem setGatePos_work_units (g : Fin 16) (v : Dev) (s : State) : (setGatePos g v s).work.units = s.work.units := by simp [setGatePos]
@[simp] theorem setGatePos_work_status (g : Fin 16) (v : Dev) (s : State) : (setGatePos g v s).work.status = s.work.status := by simp [setGatePos]
@[simp] theorem setGatePos_freeDraws (g : Fin 16) (v : Dev) (s : State) : (setGatePos g v s).freeDraws = s.freeDraws := by simp [setGatePos]
@[simp] theorem setGatePos_pending (g : Fin 16) (v : Dev) (s : State) : (setGatePos g v s).pending = s.pending := by simp [setGatePos]
@[simp] theorem clearBin_now (page : BitVec 4) (bin : BitVec 8) (s : State) : (clearBin page bin s).now = s.now := by
  unfold clearBin; (repeat' split) <;> simp_all
@[simp] theorem clearBin_resetHeld (page : BitVec 4) (bin : BitVec 8) (s : State) : (clearBin page bin s).resetHeld = s.resetHeld := by
  unfold clearBin; (repeat' split) <;> simp_all
@[simp] theorem clearBin_idx (page : BitVec 4) (bin : BitVec 8) (s : State) : (clearBin page bin s).idx = s.idx := by
  unfold clearBin; (repeat' split) <;> simp_all
@[simp] theorem clearBin_table (page : BitVec 4) (bin : BitVec 8) (s : State) : (clearBin page bin s).table = s.table := by
  unfold clearBin; (repeat' split) <;> simp_all
@[simp] theorem clearBin_eng (page : BitVec 4) (bin : BitVec 8) (s : State) : (clearBin page bin s).eng = s.eng := by
  unfold clearBin; (repeat' split) <;> simp_all
@[simp] theorem clearBin_drift (page : BitVec 4) (bin : BitVec 8) (s : State) : (clearBin page bin s).drift = s.drift := by
  unfold clearBin; (repeat' split) <;> simp_all
@[simp] theorem clearBin_pages (page : BitVec 4) (bin : BitVec 8) (s : State) : (clearBin page bin s).pages = s.pages := by
  unfold clearBin; (repeat' split) <;> simp_all
@[simp] theorem clearBin_gates_firings (page : BitVec 4) (bin : BitVec 8) (s : State) : (clearBin page bin s).gates.firings = s.gates.firings := by
  unfold clearBin; (repeat' split) <;> simp_all
@[simp] theorem clearBin_gates_drivers (page : BitVec 4) (bin : BitVec 8) (s : State) : (clearBin page bin s).gates.drivers = s.gates.drivers := by
  unfold clearBin; (repeat' split) <;> simp_all
@[simp] theorem clearBin_gates_reasonTallies (page : BitVec 4) (bin : BitVec 8) (s : State) : (clearBin page bin s).gates.reasonTallies = s.gates.reasonTallies := by
  unfold clearBin; (repeat' split) <;> simp_all
@[simp] theorem clearBin_link (page : BitVec 4) (bin : BitVec 8) (s : State) : (clearBin page bin s).link = s.link := by
  unfold clearBin; (repeat' split) <;> simp_all
@[simp] theorem clearBin_peers (page : BitVec 4) (bin : BitVec 8) (s : State) : (clearBin page bin s).peers = s.peers := by
  unfold clearBin; (repeat' split) <;> simp_all
@[simp] theorem clearBin_ctl (page : BitVec 4) (bin : BitVec 8) (s : State) : (clearBin page bin s).ctl = s.ctl := by
  unfold clearBin; (repeat' split) <;> simp_all
@[simp] theorem clearBin_alerts_mask (page : BitVec 4) (bin : BitVec 8) (s : State) : (clearBin page bin s).alerts.mask = s.alerts.mask := by
  unfold clearBin; (repeat' split) <;> simp_all
@[simp] theorem clearBin_alerts_master (page : BitVec 4) (bin : BitVec 8) (s : State) : (clearBin page bin s).alerts.master = s.alerts.master := by
  unfold clearBin; (repeat' split) <;> simp_all
@[simp] theorem clearBin_work_units (page : BitVec 4) (bin : BitVec 8) (s : State) : (clearBin page bin s).work.units = s.work.units := by
  unfold clearBin; (repeat' split) <;> simp_all
@[simp] theorem clearBin_work_status (page : BitVec 4) (bin : BitVec 8) (s : State) : (clearBin page bin s).work.status = s.work.status := by
  unfold clearBin; (repeat' split) <;> simp_all
@[simp] theorem clearBin_freeDraws (page : BitVec 4) (bin : BitVec 8) (s : State) : (clearBin page bin s).freeDraws = s.freeDraws := by
  unfold clearBin; (repeat' split) <;> simp_all
@[simp] theorem clearBin_pending (page : BitVec 4) (bin : BitVec 8) (s : State) : (clearBin page bin s).pending = s.pending := by
  unfold clearBin; (repeat' split) <;> simp_all
@[simp] theorem clearFlags_now (form : ClearForm) (s : State) : (clearFlags form s).now = s.now := by
  unfold clearFlags; dsimp only; (repeat' split) <;> simp
@[simp] theorem clearFlags_resetHeld (form : ClearForm) (s : State) : (clearFlags form s).resetHeld = s.resetHeld := by
  unfold clearFlags; dsimp only; (repeat' split) <;> simp
@[simp] theorem clearFlags_idx (form : ClearForm) (s : State) : (clearFlags form s).idx = s.idx := by
  unfold clearFlags; dsimp only; (repeat' split) <;> simp
@[simp] theorem clearFlags_table (form : ClearForm) (s : State) : (clearFlags form s).table = s.table := by
  unfold clearFlags; dsimp only; (repeat' split) <;> simp
@[simp] theorem clearFlags_eng (form : ClearForm) (s : State) : (clearFlags form s).eng = s.eng := by
  unfold clearFlags; dsimp only; (repeat' split) <;> simp
@[simp] theorem clearFlags_drift (form : ClearForm) (s : State) : (clearFlags form s).drift = s.drift := by
  unfold clearFlags; dsimp only; (repeat' split) <;> simp
@[simp] theorem clearFlags_pages (form : ClearForm) (s : State) : (clearFlags form s).pages = s.pages := by
  unfold clearFlags; dsimp only; (repeat' split) <;> simp
@[simp] theorem clearFlags_gates (form : ClearForm) (s : State) : (clearFlags form s).gates = s.gates := by
  unfold clearFlags; dsimp only; (repeat' split) <;> simp
@[simp] theorem clearFlags_link (form : ClearForm) (s : State) : (clearFlags form s).link = s.link := by
  unfold clearFlags; dsimp only; (repeat' split) <;> simp
@[simp] theorem clearFlags_peers (form : ClearForm) (s : State) : (clearFlags form s).peers = s.peers := by
  unfold clearFlags; dsimp only; (repeat' split) <;> simp
@[simp] theorem clearFlags_ctl (form : ClearForm) (s : State) : (clearFlags form s).ctl = s.ctl := by
  unfold clearFlags; dsimp only; (repeat' split) <;> simp
@[simp] theorem clearFlags_alerts_mask (form : ClearForm) (s : State) : (clearFlags form s).alerts.mask = s.alerts.mask := by
  unfold clearFlags; dsimp only; (repeat' split) <;> simp
@[simp] theorem clearFlags_alerts_master (form : ClearForm) (s : State) : (clearFlags form s).alerts.master = s.alerts.master := by
  unfold clearFlags; dsimp only; (repeat' split) <;> simp
@[simp] theorem clearFlags_work_units (form : ClearForm) (s : State) : (clearFlags form s).work.units = s.work.units := by
  unfold clearFlags; dsimp only; (repeat' split) <;> simp
@[simp] theorem clearFlags_work_status (form : ClearForm) (s : State) : (clearFlags form s).work.status = s.work.status := by
  unfold clearFlags; dsimp only; (repeat' split) <;> simp
@[simp] theorem clearFlags_freeDraws (form : ClearForm) (s : State) : (clearFlags form s).freeDraws = s.freeDraws := by
  unfold clearFlags; dsimp only; (repeat' split) <;> simp
@[simp] theorem clearFlags_pending (form : ClearForm) (s : State) : (clearFlags form s).pending = s.pending := by
  unfold clearFlags; dsimp only; (repeat' split) <;> simp
@[simp] theorem setMask_now (word : BitVec 32) (master : Bool) (s : State) : (setMask word master s).now = s.now := by
  unfold setMask; split <;> simp
@[simp] theorem setMask_resetHeld (word : BitVec 32) (master : Bool) (s : State) : (setMask word master s).resetHeld = s.resetHeld := by
  unfold setMask; split <;> simp
@[simp] theorem setMask_idx (word : BitVec 32) (master : Bool) (s : State) : (setMask word master s).idx = s.idx := by
  unfold setMask; split <;> simp
@[simp] theorem setMask_table (word : BitVec 32) (master : Bool) (s : State) : (setMask word master s).table = s.table := by
  unfold setMask; split <;> simp
@[simp] theorem setMask_eng (word : BitVec 32) (master : Bool) (s : State) : (setMask word master s).eng = s.eng := by
  unfold setMask; split <;> simp
@[simp] theorem setMask_drift (word : BitVec 32) (master : Bool) (s : State) : (setMask word master s).drift = s.drift := by
  unfold setMask; split <;> simp
@[simp] theorem setMask_pages (word : BitVec 32) (master : Bool) (s : State) : (setMask word master s).pages = s.pages := by
  unfold setMask; split <;> simp
@[simp] theorem setMask_gates (word : BitVec 32) (master : Bool) (s : State) : (setMask word master s).gates = s.gates := by
  unfold setMask; split <;> simp
@[simp] theorem setMask_link (word : BitVec 32) (master : Bool) (s : State) : (setMask word master s).link = s.link := by
  unfold setMask; split <;> simp
@[simp] theorem setMask_peers (word : BitVec 32) (master : Bool) (s : State) : (setMask word master s).peers = s.peers := by
  unfold setMask; split <;> simp
@[simp] theorem setMask_ctl (word : BitVec 32) (master : Bool) (s : State) : (setMask word master s).ctl = s.ctl := by
  unfold setMask; split <;> simp
@[simp] theorem setMask_alerts_word (word : BitVec 32) (master : Bool) (s : State) : (setMask word master s).alerts.word = s.alerts.word := by
  unfold setMask; split <;> simp
@[simp] theorem setMask_work (word : BitVec 32) (master : Bool) (s : State) : (setMask word master s).work = s.work := by
  unfold setMask; split <;> simp
@[simp] theorem setMask_freeDraws (word : BitVec 32) (master : Bool) (s : State) : (setMask word master s).freeDraws = s.freeDraws := by
  unfold setMask; split <;> simp
@[simp] theorem setMask_pending (word : BitVec 32) (master : Bool) (s : State) : (setMask word master s).pending = s.pending := by
  unfold setMask; split <;> simp
theorem muteFrame_now (act : State → State) (s : State) (hc : ∀ a, (act a).now = a.now) : (muteFrame act s).now = s.now := by
  unfold muteFrame; split <;> simp [hc]
theorem muteFrame_resetHeld (act : State → State) (s : State) (hc : ∀ a, (act a).resetHeld = a.resetHeld) : (muteFrame act s).resetHeld = s.resetHeld := by
  unfold muteFrame; split <;> simp [hc]
theorem muteFrame_idx (act : State → State) (s : State) (hc : ∀ a, (act a).idx = a.idx) : (muteFrame act s).idx = s.idx := by
  unfold muteFrame; split <;> simp [hc]
theorem muteFrame_table (act : State → State) (s : State) (hc : ∀ a, (act a).table = a.table) : (muteFrame act s).table = s.table := by
  unfold muteFrame; split <;> simp [hc]
theorem muteFrame_eng (act : State → State) (s : State) (hc : ∀ a, (act a).eng = a.eng) : (muteFrame act s).eng = s.eng := by
  unfold muteFrame; split <;> simp [hc]
theorem muteFrame_drift (act : State → State) (s : State) (hc : ∀ a, (act a).drift = a.drift) : (muteFrame act s).drift = s.drift := by
  unfold muteFrame; split <;> simp [hc]
theorem muteFrame_pages (act : State → State) (s : State) (hc : ∀ a, (act a).pages = a.pages) : (muteFrame act s).pages = s.pages := by
  unfold muteFrame; split <;> simp [hc]
theorem muteFrame_gates (act : State → State) (s : State) (hc : ∀ a, (act a).gates = a.gates) : (muteFrame act s).gates = s.gates := by
  unfold muteFrame; split <;> simp [hc]
theorem muteFrame_link (act : State → State) (s : State) (hc : ∀ a, (act a).link = a.link) : (muteFrame act s).link = s.link := by
  unfold muteFrame; split <;> simp [hc]
theorem muteFrame_peers (act : State → State) (s : State) (hc : ∀ a, (act a).peers = a.peers) : (muteFrame act s).peers = s.peers := by
  unfold muteFrame; split <;> simp [hc]
theorem muteFrame_ctl (act : State → State) (s : State) (hc : ∀ a, (act a).ctl = a.ctl) : (muteFrame act s).ctl = s.ctl := by
  unfold muteFrame; split <;> simp [hc]
theorem muteFrame_alerts (act : State → State) (s : State) (hc : ∀ a, (act a).alerts = a.alerts) : (muteFrame act s).alerts = s.alerts := by
  unfold muteFrame; split <;> simp [hc]
theorem muteFrame_work (act : State → State) (s : State) (hc : ∀ a, (act a).work = a.work) : (muteFrame act s).work = s.work := by
  unfold muteFrame; split <;> simp [hc]
theorem muteFrame_freeDraws (act : State → State) (s : State) (hc : ∀ a, (act a).freeDraws = a.freeDraws) : (muteFrame act s).freeDraws = s.freeDraws := by
  unfold muteFrame; split <;> simp [hc]
theorem muteFrame_pending (act : State → State) (s : State) (hc : ∀ a, (act a).pending = a.pending) : (muteFrame act s).pending = s.pending := by
  unfold muteFrame; split <;> simp [hc]
@[simp] theorem muteStation_now (s : State) : (muteStation s).now = s.now := by
  unfold muteStation; split <;> simp
@[simp] theorem muteStation_resetHeld (s : State) : (muteStation s).resetHeld = s.resetHeld := by
  unfold muteStation; split <;> simp
@[simp] theorem muteStation_idx_count (s : State) : (muteStation s).idx.count = s.idx.count := by
  unfold muteStation; split <;> simp
@[simp] theorem muteStation_idx_lastIndex (s : State) : (muteStation s).idx.lastIndex = s.idx.lastIndex := by
  unfold muteStation; split <;> simp
@[simp] theorem muteStation_idx_retireLimit (s : State) : (muteStation s).idx.retireLimit = s.idx.retireLimit := by
  unfold muteStation; split <;> simp
@[simp] theorem muteStation_idx_currentPage (s : State) : (muteStation s).idx.currentPage = s.idx.currentPage := by
  unfold muteStation; split <;> simp
@[simp] theorem muteStation_eng_recentPage (s : State) : (muteStation s).eng.recentPage = s.eng.recentPage := by
  unfold muteStation; split <;> simp
@[simp] theorem muteStation_drift (s : State) : (muteStation s).drift = s.drift := by
  unfold muteStation; split <;> simp
@[simp] theorem muteStation_pages (s : State) : (muteStation s).pages = s.pages := by
  unfold muteStation; split <;> simp
@[simp] theorem muteStation_gates_binTallies (s : State) : (muteStation s).gates.binTallies = s.gates.binTallies := by
  unfold muteStation; split <;> simp
@[simp] theorem muteStation_link_lineIdle (s : State) : (muteStation s).link.lineIdle = s.link.lineIdle := by
  unfold muteStation; split <;> simp
@[simp] theorem muteStation_link_quietSince (s : State) : (muteStation s).link.quietSince = s.link.quietSince := by
  unfold muteStation; split <;> simp
@[simp] theorem muteStation_link_deferral (s : State) : (muteStation s).link.deferral = s.link.deferral := by
  unfold muteStation; split <;> simp
@[simp] theorem muteStation_link_lastSender (s : State) : (muteStation s).link.lastSender = s.link.lastSender := by
  unfold muteStation; split <;> simp
@[simp] theorem muteStation_peers (s : State) : (muteStation s).peers = s.peers := by
  unfold muteStation; split <;> simp
@[simp] theorem muteStation_ctl_node (s : State) : (muteStation s).ctl.node = s.ctl.node := by
  unfold muteStation; split <;> simp
@[simp] theorem muteStation_ctl_role (s : State) : (muteStation s).ctl.role = s.ctl.role := by
  unfold muteStation; split <;> simp
@[simp] theorem muteStation_ctl_run (s : State) : (muteStation s).ctl.run = s.ctl.run := by
  unfold muteStation; split <;> simp
@[simp] theorem muteStation_ctl_faultReason (s : State) : (muteStation s).ctl.faultReason = s.ctl.faultReason := by
  unfold muteStation; split <;> simp
@[simp] theorem muteStation_ctl_drain (s : State) : (muteStation s).ctl.drain = s.ctl.drain := by
  unfold muteStation; split <;> simp
@[simp] theorem muteStation_ctl_cause (s : State) : (muteStation s).ctl.cause = s.ctl.cause := by
  unfold muteStation; split <;> simp
@[simp] theorem muteStation_ctl_listenDue (s : State) : (muteStation s).ctl.listenDue = s.ctl.listenDue := by
  unfold muteStation; split <;> simp
@[simp] theorem muteStation_ctl_items (s : State) : (muteStation s).ctl.items = s.ctl.items := by
  unfold muteStation; split <;> simp
@[simp] theorem muteStation_alerts_mask (s : State) : (muteStation s).alerts.mask = s.alerts.mask := by
  unfold muteStation; split <;> simp
@[simp] theorem muteStation_alerts_master (s : State) : (muteStation s).alerts.master = s.alerts.master := by
  unfold muteStation; split <;> simp
@[simp] theorem muteStation_work_units (s : State) : (muteStation s).work.units = s.work.units := by
  unfold muteStation; split <;> simp
@[simp] theorem muteStation_work_status (s : State) : (muteStation s).work.status = s.work.status := by
  unfold muteStation; split <;> simp
@[simp] theorem muteStation_freeDraws (s : State) : (muteStation s).freeDraws = s.freeDraws := by
  unfold muteStation; split <;> simp
@[simp] theorem muteStation_pending (s : State) : (muteStation s).pending = s.pending := by
  unfold muteStation; split <;> simp
@[simp] theorem unmuteStation_now (s : State) : (unmuteStation s).now = s.now := by
  unfold unmuteStation; split <;> simp
@[simp] theorem unmuteStation_resetHeld (s : State) : (unmuteStation s).resetHeld = s.resetHeld := by
  unfold unmuteStation; split <;> simp
@[simp] theorem unmuteStation_idx (s : State) : (unmuteStation s).idx = s.idx := by
  unfold unmuteStation; split <;> simp
@[simp] theorem unmuteStation_table (s : State) : (unmuteStation s).table = s.table := by
  unfold unmuteStation; split <;> simp
@[simp] theorem unmuteStation_eng (s : State) : (unmuteStation s).eng = s.eng := by
  unfold unmuteStation; split <;> simp
@[simp] theorem unmuteStation_drift (s : State) : (unmuteStation s).drift = s.drift := by
  unfold unmuteStation; split <;> simp
@[simp] theorem unmuteStation_pages (s : State) : (unmuteStation s).pages = s.pages := by
  unfold unmuteStation; split <;> simp
@[simp] theorem unmuteStation_gates (s : State) : (unmuteStation s).gates = s.gates := by
  unfold unmuteStation; split <;> simp
@[simp] theorem unmuteStation_link (s : State) : (unmuteStation s).link = s.link := by
  unfold unmuteStation; split <;> simp
@[simp] theorem unmuteStation_peers (s : State) : (unmuteStation s).peers = s.peers := by
  unfold unmuteStation; split <;> simp
@[simp] theorem unmuteStation_ctl_node (s : State) : (unmuteStation s).ctl.node = s.ctl.node := by
  unfold unmuteStation; split <;> simp
@[simp] theorem unmuteStation_ctl_role (s : State) : (unmuteStation s).ctl.role = s.ctl.role := by
  unfold unmuteStation; split <;> simp
@[simp] theorem unmuteStation_ctl_run (s : State) : (unmuteStation s).ctl.run = s.ctl.run := by
  unfold unmuteStation; split <;> simp
@[simp] theorem unmuteStation_ctl_faultReason (s : State) : (unmuteStation s).ctl.faultReason = s.ctl.faultReason := by
  unfold unmuteStation; split <;> simp
@[simp] theorem unmuteStation_ctl_drain (s : State) : (unmuteStation s).ctl.drain = s.ctl.drain := by
  unfold unmuteStation; split <;> simp
@[simp] theorem unmuteStation_ctl_cause (s : State) : (unmuteStation s).ctl.cause = s.ctl.cause := by
  unfold unmuteStation; split <;> simp
@[simp] theorem unmuteStation_ctl_listenDue (s : State) : (unmuteStation s).ctl.listenDue = s.ctl.listenDue := by
  unfold unmuteStation; split <;> simp
@[simp] theorem unmuteStation_ctl_items (s : State) : (unmuteStation s).ctl.items = s.ctl.items := by
  unfold unmuteStation; split <;> simp
@[simp] theorem unmuteStation_alerts (s : State) : (unmuteStation s).alerts = s.alerts := by
  unfold unmuteStation; split <;> simp
@[simp] theorem unmuteStation_work_units (s : State) : (unmuteStation s).work.units = s.work.units := by
  unfold unmuteStation; split <;> simp
@[simp] theorem unmuteStation_work_status (s : State) : (unmuteStation s).work.status = s.work.status := by
  unfold unmuteStation; split <;> simp
@[simp] theorem unmuteStation_freeDraws (s : State) : (unmuteStation s).freeDraws = s.freeDraws := by
  unfold unmuteStation; split <;> simp
@[simp] theorem unmuteStation_pending (s : State) : (unmuteStation s).pending = s.pending := by
  unfold unmuteStation; split <;> simp
@[simp] theorem releaseEngine_now (s : State) : (releaseEngine s).now = s.now := by simp [releaseEngine]
@[simp] theorem releaseEngine_resetHeld (s : State) : (releaseEngine s).resetHeld = s.resetHeld := by simp [releaseEngine]
@[simp] theorem releaseEngine_idx_count (s : State) : (releaseEngine s).idx.count = s.idx.count := by simp [releaseEngine]
@[simp] theorem releaseEngine_idx_lastIndex (s : State) : (releaseEngine s).idx.lastIndex = s.idx.lastIndex := by simp [releaseEngine]
@[simp] theorem releaseEngine_idx_retireLimit (s : State) : (releaseEngine s).idx.retireLimit = s.idx.retireLimit := by simp [releaseEngine]
@[simp] theorem releaseEngine_idx_currentPage (s : State) : (releaseEngine s).idx.currentPage = s.idx.currentPage := by simp [releaseEngine]
@[simp] theorem releaseEngine_idx_firingReq (s : State) : (releaseEngine s).idx.firingReq = s.idx.firingReq := by simp [releaseEngine]
@[simp] theorem releaseEngine_table (s : State) : (releaseEngine s).table = s.table := by simp [releaseEngine]
@[simp] theorem releaseEngine_eng_recentPage (s : State) : (releaseEngine s).eng.recentPage = s.eng.recentPage := by simp [releaseEngine]
@[simp] theorem releaseEngine_drift (s : State) : (releaseEngine s).drift = s.drift := by simp [releaseEngine]
@[simp] theorem releaseEngine_pages (s : State) : (releaseEngine s).pages = s.pages := by simp [releaseEngine]
@[simp] theorem releaseEngine_gates (s : State) : (releaseEngine s).gates = s.gates := by simp [releaseEngine]
@[simp] theorem releaseEngine_link (s : State) : (releaseEngine s).link = s.link := by simp [releaseEngine]
@[simp] theorem releaseEngine_peers (s : State) : (releaseEngine s).peers = s.peers := by simp [releaseEngine]
@[simp] theorem releaseEngine_ctl (s : State) : (releaseEngine s).ctl = s.ctl := by simp [releaseEngine]
@[simp] theorem releaseEngine_alerts (s : State) : (releaseEngine s).alerts = s.alerts := by simp [releaseEngine]
@[simp] theorem releaseEngine_work (s : State) : (releaseEngine s).work = s.work := by simp [releaseEngine]
@[simp] theorem releaseEngine_freeDraws (s : State) : (releaseEngine s).freeDraws = s.freeDraws := by simp [releaseEngine]
@[simp] theorem releaseEngine_pending (s : State) : (releaseEngine s).pending = s.pending := by simp [releaseEngine]
@[simp] theorem emptyTable_now (s : State) : (emptyTable s).now = s.now := by simp [emptyTable]
@[simp] theorem emptyTable_resetHeld (s : State) : (emptyTable s).resetHeld = s.resetHeld := by simp [emptyTable]
@[simp] theorem emptyTable_idx (s : State) : (emptyTable s).idx = s.idx := by simp [emptyTable]
@[simp] theorem emptyTable_eng (s : State) : (emptyTable s).eng = s.eng := by simp [emptyTable]
@[simp] theorem emptyTable_drift (s : State) : (emptyTable s).drift = s.drift := by simp [emptyTable]
@[simp] theorem emptyTable_pages (s : State) : (emptyTable s).pages = s.pages := by simp [emptyTable]
@[simp] theorem emptyTable_gates (s : State) : (emptyTable s).gates = s.gates := by simp [emptyTable]
@[simp] theorem emptyTable_link (s : State) : (emptyTable s).link = s.link := by simp [emptyTable]
@[simp] theorem emptyTable_peers (s : State) : (emptyTable s).peers = s.peers := by simp [emptyTable]
@[simp] theorem emptyTable_ctl (s : State) : (emptyTable s).ctl = s.ctl := by simp [emptyTable]
@[simp] theorem emptyTable_alerts (s : State) : (emptyTable s).alerts = s.alerts := by simp [emptyTable]
@[simp] theorem emptyTable_work (s : State) : (emptyTable s).work = s.work := by simp [emptyTable]
@[simp] theorem emptyTable_freeDraws (s : State) : (emptyTable s).freeDraws = s.freeDraws := by simp [emptyTable]
@[simp] theorem emptyTable_pending (s : State) : (emptyTable s).pending = s.pending := by simp [emptyTable]
@[simp] theorem emptyQueue_now (s : State) : (emptyQueue s).now = s.now := by simp [emptyQueue]
@[simp] theorem emptyQueue_resetHeld (s : State) : (emptyQueue s).resetHeld = s.resetHeld := by simp [emptyQueue]
@[simp] theorem emptyQueue_idx (s : State) : (emptyQueue s).idx = s.idx := by simp [emptyQueue]
@[simp] theorem emptyQueue_table (s : State) : (emptyQueue s).table = s.table := by simp [emptyQueue]
@[simp] theorem emptyQueue_eng (s : State) : (emptyQueue s).eng = s.eng := by simp [emptyQueue]
@[simp] theorem emptyQueue_drift (s : State) : (emptyQueue s).drift = s.drift := by simp [emptyQueue]
@[simp] theorem emptyQueue_pages (s : State) : (emptyQueue s).pages = s.pages := by simp [emptyQueue]
@[simp] theorem emptyQueue_gates (s : State) : (emptyQueue s).gates = s.gates := by simp [emptyQueue]
@[simp] theorem emptyQueue_link_lineIdle (s : State) : (emptyQueue s).link.lineIdle = s.link.lineIdle := by simp [emptyQueue]
@[simp] theorem emptyQueue_link_quietSince (s : State) : (emptyQueue s).link.quietSince = s.link.quietSince := by simp [emptyQueue]
@[simp] theorem emptyQueue_link_lastSender (s : State) : (emptyQueue s).link.lastSender = s.link.lastSender := by simp [emptyQueue]
@[simp] theorem emptyQueue_peers (s : State) : (emptyQueue s).peers = s.peers := by simp [emptyQueue]
@[simp] theorem emptyQueue_ctl (s : State) : (emptyQueue s).ctl = s.ctl := by simp [emptyQueue]
@[simp] theorem emptyQueue_alerts (s : State) : (emptyQueue s).alerts = s.alerts := by simp [emptyQueue]
@[simp] theorem emptyQueue_work (s : State) : (emptyQueue s).work = s.work := by simp [emptyQueue]
@[simp] theorem emptyQueue_freeDraws (s : State) : (emptyQueue s).freeDraws = s.freeDraws := by simp [emptyQueue]
@[simp] theorem emptyQueue_pending (s : State) : (emptyQueue s).pending = s.pending := by simp [emptyQueue]
@[simp] theorem clearRecords_now (s : State) : (clearRecords s).now = s.now := by simp [clearRecords]
@[simp] theorem clearRecords_resetHeld (s : State) : (clearRecords s).resetHeld = s.resetHeld := by simp [clearRecords]
@[simp] theorem clearRecords_idx (s : State) : (clearRecords s).idx = s.idx := by simp [clearRecords]
@[simp] theorem clearRecords_table (s : State) : (clearRecords s).table = s.table := by simp [clearRecords]
@[simp] theorem clearRecords_eng (s : State) : (clearRecords s).eng = s.eng := by simp [clearRecords]
@[simp] theorem clearRecords_pages (s : State) : (clearRecords s).pages = s.pages := by simp [clearRecords]
@[simp] theorem clearRecords_gates (s : State) : (clearRecords s).gates = s.gates := by simp [clearRecords]
@[simp] theorem clearRecords_link (s : State) : (clearRecords s).link = s.link := by simp [clearRecords]
@[simp] theorem clearRecords_ctl (s : State) : (clearRecords s).ctl = s.ctl := by simp [clearRecords]
@[simp] theorem clearRecords_alerts (s : State) : (clearRecords s).alerts = s.alerts := by simp [clearRecords]
@[simp] theorem clearRecords_work (s : State) : (clearRecords s).work = s.work := by simp [clearRecords]
@[simp] theorem clearRecords_freeDraws (s : State) : (clearRecords s).freeDraws = s.freeDraws := by simp [clearRecords]
@[simp] theorem clearRecords_pending (s : State) : (clearRecords s).pending = s.pending := by simp [clearRecords]
@[simp] theorem clearWordAll_now (s : State) : (clearWordAll s).now = s.now := by simp [clearWordAll]
@[simp] theorem clearWordAll_resetHeld (s : State) : (clearWordAll s).resetHeld = s.resetHeld := by simp [clearWordAll]
@[simp] theorem clearWordAll_idx (s : State) : (clearWordAll s).idx = s.idx := by simp [clearWordAll]
@[simp] theorem clearWordAll_table (s : State) : (clearWordAll s).table = s.table := by simp [clearWordAll]
@[simp] theorem clearWordAll_eng (s : State) : (clearWordAll s).eng = s.eng := by simp [clearWordAll]
@[simp] theorem clearWordAll_drift (s : State) : (clearWordAll s).drift = s.drift := by simp [clearWordAll]
@[simp] theorem clearWordAll_pages (s : State) : (clearWordAll s).pages = s.pages := by simp [clearWordAll]
@[simp] theorem clearWordAll_gates (s : State) : (clearWordAll s).gates = s.gates := by simp [clearWordAll]
@[simp] theorem clearWordAll_link (s : State) : (clearWordAll s).link = s.link := by simp [clearWordAll]
@[simp] theorem clearWordAll_peers (s : State) : (clearWordAll s).peers = s.peers := by simp [clearWordAll]
@[simp] theorem clearWordAll_ctl (s : State) : (clearWordAll s).ctl = s.ctl := by simp [clearWordAll]
@[simp] theorem clearWordAll_alerts_mask (s : State) : (clearWordAll s).alerts.mask = s.alerts.mask := by simp [clearWordAll]
@[simp] theorem clearWordAll_alerts_master (s : State) : (clearWordAll s).alerts.master = s.alerts.master := by simp [clearWordAll]
@[simp] theorem clearWordAll_work (s : State) : (clearWordAll s).work = s.work := by simp [clearWordAll]
@[simp] theorem clearWordAll_freeDraws (s : State) : (clearWordAll s).freeDraws = s.freeDraws := by simp [clearWordAll]
@[simp] theorem clearWordAll_pending (s : State) : (clearWordAll s).pending = s.pending := by simp [clearWordAll]
@[simp] theorem restartClears_now (s : State) : (restartClears s).now = s.now := by simp [restartClears]
@[simp] theorem restartClears_resetHeld (s : State) : (restartClears s).resetHeld = s.resetHeld := by simp [restartClears]
@[simp] theorem restartClears_idx_count (s : State) : (restartClears s).idx.count = s.idx.count := by simp [restartClears]
@[simp] theorem restartClears_idx_lastIndex (s : State) : (restartClears s).idx.lastIndex = s.idx.lastIndex := by simp [restartClears]
@[simp] theorem restartClears_idx_retireLimit (s : State) : (restartClears s).idx.retireLimit = s.idx.retireLimit := by simp [restartClears]
@[simp] theorem restartClears_idx_currentPage (s : State) : (restartClears s).idx.currentPage = s.idx.currentPage := by simp [restartClears]
@[simp] theorem restartClears_eng_recentPage (s : State) : (restartClears s).eng.recentPage = s.eng.recentPage := by simp [restartClears]
@[simp] theorem restartClears_pages (s : State) : (restartClears s).pages = s.pages := by simp [restartClears]
@[simp] theorem restartClears_link_lineIdle (s : State) : (restartClears s).link.lineIdle = s.link.lineIdle := by simp [restartClears]
@[simp] theorem restartClears_link_quietSince (s : State) : (restartClears s).link.quietSince = s.link.quietSince := by simp [restartClears]
@[simp] theorem restartClears_link_lastSender (s : State) : (restartClears s).link.lastSender = s.link.lastSender := by simp [restartClears]
@[simp] theorem restartClears_ctl (s : State) : (restartClears s).ctl = s.ctl := by simp [restartClears]
@[simp] theorem restartClears_alerts_mask (s : State) : (restartClears s).alerts.mask = s.alerts.mask := by simp [restartClears]
@[simp] theorem restartClears_alerts_master (s : State) : (restartClears s).alerts.master = s.alerts.master := by simp [restartClears]
@[simp] theorem restartClears_work (s : State) : (restartClears s).work = s.work := by simp [restartClears]
@[simp] theorem restartClears_freeDraws (s : State) : (restartClears s).freeDraws = s.freeDraws := by simp [restartClears]
@[simp] theorem restartClears_pending (s : State) : (restartClears s).pending = s.pending := by simp [restartClears]
@[simp] theorem restartStation_now (s : State) : (restartStation s).now = s.now := by
  unfold restartStation; dsimp only; (repeat' split) <;> simp
@[simp] theorem restartStation_resetHeld (s : State) : (restartStation s).resetHeld = s.resetHeld := by
  unfold restartStation; dsimp only; (repeat' split) <;> simp
@[simp] theorem restartStation_idx_count (s : State) : (restartStation s).idx.count = s.idx.count := by
  unfold restartStation; dsimp only; (repeat' split) <;> simp
@[simp] theorem restartStation_idx_lastIndex (s : State) : (restartStation s).idx.lastIndex = s.idx.lastIndex := by
  unfold restartStation; dsimp only; (repeat' split) <;> simp
@[simp] theorem restartStation_idx_retireLimit (s : State) : (restartStation s).idx.retireLimit = s.idx.retireLimit := by
  unfold restartStation; dsimp only; (repeat' split) <;> simp
@[simp] theorem restartStation_idx_currentPage (s : State) : (restartStation s).idx.currentPage = s.idx.currentPage := by
  unfold restartStation; dsimp only; (repeat' split) <;> simp
@[simp] theorem restartStation_eng_recentPage (s : State) : (restartStation s).eng.recentPage = s.eng.recentPage := by
  unfold restartStation; dsimp only; (repeat' split) <;> simp
@[simp] theorem restartStation_pages (s : State) : (restartStation s).pages = s.pages := by
  unfold restartStation; dsimp only; (repeat' split) <;> simp
@[simp] theorem restartStation_link_lineIdle (s : State) : (restartStation s).link.lineIdle = s.link.lineIdle := by
  unfold restartStation; dsimp only; (repeat' split) <;> simp
@[simp] theorem restartStation_link_quietSince (s : State) : (restartStation s).link.quietSince = s.link.quietSince := by
  unfold restartStation; dsimp only; (repeat' split) <;> simp
@[simp] theorem restartStation_link_lastSender (s : State) : (restartStation s).link.lastSender = s.link.lastSender := by
  unfold restartStation; dsimp only; (repeat' split) <;> simp
@[simp] theorem restartStation_ctl_node (s : State) : (restartStation s).ctl.node = s.ctl.node := by
  unfold restartStation; dsimp only; (repeat' split) <;> simp
@[simp] theorem restartStation_ctl_role (s : State) : (restartStation s).ctl.role = s.ctl.role := by
  unfold restartStation; dsimp only; (repeat' split) <;> simp
@[simp] theorem restartStation_ctl_faultReason (s : State) : (restartStation s).ctl.faultReason = s.ctl.faultReason := by
  unfold restartStation; dsimp only; (repeat' split) <;> simp
@[simp] theorem restartStation_ctl_items (s : State) : (restartStation s).ctl.items = s.ctl.items := by
  unfold restartStation; dsimp only; (repeat' split) <;> simp
@[simp] theorem restartStation_alerts_mask (s : State) : (restartStation s).alerts.mask = s.alerts.mask := by
  unfold restartStation; dsimp only; (repeat' split) <;> simp
@[simp] theorem restartStation_alerts_master (s : State) : (restartStation s).alerts.master = s.alerts.master := by
  unfold restartStation; dsimp only; (repeat' split) <;> simp
@[simp] theorem restartStation_work_units (s : State) : (restartStation s).work.units = s.work.units := by
  unfold restartStation; dsimp only; (repeat' split) <;> simp
@[simp] theorem restartStation_work_status (s : State) : (restartStation s).work.status = s.work.status := by
  unfold restartStation; dsimp only; (repeat' split) <;> simp
@[simp] theorem restartStation_freeDraws (s : State) : (restartStation s).freeDraws = s.freeDraws := by
  unfold restartStation; dsimp only; (repeat' split) <;> simp
@[simp] theorem restartStation_pending (s : State) : (restartStation s).pending = s.pending := by
  unfold restartStation; dsimp only; (repeat' split) <;> simp
theorem query_now (reply : State → State) (s : State) (hc : ∀ a, (reply a).now = a.now) : (query reply s).now = s.now := by
  unfold query; split <;> simp [hc]
theorem query_resetHeld (reply : State → State) (s : State) (hc : ∀ a, (reply a).resetHeld = a.resetHeld) : (query reply s).resetHeld = s.resetHeld := by
  unfold query; split <;> simp [hc]
theorem query_idx (reply : State → State) (s : State) (hc : ∀ a, (reply a).idx = a.idx) : (query reply s).idx = s.idx := by
  unfold query; split <;> simp [hc]
theorem query_table (reply : State → State) (s : State) (hc : ∀ a, (reply a).table = a.table) : (query reply s).table = s.table := by
  unfold query; split <;> simp [hc]
theorem query_eng (reply : State → State) (s : State) (hc : ∀ a, (reply a).eng = a.eng) : (query reply s).eng = s.eng := by
  unfold query; split <;> simp [hc]
theorem query_drift (reply : State → State) (s : State) (hc : ∀ a, (reply a).drift = a.drift) : (query reply s).drift = s.drift := by
  unfold query; split <;> simp [hc]
theorem query_pages (reply : State → State) (s : State) (hc : ∀ a, (reply a).pages = a.pages) : (query reply s).pages = s.pages := by
  unfold query; split <;> simp [hc]
theorem query_gates (reply : State → State) (s : State) (hc : ∀ a, (reply a).gates = a.gates) : (query reply s).gates = s.gates := by
  unfold query; split <;> simp [hc]
theorem query_link (reply : State → State) (s : State) (hc : ∀ a, (reply a).link = a.link) : (query reply s).link = s.link := by
  unfold query; split <;> simp [hc]
theorem query_peers (reply : State → State) (s : State) (hc : ∀ a, (reply a).peers = a.peers) : (query reply s).peers = s.peers := by
  unfold query; split <;> simp [hc]
theorem query_ctl (reply : State → State) (s : State) (hc : ∀ a, (reply a).ctl = a.ctl) : (query reply s).ctl = s.ctl := by
  unfold query; split <;> simp [hc]
theorem query_alerts (reply : State → State) (s : State) (hc : ∀ a, (reply a).alerts = a.alerts) : (query reply s).alerts = s.alerts := by
  unfold query; split <;> simp [hc]
theorem query_work (reply : State → State) (s : State) (hc : ∀ a, (reply a).work = a.work) : (query reply s).work = s.work := by
  unfold query; split <;> simp [hc]
theorem query_freeDraws (reply : State → State) (s : State) (hc : ∀ a, (reply a).freeDraws = a.freeDraws) : (query reply s).freeDraws = s.freeDraws := by
  unfold query; split <;> simp [hc]
theorem query_pending (reply : State → State) (s : State) (hc : ∀ a, (reply a).pending = a.pending) : (query reply s).pending = s.pending := by
  unfold query; split <;> simp [hc]
@[simp] theorem replyState_now (item : StateItem) (arg : BitVec 4) (s : State) : (replyState item arg s).now = s.now := by
  unfold replyState; split <;> simp
@[simp] theorem replyState_resetHeld (item : StateItem) (arg : BitVec 4) (s : State) : (replyState item arg s).resetHeld = s.resetHeld := by
  unfold replyState; split <;> simp
@[simp] theorem replyState_idx (item : StateItem) (arg : BitVec 4) (s : State) : (replyState item arg s).idx = s.idx := by
  unfold replyState; split <;> simp
@[simp] theorem replyState_table (item : StateItem) (arg : BitVec 4) (s : State) : (replyState item arg s).table = s.table := by
  unfold replyState; split <;> simp
@[simp] theorem replyState_eng (item : StateItem) (arg : BitVec 4) (s : State) : (replyState item arg s).eng = s.eng := by
  unfold replyState; split <;> simp
@[simp] theorem replyState_drift (item : StateItem) (arg : BitVec 4) (s : State) : (replyState item arg s).drift = s.drift := by
  unfold replyState; split <;> simp
@[simp] theorem replyState_pages (item : StateItem) (arg : BitVec 4) (s : State) : (replyState item arg s).pages = s.pages := by
  unfold replyState; split <;> simp
@[simp] theorem replyState_gates (item : StateItem) (arg : BitVec 4) (s : State) : (replyState item arg s).gates = s.gates := by
  unfold replyState; split <;> simp
@[simp] theorem replyState_link (item : StateItem) (arg : BitVec 4) (s : State) : (replyState item arg s).link = s.link := by
  unfold replyState; split <;> simp
@[simp] theorem replyState_peers (item : StateItem) (arg : BitVec 4) (s : State) : (replyState item arg s).peers = s.peers := by
  unfold replyState; split <;> simp
@[simp] theorem replyState_ctl (item : StateItem) (arg : BitVec 4) (s : State) : (replyState item arg s).ctl = s.ctl := by
  unfold replyState; split <;> simp
@[simp] theorem replyState_alerts_mask (item : StateItem) (arg : BitVec 4) (s : State) : (replyState item arg s).alerts.mask = s.alerts.mask := by
  unfold replyState; split <;> simp
@[simp] theorem replyState_alerts_master (item : StateItem) (arg : BitVec 4) (s : State) : (replyState item arg s).alerts.master = s.alerts.master := by
  unfold replyState; split <;> simp
@[simp] theorem replyState_work_units (item : StateItem) (arg : BitVec 4) (s : State) : (replyState item arg s).work.units = s.work.units := by
  unfold replyState; split <;> simp
@[simp] theorem replyState_freeDraws (item : StateItem) (arg : BitVec 4) (s : State) : (replyState item arg s).freeDraws = s.freeDraws := by
  unfold replyState; split <;> simp
@[simp] theorem replyState_pending (item : StateItem) (arg : BitVec 4) (s : State) : (replyState item arg s).pending = s.pending := by
  unfold replyState; split <;> simp
@[simp] theorem replyAlertWord_now (arg : BitVec 4) (s : State) : (replyAlertWord arg s).now = s.now := by simp [replyAlertWord]
@[simp] theorem replyAlertWord_resetHeld (arg : BitVec 4) (s : State) : (replyAlertWord arg s).resetHeld = s.resetHeld := by simp [replyAlertWord]
@[simp] theorem replyAlertWord_idx (arg : BitVec 4) (s : State) : (replyAlertWord arg s).idx = s.idx := by simp [replyAlertWord]
@[simp] theorem replyAlertWord_table (arg : BitVec 4) (s : State) : (replyAlertWord arg s).table = s.table := by simp [replyAlertWord]
@[simp] theorem replyAlertWord_eng (arg : BitVec 4) (s : State) : (replyAlertWord arg s).eng = s.eng := by simp [replyAlertWord]
@[simp] theorem replyAlertWord_drift (arg : BitVec 4) (s : State) : (replyAlertWord arg s).drift = s.drift := by simp [replyAlertWord]
@[simp] theorem replyAlertWord_pages (arg : BitVec 4) (s : State) : (replyAlertWord arg s).pages = s.pages := by simp [replyAlertWord]
@[simp] theorem replyAlertWord_gates (arg : BitVec 4) (s : State) : (replyAlertWord arg s).gates = s.gates := by simp [replyAlertWord]
@[simp] theorem replyAlertWord_link (arg : BitVec 4) (s : State) : (replyAlertWord arg s).link = s.link := by simp [replyAlertWord]
@[simp] theorem replyAlertWord_peers (arg : BitVec 4) (s : State) : (replyAlertWord arg s).peers = s.peers := by simp [replyAlertWord]
@[simp] theorem replyAlertWord_ctl (arg : BitVec 4) (s : State) : (replyAlertWord arg s).ctl = s.ctl := by simp [replyAlertWord]
@[simp] theorem replyAlertWord_alerts (arg : BitVec 4) (s : State) : (replyAlertWord arg s).alerts = s.alerts := by simp [replyAlertWord]
@[simp] theorem replyAlertWord_work_units (arg : BitVec 4) (s : State) : (replyAlertWord arg s).work.units = s.work.units := by simp [replyAlertWord]
@[simp] theorem replyAlertWord_freeDraws (arg : BitVec 4) (s : State) : (replyAlertWord arg s).freeDraws = s.freeDraws := by simp [replyAlertWord]
@[simp] theorem replyAlertWord_pending (arg : BitVec 4) (s : State) : (replyAlertWord arg s).pending = s.pending := by simp [replyAlertWord]
@[simp] theorem replyPeerRow_now (arg : BitVec 4) (s : State) : (replyPeerRow arg s).now = s.now := by
  unfold replyPeerRow; split <;> simp
@[simp] theorem replyPeerRow_resetHeld (arg : BitVec 4) (s : State) : (replyPeerRow arg s).resetHeld = s.resetHeld := by
  unfold replyPeerRow; split <;> simp
@[simp] theorem replyPeerRow_idx (arg : BitVec 4) (s : State) : (replyPeerRow arg s).idx = s.idx := by
  unfold replyPeerRow; split <;> simp
@[simp] theorem replyPeerRow_table (arg : BitVec 4) (s : State) : (replyPeerRow arg s).table = s.table := by
  unfold replyPeerRow; split <;> simp
@[simp] theorem replyPeerRow_eng (arg : BitVec 4) (s : State) : (replyPeerRow arg s).eng = s.eng := by
  unfold replyPeerRow; split <;> simp
@[simp] theorem replyPeerRow_drift (arg : BitVec 4) (s : State) : (replyPeerRow arg s).drift = s.drift := by
  unfold replyPeerRow; split <;> simp
@[simp] theorem replyPeerRow_pages (arg : BitVec 4) (s : State) : (replyPeerRow arg s).pages = s.pages := by
  unfold replyPeerRow; split <;> simp
@[simp] theorem replyPeerRow_gates (arg : BitVec 4) (s : State) : (replyPeerRow arg s).gates = s.gates := by
  unfold replyPeerRow; split <;> simp
@[simp] theorem replyPeerRow_link (arg : BitVec 4) (s : State) : (replyPeerRow arg s).link = s.link := by
  unfold replyPeerRow; split <;> simp
@[simp] theorem replyPeerRow_peers (arg : BitVec 4) (s : State) : (replyPeerRow arg s).peers = s.peers := by
  unfold replyPeerRow; split <;> simp
@[simp] theorem replyPeerRow_ctl (arg : BitVec 4) (s : State) : (replyPeerRow arg s).ctl = s.ctl := by
  unfold replyPeerRow; split <;> simp
@[simp] theorem replyPeerRow_alerts_mask (arg : BitVec 4) (s : State) : (replyPeerRow arg s).alerts.mask = s.alerts.mask := by
  unfold replyPeerRow; split <;> simp
@[simp] theorem replyPeerRow_alerts_master (arg : BitVec 4) (s : State) : (replyPeerRow arg s).alerts.master = s.alerts.master := by
  unfold replyPeerRow; split <;> simp
@[simp] theorem replyPeerRow_work_units (arg : BitVec 4) (s : State) : (replyPeerRow arg s).work.units = s.work.units := by
  unfold replyPeerRow; split <;> simp
@[simp] theorem replyPeerRow_pending (arg : BitVec 4) (s : State) : (replyPeerRow arg s).pending = s.pending := by
  unfold replyPeerRow; split <;> simp
@[simp] theorem replyBinTally_now (arg page : BitVec 4) (bin : BitVec 8) (s : State) : (replyBinTally arg page bin s).now = s.now := by
  unfold replyBinTally; split <;> simp
@[simp] theorem replyBinTally_resetHeld (arg page : BitVec 4) (bin : BitVec 8) (s : State) : (replyBinTally arg page bin s).resetHeld = s.resetHeld := by
  unfold replyBinTally; split <;> simp
@[simp] theorem replyBinTally_idx (arg page : BitVec 4) (bin : BitVec 8) (s : State) : (replyBinTally arg page bin s).idx = s.idx := by
  unfold replyBinTally; split <;> simp
@[simp] theorem replyBinTally_table (arg page : BitVec 4) (bin : BitVec 8) (s : State) : (replyBinTally arg page bin s).table = s.table := by
  unfold replyBinTally; split <;> simp
@[simp] theorem replyBinTally_eng (arg page : BitVec 4) (bin : BitVec 8) (s : State) : (replyBinTally arg page bin s).eng = s.eng := by
  unfold replyBinTally; split <;> simp
@[simp] theorem replyBinTally_drift (arg page : BitVec 4) (bin : BitVec 8) (s : State) : (replyBinTally arg page bin s).drift = s.drift := by
  unfold replyBinTally; split <;> simp
@[simp] theorem replyBinTally_pages (arg page : BitVec 4) (bin : BitVec 8) (s : State) : (replyBinTally arg page bin s).pages = s.pages := by
  unfold replyBinTally; split <;> simp
@[simp] theorem replyBinTally_gates (arg page : BitVec 4) (bin : BitVec 8) (s : State) : (replyBinTally arg page bin s).gates = s.gates := by
  unfold replyBinTally; split <;> simp
@[simp] theorem replyBinTally_link (arg page : BitVec 4) (bin : BitVec 8) (s : State) : (replyBinTally arg page bin s).link = s.link := by
  unfold replyBinTally; split <;> simp
@[simp] theorem replyBinTally_peers (arg page : BitVec 4) (bin : BitVec 8) (s : State) : (replyBinTally arg page bin s).peers = s.peers := by
  unfold replyBinTally; split <;> simp
@[simp] theorem replyBinTally_ctl (arg page : BitVec 4) (bin : BitVec 8) (s : State) : (replyBinTally arg page bin s).ctl = s.ctl := by
  unfold replyBinTally; split <;> simp
@[simp] theorem replyBinTally_alerts_mask (arg page : BitVec 4) (bin : BitVec 8) (s : State) : (replyBinTally arg page bin s).alerts.mask = s.alerts.mask := by
  unfold replyBinTally; split <;> simp
@[simp] theorem replyBinTally_alerts_master (arg page : BitVec 4) (bin : BitVec 8) (s : State) : (replyBinTally arg page bin s).alerts.master = s.alerts.master := by
  unfold replyBinTally; split <;> simp
@[simp] theorem replyBinTally_work_units (arg page : BitVec 4) (bin : BitVec 8) (s : State) : (replyBinTally arg page bin s).work.units = s.work.units := by
  unfold replyBinTally; split <;> simp
@[simp] theorem replyBinTally_freeDraws (arg page : BitVec 4) (bin : BitVec 8) (s : State) : (replyBinTally arg page bin s).freeDraws = s.freeDraws := by
  unfold replyBinTally; split <;> simp
@[simp] theorem replyBinTally_pending (arg page : BitVec 4) (bin : BitVec 8) (s : State) : (replyBinTally arg page bin s).pending = s.pending := by
  unfold replyBinTally; split <;> simp
@[simp] theorem replyReasonTally_now (arg : BitVec 4) (s : State) : (replyReasonTally arg s).now = s.now := by
  unfold replyReasonTally; split <;> simp
@[simp] theorem replyReasonTally_resetHeld (arg : BitVec 4) (s : State) : (replyReasonTally arg s).resetHeld = s.resetHeld := by
  unfold replyReasonTally; split <;> simp
@[simp] theorem replyReasonTally_idx (arg : BitVec 4) (s : State) : (replyReasonTally arg s).idx = s.idx := by
  unfold replyReasonTally; split <;> simp
@[simp] theorem replyReasonTally_table (arg : BitVec 4) (s : State) : (replyReasonTally arg s).table = s.table := by
  unfold replyReasonTally; split <;> simp
@[simp] theorem replyReasonTally_eng (arg : BitVec 4) (s : State) : (replyReasonTally arg s).eng = s.eng := by
  unfold replyReasonTally; split <;> simp
@[simp] theorem replyReasonTally_drift (arg : BitVec 4) (s : State) : (replyReasonTally arg s).drift = s.drift := by
  unfold replyReasonTally; split <;> simp
@[simp] theorem replyReasonTally_pages (arg : BitVec 4) (s : State) : (replyReasonTally arg s).pages = s.pages := by
  unfold replyReasonTally; split <;> simp
@[simp] theorem replyReasonTally_gates (arg : BitVec 4) (s : State) : (replyReasonTally arg s).gates = s.gates := by
  unfold replyReasonTally; split <;> simp
@[simp] theorem replyReasonTally_link (arg : BitVec 4) (s : State) : (replyReasonTally arg s).link = s.link := by
  unfold replyReasonTally; split <;> simp
@[simp] theorem replyReasonTally_peers (arg : BitVec 4) (s : State) : (replyReasonTally arg s).peers = s.peers := by
  unfold replyReasonTally; split <;> simp
@[simp] theorem replyReasonTally_ctl (arg : BitVec 4) (s : State) : (replyReasonTally arg s).ctl = s.ctl := by
  unfold replyReasonTally; split <;> simp
@[simp] theorem replyReasonTally_alerts_mask (arg : BitVec 4) (s : State) : (replyReasonTally arg s).alerts.mask = s.alerts.mask := by
  unfold replyReasonTally; split <;> simp
@[simp] theorem replyReasonTally_alerts_master (arg : BitVec 4) (s : State) : (replyReasonTally arg s).alerts.master = s.alerts.master := by
  unfold replyReasonTally; split <;> simp
@[simp] theorem replyReasonTally_work_units (arg : BitVec 4) (s : State) : (replyReasonTally arg s).work.units = s.work.units := by
  unfold replyReasonTally; split <;> simp
@[simp] theorem replyReasonTally_freeDraws (arg : BitVec 4) (s : State) : (replyReasonTally arg s).freeDraws = s.freeDraws := by
  unfold replyReasonTally; split <;> simp
@[simp] theorem replyReasonTally_pending (arg : BitVec 4) (s : State) : (replyReasonTally arg s).pending = s.pending := by
  unfold replyReasonTally; split <;> simp
@[simp] theorem replyEntry_now (tag : BitVec 16) (s : State) : (replyEntry tag s).now = s.now := by simp [replyEntry]
@[simp] theorem replyEntry_resetHeld (tag : BitVec 16) (s : State) : (replyEntry tag s).resetHeld = s.resetHeld := by simp [replyEntry]
@[simp] theorem replyEntry_idx (tag : BitVec 16) (s : State) : (replyEntry tag s).idx = s.idx := by simp [replyEntry]
@[simp] theorem replyEntry_table (tag : BitVec 16) (s : State) : (replyEntry tag s).table = s.table := by simp [replyEntry]
@[simp] theorem replyEntry_eng (tag : BitVec 16) (s : State) : (replyEntry tag s).eng = s.eng := by simp [replyEntry]
@[simp] theorem replyEntry_drift (tag : BitVec 16) (s : State) : (replyEntry tag s).drift = s.drift := by simp [replyEntry]
@[simp] theorem replyEntry_pages (tag : BitVec 16) (s : State) : (replyEntry tag s).pages = s.pages := by simp [replyEntry]
@[simp] theorem replyEntry_gates (tag : BitVec 16) (s : State) : (replyEntry tag s).gates = s.gates := by simp [replyEntry]
@[simp] theorem replyEntry_link (tag : BitVec 16) (s : State) : (replyEntry tag s).link = s.link := by simp [replyEntry]
@[simp] theorem replyEntry_peers (tag : BitVec 16) (s : State) : (replyEntry tag s).peers = s.peers := by simp [replyEntry]
@[simp] theorem replyEntry_ctl (tag : BitVec 16) (s : State) : (replyEntry tag s).ctl = s.ctl := by simp [replyEntry]
@[simp] theorem replyEntry_alerts (tag : BitVec 16) (s : State) : (replyEntry tag s).alerts = s.alerts := by simp [replyEntry]
@[simp] theorem replyEntry_work_units (tag : BitVec 16) (s : State) : (replyEntry tag s).work.units = s.work.units := by simp [replyEntry]
@[simp] theorem replyEntry_freeDraws (tag : BitVec 16) (s : State) : (replyEntry tag s).freeDraws = s.freeDraws := by simp [replyEntry]
@[simp] theorem replyEntry_pending (tag : BitVec 16) (s : State) : (replyEntry tag s).pending = s.pending := by simp [replyEntry]
@[simp] theorem replyDriftSlot_now (arg : BitVec 4) (s : State) : (replyDriftSlot arg s).now = s.now := by
  unfold replyDriftSlot; split <;> simp
@[simp] theorem replyDriftSlot_resetHeld (arg : BitVec 4) (s : State) : (replyDriftSlot arg s).resetHeld = s.resetHeld := by
  unfold replyDriftSlot; split <;> simp
@[simp] theorem replyDriftSlot_idx (arg : BitVec 4) (s : State) : (replyDriftSlot arg s).idx = s.idx := by
  unfold replyDriftSlot; split <;> simp
@[simp] theorem replyDriftSlot_table (arg : BitVec 4) (s : State) : (replyDriftSlot arg s).table = s.table := by
  unfold replyDriftSlot; split <;> simp
@[simp] theorem replyDriftSlot_eng (arg : BitVec 4) (s : State) : (replyDriftSlot arg s).eng = s.eng := by
  unfold replyDriftSlot; split <;> simp
@[simp] theorem replyDriftSlot_drift (arg : BitVec 4) (s : State) : (replyDriftSlot arg s).drift = s.drift := by
  unfold replyDriftSlot; split <;> simp
@[simp] theorem replyDriftSlot_pages (arg : BitVec 4) (s : State) : (replyDriftSlot arg s).pages = s.pages := by
  unfold replyDriftSlot; split <;> simp
@[simp] theorem replyDriftSlot_gates (arg : BitVec 4) (s : State) : (replyDriftSlot arg s).gates = s.gates := by
  unfold replyDriftSlot; split <;> simp
@[simp] theorem replyDriftSlot_link (arg : BitVec 4) (s : State) : (replyDriftSlot arg s).link = s.link := by
  unfold replyDriftSlot; split <;> simp
@[simp] theorem replyDriftSlot_peers (arg : BitVec 4) (s : State) : (replyDriftSlot arg s).peers = s.peers := by
  unfold replyDriftSlot; split <;> simp
@[simp] theorem replyDriftSlot_ctl (arg : BitVec 4) (s : State) : (replyDriftSlot arg s).ctl = s.ctl := by
  unfold replyDriftSlot; split <;> simp
@[simp] theorem replyDriftSlot_alerts_mask (arg : BitVec 4) (s : State) : (replyDriftSlot arg s).alerts.mask = s.alerts.mask := by
  unfold replyDriftSlot; split <;> simp
@[simp] theorem replyDriftSlot_alerts_master (arg : BitVec 4) (s : State) : (replyDriftSlot arg s).alerts.master = s.alerts.master := by
  unfold replyDriftSlot; split <;> simp
@[simp] theorem replyDriftSlot_work_units (arg : BitVec 4) (s : State) : (replyDriftSlot arg s).work.units = s.work.units := by
  unfold replyDriftSlot; split <;> simp
@[simp] theorem replyDriftSlot_freeDraws (arg : BitVec 4) (s : State) : (replyDriftSlot arg s).freeDraws = s.freeDraws := by
  unfold replyDriftSlot; split <;> simp
@[simp] theorem replyDriftSlot_pending (arg : BitVec 4) (s : State) : (replyDriftSlot arg s).pending = s.pending := by
  unfold replyDriftSlot; split <;> simp
@[simp] theorem silencePeer_now (n : Fin 8) (s : State) : (silencePeer n s).now = s.now := by
  unfold silencePeer; split <;> simp
@[simp] theorem silencePeer_resetHeld (n : Fin 8) (s : State) : (silencePeer n s).resetHeld = s.resetHeld := by
  unfold silencePeer; split <;> simp
@[simp] theorem silencePeer_idx_lastIndex (n : Fin 8) (s : State) : (silencePeer n s).idx.lastIndex = s.idx.lastIndex := by
  unfold silencePeer; split <;> simp
@[simp] theorem silencePeer_idx_retireLimit (n : Fin 8) (s : State) : (silencePeer n s).idx.retireLimit = s.idx.retireLimit := by
  unfold silencePeer; split <;> simp
@[simp] theorem silencePeer_idx_currentPage (n : Fin 8) (s : State) : (silencePeer n s).idx.currentPage = s.idx.currentPage := by
  unfold silencePeer; split <;> simp
@[simp] theorem silencePeer_idx_firingReq (n : Fin 8) (s : State) : (silencePeer n s).idx.firingReq = s.idx.firingReq := by
  unfold silencePeer; split <;> simp
@[simp] theorem silencePeer_eng_recentPage (n : Fin 8) (s : State) : (silencePeer n s).eng.recentPage = s.eng.recentPage := by
  unfold silencePeer; split <;> simp
@[simp] theorem silencePeer_drift (n : Fin 8) (s : State) : (silencePeer n s).drift = s.drift := by
  unfold silencePeer; split <;> simp
@[simp] theorem silencePeer_pages (n : Fin 8) (s : State) : (silencePeer n s).pages = s.pages := by
  unfold silencePeer; split <;> simp
@[simp] theorem silencePeer_gates_drivers (n : Fin 8) (s : State) : (silencePeer n s).gates.drivers = s.gates.drivers := by
  unfold silencePeer; split <;> simp
@[simp] theorem silencePeer_gates_binTallies (n : Fin 8) (s : State) : (silencePeer n s).gates.binTallies = s.gates.binTallies := by
  unfold silencePeer; split <;> simp
@[simp] theorem silencePeer_link_lineIdle (n : Fin 8) (s : State) : (silencePeer n s).link.lineIdle = s.link.lineIdle := by
  unfold silencePeer; split <;> simp
@[simp] theorem silencePeer_link_quietSince (n : Fin 8) (s : State) : (silencePeer n s).link.quietSince = s.link.quietSince := by
  unfold silencePeer; split <;> simp
@[simp] theorem silencePeer_link_deferral (n : Fin 8) (s : State) : (silencePeer n s).link.deferral = s.link.deferral := by
  unfold silencePeer; split <;> simp
@[simp] theorem silencePeer_link_lastSender (n : Fin 8) (s : State) : (silencePeer n s).link.lastSender = s.link.lastSender := by
  unfold silencePeer; split <;> simp
@[simp] theorem silencePeer_ctl_node (n : Fin 8) (s : State) : (silencePeer n s).ctl.node = s.ctl.node := by
  unfold silencePeer; split <;> simp
@[simp] theorem silencePeer_ctl_role (n : Fin 8) (s : State) : (silencePeer n s).ctl.role = s.ctl.role := by
  unfold silencePeer; split <;> simp
@[simp] theorem silencePeer_ctl_faultReason (n : Fin 8) (s : State) : (silencePeer n s).ctl.faultReason = s.ctl.faultReason := by
  unfold silencePeer; split <;> simp
@[simp] theorem silencePeer_ctl_cause (n : Fin 8) (s : State) : (silencePeer n s).ctl.cause = s.ctl.cause := by
  unfold silencePeer; split <;> simp
@[simp] theorem silencePeer_ctl_listenDue (n : Fin 8) (s : State) : (silencePeer n s).ctl.listenDue = s.ctl.listenDue := by
  unfold silencePeer; split <;> simp
@[simp] theorem silencePeer_ctl_items (n : Fin 8) (s : State) : (silencePeer n s).ctl.items = s.ctl.items := by
  unfold silencePeer; split <;> simp
@[simp] theorem silencePeer_alerts_mask (n : Fin 8) (s : State) : (silencePeer n s).alerts.mask = s.alerts.mask := by
  unfold silencePeer; split <;> simp
@[simp] theorem silencePeer_alerts_master (n : Fin 8) (s : State) : (silencePeer n s).alerts.master = s.alerts.master := by
  unfold silencePeer; split <;> simp
@[simp] theorem silencePeer_work_status (n : Fin 8) (s : State) : (silencePeer n s).work.status = s.work.status := by
  unfold silencePeer; split <;> simp
@[simp] theorem silencePeer_freeDraws (n : Fin 8) (s : State) : (silencePeer n s).freeDraws = s.freeDraws := by
  unfold silencePeer; split <;> simp
@[simp] theorem silencePeer_pending (n : Fin 8) (s : State) : (silencePeer n s).pending = s.pending := by
  unfold silencePeer; split <;> simp
@[simp] theorem countDiscard_now (sender : Option (BitVec 4)) (s : State) : (countDiscard sender s).now = s.now := by
  unfold countDiscard; (repeat' split) <;> simp_all
@[simp] theorem countDiscard_resetHeld (sender : Option (BitVec 4)) (s : State) : (countDiscard sender s).resetHeld = s.resetHeld := by
  unfold countDiscard; (repeat' split) <;> simp_all
@[simp] theorem countDiscard_idx_lastIndex (sender : Option (BitVec 4)) (s : State) : (countDiscard sender s).idx.lastIndex = s.idx.lastIndex := by
  unfold countDiscard; (repeat' split) <;> simp_all
@[simp] theorem countDiscard_idx_retireLimit (sender : Option (BitVec 4)) (s : State) : (countDiscard sender s).idx.retireLimit = s.idx.retireLimit := by
  unfold countDiscard; (repeat' split) <;> simp_all
@[simp] theorem countDiscard_idx_currentPage (sender : Option (BitVec 4)) (s : State) : (countDiscard sender s).idx.currentPage = s.idx.currentPage := by
  unfold countDiscard; (repeat' split) <;> simp_all
@[simp] theorem countDiscard_idx_firingReq (sender : Option (BitVec 4)) (s : State) : (countDiscard sender s).idx.firingReq = s.idx.firingReq := by
  unfold countDiscard; (repeat' split) <;> simp_all
@[simp] theorem countDiscard_eng_recentPage (sender : Option (BitVec 4)) (s : State) : (countDiscard sender s).eng.recentPage = s.eng.recentPage := by
  unfold countDiscard; (repeat' split) <;> simp_all
@[simp] theorem countDiscard_drift (sender : Option (BitVec 4)) (s : State) : (countDiscard sender s).drift = s.drift := by
  unfold countDiscard; (repeat' split) <;> simp_all
@[simp] theorem countDiscard_pages (sender : Option (BitVec 4)) (s : State) : (countDiscard sender s).pages = s.pages := by
  unfold countDiscard; (repeat' split) <;> simp_all
@[simp] theorem countDiscard_gates_drivers (sender : Option (BitVec 4)) (s : State) : (countDiscard sender s).gates.drivers = s.gates.drivers := by
  unfold countDiscard; (repeat' split) <;> simp_all
@[simp] theorem countDiscard_gates_binTallies (sender : Option (BitVec 4)) (s : State) : (countDiscard sender s).gates.binTallies = s.gates.binTallies := by
  unfold countDiscard; (repeat' split) <;> simp_all
@[simp] theorem countDiscard_link_lineIdle (sender : Option (BitVec 4)) (s : State) : (countDiscard sender s).link.lineIdle = s.link.lineIdle := by
  unfold countDiscard; (repeat' split) <;> simp_all
@[simp] theorem countDiscard_link_quietSince (sender : Option (BitVec 4)) (s : State) : (countDiscard sender s).link.quietSince = s.link.quietSince := by
  unfold countDiscard; (repeat' split) <;> simp_all
@[simp] theorem countDiscard_link_deferral (sender : Option (BitVec 4)) (s : State) : (countDiscard sender s).link.deferral = s.link.deferral := by
  unfold countDiscard; (repeat' split) <;> simp_all
@[simp] theorem countDiscard_link_lastSender (sender : Option (BitVec 4)) (s : State) : (countDiscard sender s).link.lastSender = s.link.lastSender := by
  unfold countDiscard; (repeat' split) <;> simp_all
@[simp] theorem countDiscard_ctl_node (sender : Option (BitVec 4)) (s : State) : (countDiscard sender s).ctl.node = s.ctl.node := by
  unfold countDiscard; (repeat' split) <;> simp_all
@[simp] theorem countDiscard_ctl_role (sender : Option (BitVec 4)) (s : State) : (countDiscard sender s).ctl.role = s.ctl.role := by
  unfold countDiscard; (repeat' split) <;> simp_all
@[simp] theorem countDiscard_ctl_faultReason (sender : Option (BitVec 4)) (s : State) : (countDiscard sender s).ctl.faultReason = s.ctl.faultReason := by
  unfold countDiscard; (repeat' split) <;> simp_all
@[simp] theorem countDiscard_ctl_cause (sender : Option (BitVec 4)) (s : State) : (countDiscard sender s).ctl.cause = s.ctl.cause := by
  unfold countDiscard; (repeat' split) <;> simp_all
@[simp] theorem countDiscard_ctl_listenDue (sender : Option (BitVec 4)) (s : State) : (countDiscard sender s).ctl.listenDue = s.ctl.listenDue := by
  unfold countDiscard; (repeat' split) <;> simp_all
@[simp] theorem countDiscard_ctl_items (sender : Option (BitVec 4)) (s : State) : (countDiscard sender s).ctl.items = s.ctl.items := by
  unfold countDiscard; (repeat' split) <;> simp_all
@[simp] theorem countDiscard_alerts_mask (sender : Option (BitVec 4)) (s : State) : (countDiscard sender s).alerts.mask = s.alerts.mask := by
  unfold countDiscard; (repeat' split) <;> simp_all
@[simp] theorem countDiscard_alerts_master (sender : Option (BitVec 4)) (s : State) : (countDiscard sender s).alerts.master = s.alerts.master := by
  unfold countDiscard; (repeat' split) <;> simp_all
@[simp] theorem countDiscard_work_status (sender : Option (BitVec 4)) (s : State) : (countDiscard sender s).work.status = s.work.status := by
  unfold countDiscard; (repeat' split) <;> simp_all
@[simp] theorem countDiscard_freeDraws (sender : Option (BitVec 4)) (s : State) : (countDiscard sender s).freeDraws = s.freeDraws := by
  unfold countDiscard; (repeat' split) <;> simp_all
@[simp] theorem countDiscard_pending (sender : Option (BitVec 4)) (s : State) : (countDiscard sender s).pending = s.pending := by
  unfold countDiscard; (repeat' split) <;> simp_all
@[simp] theorem discardFrame_now (sender : Option (BitVec 4)) (s : State) : (discardFrame sender s).now = s.now := by
  unfold discardFrame; (repeat' split) <;> simp_all
@[simp] theorem discardFrame_resetHeld (sender : Option (BitVec 4)) (s : State) : (discardFrame sender s).resetHeld = s.resetHeld := by
  unfold discardFrame; (repeat' split) <;> simp_all
@[simp] theorem discardFrame_idx_lastIndex (sender : Option (BitVec 4)) (s : State) : (discardFrame sender s).idx.lastIndex = s.idx.lastIndex := by
  unfold discardFrame; (repeat' split) <;> simp_all
@[simp] theorem discardFrame_idx_retireLimit (sender : Option (BitVec 4)) (s : State) : (discardFrame sender s).idx.retireLimit = s.idx.retireLimit := by
  unfold discardFrame; (repeat' split) <;> simp_all
@[simp] theorem discardFrame_idx_currentPage (sender : Option (BitVec 4)) (s : State) : (discardFrame sender s).idx.currentPage = s.idx.currentPage := by
  unfold discardFrame; (repeat' split) <;> simp_all
@[simp] theorem discardFrame_idx_firingReq (sender : Option (BitVec 4)) (s : State) : (discardFrame sender s).idx.firingReq = s.idx.firingReq := by
  unfold discardFrame; (repeat' split) <;> simp_all
@[simp] theorem discardFrame_eng_recentPage (sender : Option (BitVec 4)) (s : State) : (discardFrame sender s).eng.recentPage = s.eng.recentPage := by
  unfold discardFrame; (repeat' split) <;> simp_all
@[simp] theorem discardFrame_drift (sender : Option (BitVec 4)) (s : State) : (discardFrame sender s).drift = s.drift := by
  unfold discardFrame; (repeat' split) <;> simp_all
@[simp] theorem discardFrame_pages (sender : Option (BitVec 4)) (s : State) : (discardFrame sender s).pages = s.pages := by
  unfold discardFrame; (repeat' split) <;> simp_all
@[simp] theorem discardFrame_gates_drivers (sender : Option (BitVec 4)) (s : State) : (discardFrame sender s).gates.drivers = s.gates.drivers := by
  unfold discardFrame; (repeat' split) <;> simp_all
@[simp] theorem discardFrame_gates_binTallies (sender : Option (BitVec 4)) (s : State) : (discardFrame sender s).gates.binTallies = s.gates.binTallies := by
  unfold discardFrame; (repeat' split) <;> simp_all
@[simp] theorem discardFrame_ctl_node (sender : Option (BitVec 4)) (s : State) : (discardFrame sender s).ctl.node = s.ctl.node := by
  unfold discardFrame; (repeat' split) <;> simp_all
@[simp] theorem discardFrame_ctl_role (sender : Option (BitVec 4)) (s : State) : (discardFrame sender s).ctl.role = s.ctl.role := by
  unfold discardFrame; (repeat' split) <;> simp_all
@[simp] theorem discardFrame_ctl_faultReason (sender : Option (BitVec 4)) (s : State) : (discardFrame sender s).ctl.faultReason = s.ctl.faultReason := by
  unfold discardFrame; (repeat' split) <;> simp_all
@[simp] theorem discardFrame_ctl_cause (sender : Option (BitVec 4)) (s : State) : (discardFrame sender s).ctl.cause = s.ctl.cause := by
  unfold discardFrame; (repeat' split) <;> simp_all
@[simp] theorem discardFrame_ctl_listenDue (sender : Option (BitVec 4)) (s : State) : (discardFrame sender s).ctl.listenDue = s.ctl.listenDue := by
  unfold discardFrame; (repeat' split) <;> simp_all
@[simp] theorem discardFrame_ctl_items (sender : Option (BitVec 4)) (s : State) : (discardFrame sender s).ctl.items = s.ctl.items := by
  unfold discardFrame; (repeat' split) <;> simp_all
@[simp] theorem discardFrame_alerts_mask (sender : Option (BitVec 4)) (s : State) : (discardFrame sender s).alerts.mask = s.alerts.mask := by
  unfold discardFrame; (repeat' split) <;> simp_all
@[simp] theorem discardFrame_alerts_master (sender : Option (BitVec 4)) (s : State) : (discardFrame sender s).alerts.master = s.alerts.master := by
  unfold discardFrame; (repeat' split) <;> simp_all
@[simp] theorem discardFrame_work_status (sender : Option (BitVec 4)) (s : State) : (discardFrame sender s).work.status = s.work.status := by
  unfold discardFrame; (repeat' split) <;> simp_all
@[simp] theorem discardFrame_freeDraws (sender : Option (BitVec 4)) (s : State) : (discardFrame sender s).freeDraws = s.freeDraws := by
  unfold discardFrame; (repeat' split) <;> simp_all
@[simp] theorem discardFrame_pending (sender : Option (BitVec 4)) (s : State) : (discardFrame sender s).pending = s.pending := by
  unfold discardFrame; (repeat' split) <;> simp_all
@[simp] theorem tableEntry_now (b : EntryBody) (n : Fin 8) (r : Role) (s : State) : (tableEntry b n r s).now = s.now := by
  unfold tableEntry; (repeat' split) <;> simp_all
@[simp] theorem tableEntry_resetHeld (b : EntryBody) (n : Fin 8) (r : Role) (s : State) : (tableEntry b n r s).resetHeld = s.resetHeld := by
  unfold tableEntry; (repeat' split) <;> simp_all
@[simp] theorem tableEntry_idx_lastIndex (b : EntryBody) (n : Fin 8) (r : Role) (s : State) : (tableEntry b n r s).idx.lastIndex = s.idx.lastIndex := by
  unfold tableEntry; (repeat' split) <;> simp_all
@[simp] theorem tableEntry_idx_retireLimit (b : EntryBody) (n : Fin 8) (r : Role) (s : State) : (tableEntry b n r s).idx.retireLimit = s.idx.retireLimit := by
  unfold tableEntry; (repeat' split) <;> simp_all
@[simp] theorem tableEntry_idx_currentPage (b : EntryBody) (n : Fin 8) (r : Role) (s : State) : (tableEntry b n r s).idx.currentPage = s.idx.currentPage := by
  unfold tableEntry; (repeat' split) <;> simp_all
@[simp] theorem tableEntry_idx_firingReq (b : EntryBody) (n : Fin 8) (r : Role) (s : State) : (tableEntry b n r s).idx.firingReq = s.idx.firingReq := by
  unfold tableEntry; (repeat' split) <;> simp_all
@[simp] theorem tableEntry_eng_recentPage (b : EntryBody) (n : Fin 8) (r : Role) (s : State) : (tableEntry b n r s).eng.recentPage = s.eng.recentPage := by
  unfold tableEntry; (repeat' split) <;> simp_all
@[simp] theorem tableEntry_drift (b : EntryBody) (n : Fin 8) (r : Role) (s : State) : (tableEntry b n r s).drift = s.drift := by
  unfold tableEntry; (repeat' split) <;> simp_all
@[simp] theorem tableEntry_pages (b : EntryBody) (n : Fin 8) (r : Role) (s : State) : (tableEntry b n r s).pages = s.pages := by
  unfold tableEntry; (repeat' split) <;> simp_all
@[simp] theorem tableEntry_gates_drivers (b : EntryBody) (n : Fin 8) (r : Role) (s : State) : (tableEntry b n r s).gates.drivers = s.gates.drivers := by
  unfold tableEntry; (repeat' split) <;> simp_all
@[simp] theorem tableEntry_gates_binTallies (b : EntryBody) (n : Fin 8) (r : Role) (s : State) : (tableEntry b n r s).gates.binTallies = s.gates.binTallies := by
  unfold tableEntry; (repeat' split) <;> simp_all
@[simp] theorem tableEntry_link_lineIdle (b : EntryBody) (n : Fin 8) (r : Role) (s : State) : (tableEntry b n r s).link.lineIdle = s.link.lineIdle := by
  unfold tableEntry; (repeat' split) <;> simp_all
@[simp] theorem tableEntry_link_quietSince (b : EntryBody) (n : Fin 8) (r : Role) (s : State) : (tableEntry b n r s).link.quietSince = s.link.quietSince := by
  unfold tableEntry; (repeat' split) <;> simp_all
@[simp] theorem tableEntry_link_deferral (b : EntryBody) (n : Fin 8) (r : Role) (s : State) : (tableEntry b n r s).link.deferral = s.link.deferral := by
  unfold tableEntry; (repeat' split) <;> simp_all
@[simp] theorem tableEntry_link_lastSender (b : EntryBody) (n : Fin 8) (r : Role) (s : State) : (tableEntry b n r s).link.lastSender = s.link.lastSender := by
  unfold tableEntry; (repeat' split) <;> simp_all
@[simp] theorem tableEntry_ctl_node (b : EntryBody) (n : Fin 8) (r : Role) (s : State) : (tableEntry b n r s).ctl.node = s.ctl.node := by
  unfold tableEntry; (repeat' split) <;> simp_all
@[simp] theorem tableEntry_ctl_role (b : EntryBody) (n : Fin 8) (r : Role) (s : State) : (tableEntry b n r s).ctl.role = s.ctl.role := by
  unfold tableEntry; (repeat' split) <;> simp_all
@[simp] theorem tableEntry_ctl_faultReason (b : EntryBody) (n : Fin 8) (r : Role) (s : State) : (tableEntry b n r s).ctl.faultReason = s.ctl.faultReason := by
  unfold tableEntry; (repeat' split) <;> simp_all
@[simp] theorem tableEntry_ctl_cause (b : EntryBody) (n : Fin 8) (r : Role) (s : State) : (tableEntry b n r s).ctl.cause = s.ctl.cause := by
  unfold tableEntry; (repeat' split) <;> simp_all
@[simp] theorem tableEntry_ctl_listenDue (b : EntryBody) (n : Fin 8) (r : Role) (s : State) : (tableEntry b n r s).ctl.listenDue = s.ctl.listenDue := by
  unfold tableEntry; (repeat' split) <;> simp_all
@[simp] theorem tableEntry_ctl_items (b : EntryBody) (n : Fin 8) (r : Role) (s : State) : (tableEntry b n r s).ctl.items = s.ctl.items := by
  unfold tableEntry; (repeat' split) <;> simp_all
@[simp] theorem tableEntry_alerts_mask (b : EntryBody) (n : Fin 8) (r : Role) (s : State) : (tableEntry b n r s).alerts.mask = s.alerts.mask := by
  unfold tableEntry; (repeat' split) <;> simp_all
@[simp] theorem tableEntry_alerts_master (b : EntryBody) (n : Fin 8) (r : Role) (s : State) : (tableEntry b n r s).alerts.master = s.alerts.master := by
  unfold tableEntry; (repeat' split) <;> simp_all
@[simp] theorem tableEntry_work_status (b : EntryBody) (n : Fin 8) (r : Role) (s : State) : (tableEntry b n r s).work.status = s.work.status := by
  unfold tableEntry; (repeat' split) <;> simp_all
@[simp] theorem tableEntry_freeDraws (b : EntryBody) (n : Fin 8) (r : Role) (s : State) : (tableEntry b n r s).freeDraws = s.freeDraws := by
  unfold tableEntry; (repeat' split) <;> simp_all
@[simp] theorem tableEntry_pending (b : EntryBody) (n : Fin 8) (r : Role) (s : State) : (tableEntry b n r s).pending = s.pending := by
  unfold tableEntry; (repeat' split) <;> simp_all
@[simp] theorem tableValue_now (b : ValueBody) (n : Fin 8) (r : Role) (s : State) : (tableValue b n r s).now = s.now := by
  unfold tableValue; (repeat' split) <;> simp_all
@[simp] theorem tableValue_resetHeld (b : ValueBody) (n : Fin 8) (r : Role) (s : State) : (tableValue b n r s).resetHeld = s.resetHeld := by
  unfold tableValue; (repeat' split) <;> simp_all
@[simp] theorem tableValue_idx_lastIndex (b : ValueBody) (n : Fin 8) (r : Role) (s : State) : (tableValue b n r s).idx.lastIndex = s.idx.lastIndex := by
  unfold tableValue; (repeat' split) <;> simp_all
@[simp] theorem tableValue_idx_retireLimit (b : ValueBody) (n : Fin 8) (r : Role) (s : State) : (tableValue b n r s).idx.retireLimit = s.idx.retireLimit := by
  unfold tableValue; (repeat' split) <;> simp_all
@[simp] theorem tableValue_idx_currentPage (b : ValueBody) (n : Fin 8) (r : Role) (s : State) : (tableValue b n r s).idx.currentPage = s.idx.currentPage := by
  unfold tableValue; (repeat' split) <;> simp_all
@[simp] theorem tableValue_idx_firingReq (b : ValueBody) (n : Fin 8) (r : Role) (s : State) : (tableValue b n r s).idx.firingReq = s.idx.firingReq := by
  unfold tableValue; (repeat' split) <;> simp_all
@[simp] theorem tableValue_eng_recentPage (b : ValueBody) (n : Fin 8) (r : Role) (s : State) : (tableValue b n r s).eng.recentPage = s.eng.recentPage := by
  unfold tableValue; (repeat' split) <;> simp_all
@[simp] theorem tableValue_drift (b : ValueBody) (n : Fin 8) (r : Role) (s : State) : (tableValue b n r s).drift = s.drift := by
  unfold tableValue; (repeat' split) <;> simp_all
@[simp] theorem tableValue_pages (b : ValueBody) (n : Fin 8) (r : Role) (s : State) : (tableValue b n r s).pages = s.pages := by
  unfold tableValue; (repeat' split) <;> simp_all
@[simp] theorem tableValue_gates_drivers (b : ValueBody) (n : Fin 8) (r : Role) (s : State) : (tableValue b n r s).gates.drivers = s.gates.drivers := by
  unfold tableValue; (repeat' split) <;> simp_all
@[simp] theorem tableValue_gates_binTallies (b : ValueBody) (n : Fin 8) (r : Role) (s : State) : (tableValue b n r s).gates.binTallies = s.gates.binTallies := by
  unfold tableValue; (repeat' split) <;> simp_all
@[simp] theorem tableValue_link_lineIdle (b : ValueBody) (n : Fin 8) (r : Role) (s : State) : (tableValue b n r s).link.lineIdle = s.link.lineIdle := by
  unfold tableValue; (repeat' split) <;> simp_all
@[simp] theorem tableValue_link_quietSince (b : ValueBody) (n : Fin 8) (r : Role) (s : State) : (tableValue b n r s).link.quietSince = s.link.quietSince := by
  unfold tableValue; (repeat' split) <;> simp_all
@[simp] theorem tableValue_link_deferral (b : ValueBody) (n : Fin 8) (r : Role) (s : State) : (tableValue b n r s).link.deferral = s.link.deferral := by
  unfold tableValue; (repeat' split) <;> simp_all
@[simp] theorem tableValue_link_lastSender (b : ValueBody) (n : Fin 8) (r : Role) (s : State) : (tableValue b n r s).link.lastSender = s.link.lastSender := by
  unfold tableValue; (repeat' split) <;> simp_all
@[simp] theorem tableValue_ctl_node (b : ValueBody) (n : Fin 8) (r : Role) (s : State) : (tableValue b n r s).ctl.node = s.ctl.node := by
  unfold tableValue; (repeat' split) <;> simp_all
@[simp] theorem tableValue_ctl_role (b : ValueBody) (n : Fin 8) (r : Role) (s : State) : (tableValue b n r s).ctl.role = s.ctl.role := by
  unfold tableValue; (repeat' split) <;> simp_all
@[simp] theorem tableValue_ctl_faultReason (b : ValueBody) (n : Fin 8) (r : Role) (s : State) : (tableValue b n r s).ctl.faultReason = s.ctl.faultReason := by
  unfold tableValue; (repeat' split) <;> simp_all
@[simp] theorem tableValue_ctl_cause (b : ValueBody) (n : Fin 8) (r : Role) (s : State) : (tableValue b n r s).ctl.cause = s.ctl.cause := by
  unfold tableValue; (repeat' split) <;> simp_all
@[simp] theorem tableValue_ctl_listenDue (b : ValueBody) (n : Fin 8) (r : Role) (s : State) : (tableValue b n r s).ctl.listenDue = s.ctl.listenDue := by
  unfold tableValue; (repeat' split) <;> simp_all
@[simp] theorem tableValue_ctl_items (b : ValueBody) (n : Fin 8) (r : Role) (s : State) : (tableValue b n r s).ctl.items = s.ctl.items := by
  unfold tableValue; (repeat' split) <;> simp_all
@[simp] theorem tableValue_alerts_mask (b : ValueBody) (n : Fin 8) (r : Role) (s : State) : (tableValue b n r s).alerts.mask = s.alerts.mask := by
  unfold tableValue; (repeat' split) <;> simp_all
@[simp] theorem tableValue_alerts_master (b : ValueBody) (n : Fin 8) (r : Role) (s : State) : (tableValue b n r s).alerts.master = s.alerts.master := by
  unfold tableValue; (repeat' split) <;> simp_all
@[simp] theorem tableValue_work_status (b : ValueBody) (n : Fin 8) (r : Role) (s : State) : (tableValue b n r s).work.status = s.work.status := by
  unfold tableValue; (repeat' split) <;> simp_all
@[simp] theorem tableValue_freeDraws (b : ValueBody) (n : Fin 8) (r : Role) (s : State) : (tableValue b n r s).freeDraws = s.freeDraws := by
  unfold tableValue; (repeat' split) <;> simp_all
@[simp] theorem tableValue_pending (b : ValueBody) (n : Fin 8) (r : Role) (s : State) : (tableValue b n r s).pending = s.pending := by
  unfold tableValue; (repeat' split) <;> simp_all
@[simp] theorem tableVerdict_now (b : VerdictBody) (n : Fin 8) (r : Role) (s : State) : (tableVerdict b n r s).now = s.now := by
  unfold tableVerdict; (repeat' split) <;> simp_all
@[simp] theorem tableVerdict_resetHeld (b : VerdictBody) (n : Fin 8) (r : Role) (s : State) : (tableVerdict b n r s).resetHeld = s.resetHeld := by
  unfold tableVerdict; (repeat' split) <;> simp_all
@[simp] theorem tableVerdict_idx_lastIndex (b : VerdictBody) (n : Fin 8) (r : Role) (s : State) : (tableVerdict b n r s).idx.lastIndex = s.idx.lastIndex := by
  unfold tableVerdict; (repeat' split) <;> simp_all
@[simp] theorem tableVerdict_idx_retireLimit (b : VerdictBody) (n : Fin 8) (r : Role) (s : State) : (tableVerdict b n r s).idx.retireLimit = s.idx.retireLimit := by
  unfold tableVerdict; (repeat' split) <;> simp_all
@[simp] theorem tableVerdict_idx_currentPage (b : VerdictBody) (n : Fin 8) (r : Role) (s : State) : (tableVerdict b n r s).idx.currentPage = s.idx.currentPage := by
  unfold tableVerdict; (repeat' split) <;> simp_all
@[simp] theorem tableVerdict_idx_firingReq (b : VerdictBody) (n : Fin 8) (r : Role) (s : State) : (tableVerdict b n r s).idx.firingReq = s.idx.firingReq := by
  unfold tableVerdict; (repeat' split) <;> simp_all
@[simp] theorem tableVerdict_eng_recentPage (b : VerdictBody) (n : Fin 8) (r : Role) (s : State) : (tableVerdict b n r s).eng.recentPage = s.eng.recentPage := by
  unfold tableVerdict; (repeat' split) <;> simp_all
@[simp] theorem tableVerdict_drift (b : VerdictBody) (n : Fin 8) (r : Role) (s : State) : (tableVerdict b n r s).drift = s.drift := by
  unfold tableVerdict; (repeat' split) <;> simp_all
@[simp] theorem tableVerdict_pages (b : VerdictBody) (n : Fin 8) (r : Role) (s : State) : (tableVerdict b n r s).pages = s.pages := by
  unfold tableVerdict; (repeat' split) <;> simp_all
@[simp] theorem tableVerdict_gates_drivers (b : VerdictBody) (n : Fin 8) (r : Role) (s : State) : (tableVerdict b n r s).gates.drivers = s.gates.drivers := by
  unfold tableVerdict; (repeat' split) <;> simp_all
@[simp] theorem tableVerdict_gates_binTallies (b : VerdictBody) (n : Fin 8) (r : Role) (s : State) : (tableVerdict b n r s).gates.binTallies = s.gates.binTallies := by
  unfold tableVerdict; (repeat' split) <;> simp_all
@[simp] theorem tableVerdict_link_lineIdle (b : VerdictBody) (n : Fin 8) (r : Role) (s : State) : (tableVerdict b n r s).link.lineIdle = s.link.lineIdle := by
  unfold tableVerdict; (repeat' split) <;> simp_all
@[simp] theorem tableVerdict_link_quietSince (b : VerdictBody) (n : Fin 8) (r : Role) (s : State) : (tableVerdict b n r s).link.quietSince = s.link.quietSince := by
  unfold tableVerdict; (repeat' split) <;> simp_all
@[simp] theorem tableVerdict_link_deferral (b : VerdictBody) (n : Fin 8) (r : Role) (s : State) : (tableVerdict b n r s).link.deferral = s.link.deferral := by
  unfold tableVerdict; (repeat' split) <;> simp_all
@[simp] theorem tableVerdict_link_lastSender (b : VerdictBody) (n : Fin 8) (r : Role) (s : State) : (tableVerdict b n r s).link.lastSender = s.link.lastSender := by
  unfold tableVerdict; (repeat' split) <;> simp_all
@[simp] theorem tableVerdict_ctl_node (b : VerdictBody) (n : Fin 8) (r : Role) (s : State) : (tableVerdict b n r s).ctl.node = s.ctl.node := by
  unfold tableVerdict; (repeat' split) <;> simp_all
@[simp] theorem tableVerdict_ctl_role (b : VerdictBody) (n : Fin 8) (r : Role) (s : State) : (tableVerdict b n r s).ctl.role = s.ctl.role := by
  unfold tableVerdict; (repeat' split) <;> simp_all
@[simp] theorem tableVerdict_ctl_faultReason (b : VerdictBody) (n : Fin 8) (r : Role) (s : State) : (tableVerdict b n r s).ctl.faultReason = s.ctl.faultReason := by
  unfold tableVerdict; (repeat' split) <;> simp_all
@[simp] theorem tableVerdict_ctl_cause (b : VerdictBody) (n : Fin 8) (r : Role) (s : State) : (tableVerdict b n r s).ctl.cause = s.ctl.cause := by
  unfold tableVerdict; (repeat' split) <;> simp_all
@[simp] theorem tableVerdict_ctl_listenDue (b : VerdictBody) (n : Fin 8) (r : Role) (s : State) : (tableVerdict b n r s).ctl.listenDue = s.ctl.listenDue := by
  unfold tableVerdict; (repeat' split) <;> simp_all
@[simp] theorem tableVerdict_ctl_items (b : VerdictBody) (n : Fin 8) (r : Role) (s : State) : (tableVerdict b n r s).ctl.items = s.ctl.items := by
  unfold tableVerdict; (repeat' split) <;> simp_all
@[simp] theorem tableVerdict_alerts_mask (b : VerdictBody) (n : Fin 8) (r : Role) (s : State) : (tableVerdict b n r s).alerts.mask = s.alerts.mask := by
  unfold tableVerdict; (repeat' split) <;> simp_all
@[simp] theorem tableVerdict_alerts_master (b : VerdictBody) (n : Fin 8) (r : Role) (s : State) : (tableVerdict b n r s).alerts.master = s.alerts.master := by
  unfold tableVerdict; (repeat' split) <;> simp_all
@[simp] theorem tableVerdict_work_status (b : VerdictBody) (n : Fin 8) (r : Role) (s : State) : (tableVerdict b n r s).work.status = s.work.status := by
  unfold tableVerdict; (repeat' split) <;> simp_all
@[simp] theorem tableVerdict_freeDraws (b : VerdictBody) (n : Fin 8) (r : Role) (s : State) : (tableVerdict b n r s).freeDraws = s.freeDraws := by
  unfold tableVerdict; (repeat' split) <;> simp_all
@[simp] theorem tableVerdict_pending (b : VerdictBody) (n : Fin 8) (r : Role) (s : State) : (tableVerdict b n r s).pending = s.pending := by
  unfold tableVerdict; (repeat' split) <;> simp_all

end Sys2Proof.Machine
end

