-- ==== Sys2Proof/Laws/Alerts.lean ====
section
/-! SUPPORT. What raising a flag does to the alert word, flag by flag (R182, R183). -/

namespace Sys2Proof.Machine

/-- Setting a flag's bit sets that flag and no other. -/
@[simp] theorem flagIn_or_bit (w : BitVec 32) (f g : AlertFlag) : flagIn (w ||| f.bit) g = (flagIn w g || f == g) := by
  cases f <;> cases g <;> simp [flagIn, AlertFlag.bit, AlertFlag.pos]

/-- R182: a raised flag is set, and every other flag keeps its value. -/
@[simp] theorem raise_flag (f g : AlertFlag) (s : State) : flagIn (raise f s).alerts.word g = (flagIn s.alerts.word g || f == g) := by
  unfold raise
  split
  · rename_i h
    by_cases hg : f = g
    · subst hg; simp [h]
    · simp [hg]
  · dsimp only; split <;> simp

/-- A flag raised under a condition. -/
@[simp] theorem raiseIf_flag (c : Bool) (f g : AlertFlag) (s : State) :
    flagIn (raiseIf c f s).alerts.word g = (flagIn s.alerts.word g || (c && f == g)) := by
  cases c <;> simp [raiseIf]

/-- Whether a bin is full does not depend on the alert word or on what has been offered. -/
@[simp] theorem binIsFull_raiseIf (c : Bool) (f : AlertFlag) (s : State) (p : Fin 4) : (raiseIf c f s).binIsFull p = s.binIsFull p := by
  funext b; simp [State.binIsFull, State.binTally]

/-- Whether a level condition stands does not depend on the alert word or on what has been offered. -/
@[simp] theorem levelStands_raiseIf (c : Bool) (f g : AlertFlag) (s : State) : (raiseIf c f s).levelStands g = s.levelStands g := by
  cases g <;> simp [State.levelStands, State.standing, State.locked, State.page, State.anyBinFull]

/-- R183: the level flags whose condition stands are raised, and nothing else changes in the word. -/
@[simp] theorem refreshLevels_flag (s : State) (g : AlertFlag) :
    flagIn (refreshLevels s).alerts.word g = (flagIn s.alerts.word g || (levelFlags.contains g && s.levelStands g)) := by
  cases g <;> simp [refreshLevels, levelFlags, beq_eq_decide]

end Sys2Proof.Machine
end

