-- ==== Sys2Proof/Laws/Cells.lean ====
section
/-! SUPPORT. A cell on the line and back (R138). -/

namespace Sys2Proof

theorem bitLevel_recessive (b : Bool) : (bitLevel b == LineLevel.recessive) = b := by cases b <;> rfl

/-- The thirteen bits after the start mark, read in their order, are the cell with its parity bit. -/
theorem bitsRead_lineCell (c : Cell) : bitsRead (lineCell c).tail = wireCell c := by
  simp only [lineCell, List.tail_cons, bitsRead, List.foldl_map, bitLevel_recessive]
  generalize wireCell c = w
  refine BitVec.eq_of_getMsbD_eq fun i hi => ?_
  rw [show List.range 13 = [0, 1, 2, 3, 4, 5, 6, 7, 8, 9, 10, 11, 12] from rfl]
  simp only [List.foldl_cons, List.foldl_nil]
  rw [BitVec.getMsbD_eq_getLsbD]
  simp only [BitVec.getLsbD_shiftConcat]
  interval_cases i <;> simp

theorem getLsbD_wireCell (c : Cell) (i : Nat) : (wireCell c).getLsbD i = if i = 0 then parityBit c else c.getLsbD (i - 1) := by
  unfold wireCell
  rw [show (c ++ BitVec.ofBool (parityBit c)).getLsbD i = _ from BitVec.getLsbD_append]
  by_cases h : i = 0 <;> simp [h]

/-- The data bits of a cell with its parity bit are the cell. -/
theorem cellData_wireCell (c : Cell) : cellData (wireCell c) = c := by
  refine BitVec.eq_of_getLsbD_eq fun i hi => ?_
  simp only [cellData, BitVec.getLsbD_extractLsb', hi, decide_true, Bool.true_and, getLsbD_wireCell]
  rw [if_neg (by omega), Nat.add_sub_cancel_left]

theorem parityOk_wireCell (c : Cell) : parityOk (wireCell c) = true := by
  simp only [parityOk, cellData_wireCell, getLsbD_wireCell, if_true, beq_self_eq_true]

/-- A cell that the line carries whole is read as it was sent. -/
theorem readCell_lineCell (c : Cell) : readCell (lineCell c) = some c := by
  have h : readCell (lineCell c)
      = if (lineCell c).tail.length = 13 ∧ parityOk (bitsRead (lineCell c).tail) then some (cellData (bitsRead (lineCell c).tail)) else none := rfl
  rw [h, bitsRead_lineCell, cellData_wireCell, if_pos ⟨by simp [lineCell], parityOk_wireCell c⟩]

end Sys2Proof
end

