-- ==== Sys2Proof/Laws/Settle.lean ====
section
/-! SUPPORT. The end of a command (`settle`) and the frame of a command (`event`): everything they can do, in the terms of `Tail`. -/

namespace Sys2Proof.Machine

/-! ### Offers -/

/-- R145: an offer leaves the queue as it was or adds the frame at its tail. -/
theorem offer_queue (f : QFrame) (s : State) :
    (offer f s).link.queue = s.link.queue ∨ (offer f s).link.queue = s.link.queue ++ [{ frame := f, waiting := 0 }] := by
  unfold offer
  split
  · exact .inl rfl
  · split
    · exact .inl (by simp)
    · exact .inr (by simp [enqueue])

/-- R182: raising a flag leaves the positions 26 to 32 alone. -/
theorem raise_spare (f : AlertFlag) (s : State) : (raise f s).alerts.word &&& ~~~assignedMask = s.alerts.word &&& ~~~assignedMask := by
  have h : ∀ w : BitVec 32, (w ||| f.bit) &&& ~~~assignedMask = w &&& ~~~assignedMask := by
    intro w
    have h0 : f.bit &&& ~~~assignedMask = 0 := by cases f <;> decide
    rw [BitVec.and_comm, BitVec.and_or_distrib_left, BitVec.and_comm _ f.bit, h0, BitVec.and_comm]; simp
  unfold raise
  split
  · rfl
  · dsimp only; split <;> simpa using h _

/-- A queue only grows at its tail, and a word only gains TXQ_OVERFLOW, from `a` to `u`. -/
structure Grows (a u : State) : Prop where
  queue : ∃ more, u.link.queue = a.link.queue ++ more
  keptFlags : ∀ g, flagIn a.alerts.word g = true → flagIn u.alerts.word g = true
  newFlags : ∀ g, flagIn u.alerts.word g = true → flagIn a.alerts.word g = true ∨ g = .txqOverflow
  spare : u.alerts.word &&& ~~~assignedMask = a.alerts.word &&& ~~~assignedMask

theorem Grows.refl (s : State) : Grows s s := ⟨⟨[], by simp⟩, fun _ h => h, fun _ h => .inl h, rfl⟩

theorem Grows.trans {a b c : State} (h1 : Grows a b) (h2 : Grows b c) : Grows a c := by
  obtain ⟨m1, e1⟩ := h1.queue
  obtain ⟨m2, e2⟩ := h2.queue
  exact
    ⟨⟨m1 ++ m2, by rw [e2, e1, List.append_assoc]⟩, fun g h => h2.keptFlags g (h1.keptFlags g h),
      fun g h => (h2.newFlags g h).elim (h1.newFlags g) .inr, h2.spare.trans h1.spare⟩

/-- Queue and word decide it. -/
theorem Grows.of_eq {a b u v : State} (h : Grows a b) (qa : u.link.queue = a.link.queue) (wa : u.alerts.word = a.alerts.word)
    (qb : v.link.queue = b.link.queue) (wb : v.alerts.word = b.alerts.word) : Grows u v :=
  ⟨by rw [qa, qb]; exact h.queue, by rw [wa, wb]; exact h.keptFlags, by rw [wa, wb]; exact h.newFlags, by rw [wa, wb]; exact h.spare⟩

/-- Raising TXQ_OVERFLOW. -/
theorem raise_grows (s : State) : Grows s (raise .txqOverflow s) :=
  ⟨⟨[], by simp⟩, fun g h => by simp [h], fun g h => by
    simp only [raise_flag, Bool.or_eq_true, beq_iff_eq] at h
    exact h.imp id Eq.symm, raise_spare _ s⟩

/-- Frames at the tail. -/
theorem enqueue_grows (fs : List QFrame) (s : State) : Grows s (enqueue fs s) :=
  ⟨⟨_, rfl⟩, fun _ h => by simpa using h, fun _ h => .inl (by simpa using h), by simp⟩

/-- One offer. -/
theorem offer_grows (f : QFrame) (s : State) : Grows s (offer f s) := by
  unfold offer
  split
  · exact Grows.refl s
  · split
    · exact raise_grows s
    · exact enqueue_grows _ s

/-- The offers of unit records. -/
theorem offerAll_grows (l : List QFrame) (s : State) : Grows s (l.foldl (fun a f => offer f a) s) := by
  induction l generalizing s with
  | nil => exact Grows.refl s
  | cons f l ih => exact (offer_grows f s).trans (ih _)

/-- R157: the STATUS frames of one reply. -/
theorem offerReply_grows (b : List (List Cell)) (s : State) : Grows s (offerReply b s) := by
  unfold offerReply
  split
  · exact Grows.refl s
  · split
    · exact raise_grows s
    · exact enqueue_grows _ s

/-- R169, R185: an offer that a waiting frame may serve. -/
theorem offerOnce_grows (f : QFrame) (s : State) : Grows s (offerOnce f s) := by
  unfold offerOnce
  split
  · exact Grows.refl s
  · exact offer_grows f s

/-- An offer made under a condition. -/
theorem offerOnceIf_grows (c : Bool) (f : QFrame) (s : State) : Grows s (if c then offerOnce f s else s) := by
  cases c
  · exact Grows.refl s
  · exact offerOnce_grows f s

/-- R145: what a command offers after its unit records and STATUS frames. -/
theorem flush_afterStatus (s : State) : Grows (offerReply s.work.status (s.work.units.foldl (fun a f => offer f a) s)) (flush s) := by
  have hw : (s.work.units.foldl (fun a f => offer f a) s).work.status = s.work.status := by simp
  have h : Grows (offerReply (s.work.units.foldl (fun a f => offer f a) s).work.status (s.work.units.foldl (fun a f => offer f a) s)) (flush s) :=
    ((offerOnceIf_grows _ .hail _).trans (offerOnceIf_grows _ .alert _)).of_eq rfl rfl rfl rfl
  rwa [hw] at h

/-- R145: what a command offers after its unit records. -/
theorem flush_afterUnits (s : State) : Grows (s.work.units.foldl (fun a f => offer f a) s) (flush s) :=
  (offerReply_grows _ _).trans (flush_afterStatus s)

/-- R145: all the offers of a command. -/
theorem flush_grows (s : State) : Grows s (flush s) := (offerAll_grows s.work.units s).trans (flush_afterUnits s)

/-- Nothing offered is left over. -/
@[simp] theorem flush_work (s : State) : (flush s).work = Work.empty := rfl

/-! ### Settling -/

/-- R178: the drain test changes Run Control only where a drain is complete. -/
theorem drainTest_ctl (s : State) :
    (drainTest s).ctl
      = if s.ctl.drain && s.ctl.run == .run && !s.table.entries.any s.awaits
        then { s.ctl with run := .halt, drain := false, hailDue := some (s.now + Config.hailPeriod) } else s.ctl := by
  unfold drainTest
  split
  · rename_i h
    simp only [Bool.and_eq_true, beq_iff_eq] at h
    simp [setStation, stateCode, h.1.1, h.1.2, offerHail]
  · rfl

/-- Whether a bin is full does not depend on the station state. -/
@[simp] theorem binIsFull_drainTest (s : State) (p : Fin 4) : (drainTest s).binIsFull p = s.binIsFull p := by
  funext b; simp [State.binIsFull, State.binTally]

/-- Whether a level condition stands does not depend on the station state. -/
@[simp] theorem levelStands_drainTest (g : AlertFlag) (s : State) : (drainTest s).levelStands g = s.levelStands g := by
  cases g <;> simp [State.levelStands, State.standing, State.locked, State.page, State.anyBinFull]

/-- A level condition belongs to a level flag (R182). -/
theorem levelStands_mem (g : AlertFlag) (s : State) : (levelFlags.contains g && s.levelStands g) = s.levelStands g := by
  cases g <;> simp [levelFlags, State.levelStands]

/-- R183: raising level flags leaves the positions 26 to 32 alone. -/
theorem refreshLevels_spare (s : State) : (refreshLevels s).alerts.word &&& ~~~assignedMask = s.alerts.word &&& ~~~assignedMask := by
  have h : ∀ (l : List AlertFlag) (s0 a : State),
      (l.foldl (fun a f => raiseIf (s0.levelStands f) f a) a).alerts.word &&& ~~~assignedMask = a.alerts.word &&& ~~~assignedMask := by
    intro l s0
    induction l with
    | nil => intro a; rfl
    | cons f l ih =>
      intro a
      rw [List.foldl_cons, ih]
      unfold raiseIf
      split
      · exact raise_spare f a
      · rfl
  exact h _ s s

/-- R144: what a frame carries does not depend on the link. -/
@[simp] theorem cellsOf_withLink (s : State) (l : Link) (f : QFrame) : (s.withLink l).cellsOf f = s.cellsOf f := by cases f <;> rfl

/-- R140, R144: a header cell that starts. -/
theorem tryStart_line (s : State) :
    ((s.mayStart = false ∨ s.link.queue = []) ∧ (tryStart s).link = s.link)
      ∨ (s.mayStart = true
          ∧ ∃ q rest, s.link.queue = q :: rest
            ∧ tryStart s = s.withLink
                { s.link with
                  tx := some { won := false, mark := s.freshMark, frame := q.frame, cells := s.cellsOf q.frame }
                  lineIdle := false
                  quietSince := s.now
                  deferral := .no }) := by
  unfold tryStart
  split
  · rename_i h; exact .inl ⟨.inr h, rfl⟩
  · rename_i q rest hq
    split
    · exact .inr ⟨‹_›, q, rest, hq, rfl⟩
    · rename_i h; exact .inl ⟨.inl (by simpa using h), rfl⟩

/-- R140: whether a header cell may start does not depend on what else the end of a command does. -/
theorem settle_mayStart (a : State) : (flush (refreshLevels (drainTest a))).mayStart = a.mayStart := by simp [State.mayStart]

/-- R140, R145, R178, R183: the end of a command. -/
theorem settle_tail (a : State) : Tail a (settle a) where
  now := by simp
  resetHeld := by simp
  idx := by simp
  table := by simp
  eng := by simp
  drift := by simp
  pages := by simp
  gates := by simp
  peers := by simp
  freeDraws := by simp
  pending := by simp
  work := by simp [settle]
  mask := by simp
  master := by simp
  flags := fun f hf => by
    have hg := flush_grows (refreshLevels (drainTest a))
    rw [Bool.eq_iff_iff, settle, tryStart_alerts]
    have e : flagIn (refreshLevels (drainTest a)).alerts.word f = (flagIn a.alerts.word f || a.levelStands f) := by
      rw [refreshLevels_flag, levelStands_mem]; simp
    constructor
    · intro h
      have := (hg.newFlags f h).resolve_right hf
      rwa [e] at this
    · intro h
      exact hg.keptFlags f (e ▸ h)
  overflow := by rw [settle, tryStart_alerts]; rfl
  spare := by
    rw [settle, tryStart_alerts, (flush_grows _).spare, refreshLevels_spare]; simp
  ctl := by simpa [settle] using drainTest_ctl a
  queue := by rw [settle, tryStart_link_queue]; rfl
  line := by
    rcases tryStart_line (flush (refreshLevels (drainTest a))) with ⟨hc, h⟩ | ⟨hm, q, rest, hq, he⟩
    · rw [settle_mayStart] at hc
      left; rw [settle, h]; exact ⟨hc, by simp⟩
    · right
      rw [settle_mayStart] at hm
      refine ⟨hm, ?_⟩
      rw [settle, he]
      exact ⟨rfl, by simp, rfl, q, rest, hq, by simp [State.freshMark, State.edgeWindowOpen]⟩
  rx := by simp
  lastSender := by simp

/-! ### The level flags among other changes -/

/-- R182: the order in which flags are raised does not show. -/
theorem raise_comm (f g : AlertFlag) (s : State) : raise f (raise g s) = raise g (raise f s) := by
  by_cases h : f = g
  · rw [h]
  have hfg : ∀ w : BitVec 32, flagIn (w ||| f.bit) g = flagIn w g := by intro w; simp [h]
  have hgf : ∀ w : BitVec 32, flagIn (w ||| g.bit) f = flagIn w f := by intro w; simp [Ne.symm h]
  have e : ∀ w : BitVec 32, w ||| g.bit ||| f.bit = w ||| f.bit ||| g.bit := by
    intro w; rw [BitVec.or_assoc, BitVec.or_comm g.bit, ← BitVec.or_assoc]
  unfold raise
  cases h1 : flagIn s.alerts.word f <;> cases h2 : flagIn s.alerts.word g <;>
    cases h3 : (s.ctl.items.broadcastAlerts && flagIn s.alerts.mask f) <;>
    cases h4 : (s.ctl.items.broadcastAlerts && flagIn s.alerts.mask g) <;>
    simp [h1, h2, h3, h4, hfg, hgf, e, State.withWork, State.withAlerts]

/-- R182: a flag that is set is not raised again. -/
theorem raise_set {f : AlertFlag} {s : State} (h : flagIn s.alerts.word f = true) : raise f s = s := by simp [raise, h]

/-- R183: a change that neither an alert nor a level condition looks at may come before the level flags or after them. -/
theorem refreshLevels_comm (g : State → State) (s : State) (hg : ∀ f a, raise f (g a) = g (raise f a))
    (hl : ∀ f, (g s).levelStands f = s.levelStands f) : refreshLevels (g s) = g (refreshLevels s) := by
  have h : ∀ (l : List AlertFlag) (a : State),
      l.foldl (fun a f => raiseIf (s.levelStands f) f a) (g a) = g (l.foldl (fun a f => raiseIf (s.levelStands f) f a) a) := by
    intro l
    induction l with
    | nil => intro a; rfl
    | cons f l ih =>
      intro a
      rw [List.foldl_cons, List.foldl_cons, ← ih]
      congr 1
      unfold raiseIf; split
      · exact hg f a
      · rfl
  unfold refreshLevels
  simp only [hl]
  exact h _ s

/-- The parts of the state that the level conditions look at. -/
theorem levelStands_congr {a b : State} (h1 : b.now = a.now) (h2 : b.peers = a.peers) (h3 : b.drift = a.drift) (h4 : b.pages = a.pages)
    (h5 : b.gates.binTallies = a.gates.binTallies) (h6 : b.eng.recentPage = a.eng.recentPage) (h7 : b.ctl.items.driftLimit = a.ctl.items.driftLimit)
    (f : AlertFlag) : b.levelStands f = a.levelStands f := by
  have hb : ∀ p, b.binIsFull p = a.binIsFull p := by intro p; funext x; simp [State.binIsFull, State.binTally, h5]
  cases f <;> simp [State.levelStands, State.standing, State.locked, State.page, State.anyBinFull, hb, h1, h2, h3, h4, h6, h7]

/-- R183: a flag raised with the level flags. -/
theorem refreshLevels_raise (f : AlertFlag) (s : State) : refreshLevels (raise f s) = raise f (refreshLevels s) :=
  refreshLevels_comm (raise f) s (fun g a => raise_comm g f a)
    (levelStands_congr (by simp) (by simp) (by simp) (by simp) (by simp) (by simp) (by simp))

/-- R169: a HAIL offered with the level flags. -/
theorem refreshLevels_offerHail (s : State) : refreshLevels (offerHail s) = offerHail (refreshLevels s) := by
  refine refreshLevels_comm offerHail s (fun f a => ?_) (levelStands_congr (by simp) (by simp) (by simp) (by simp) (by simp) (by simp) (by simp [offerHail]))
  unfold raise offerHail
  cases h1 : flagIn a.alerts.word f <;> cases h3 : (a.ctl.items.broadcastAlerts && flagIn a.alerts.mask f) <;>
    simp [h1, h3, State.withWork, State.withCtl, State.withAlerts]

/-- Changes of Run Control that leave the items alone, with the level flags. -/
theorem refreshLevels_ctl_change (x : RunControl → RunControl) (hx : ∀ c, (x c).items = c.items) (s : State) :
    refreshLevels (s.withCtl (x s.ctl)) = (refreshLevels s).withCtl (x (refreshLevels s).ctl) := by
  refine refreshLevels_comm (fun a => a.withCtl (x a.ctl)) s (fun f a => ?_) (levelStands_congr (by simp) (by simp) (by simp) (by simp) (by simp) (by simp) (by simp [hx]))
  unfold raise
  cases h1 : flagIn a.alerts.word f <;> cases h3 : (a.ctl.items.broadcastAlerts && flagIn a.alerts.mask f) <;>
    simp [h1, h3, hx, State.withWork, State.withCtl, State.withAlerts]

/-- R183: the level flags are raised once. -/
theorem refreshLevels_refreshLevels (s : State) : refreshLevels (refreshLevels s) = refreshLevels s := by
  have hs : ∀ f, (refreshLevels s).levelStands f = s.levelStands f :=
    levelStands_congr (by simp) (by simp) (by simp) (by simp) (by simp) (by simp) (by simp)
  have h : ∀ (l : List AlertFlag) (a : State), (∀ f ∈ l, s.levelStands f = true → flagIn a.alerts.word f = true) →
      l.foldl (fun a f => raiseIf (s.levelStands f) f a) a = a := by
    intro l
    induction l with
    | nil => intro a _; rfl
    | cons f l ih =>
      intro a ha
      have e : raiseIf (s.levelStands f) f a = a := by
        unfold raiseIf; split
        · exact raise_set (ha f (by simp) ‹_›)
        · rfl
      rw [List.foldl_cons, e]
      exact ih a (fun g hg => ha g (by simp [hg]))
  rw [show refreshLevels (refreshLevels s) = levelFlags.foldl (fun a f => raiseIf ((refreshLevels s).levelStands f) f a) (refreshLevels s) from rfl]
  simp only [hs]
  refine h _ _ (fun f hf hst => ?_)
  rw [refreshLevels_flag]
  simp only [List.contains_iff_mem.mpr hf, hst, Bool.and_self, Bool.or_true]

/-- R178, R183: the drain test and the level flags do not disturb each other. -/
theorem drainTest_refreshLevels (s : State) : drainTest (refreshLevels s) = refreshLevels (drainTest s) := by
  have ha : (refreshLevels s).awaits = s.awaits := by funext e; simp [State.awaits, State.role, State.position, State.posOf]; rfl
  unfold drainTest
  simp only [refreshLevels_ctl, refreshLevels_table, ha]
  split
  · rename_i hc
    simp only [Bool.and_eq_true, beq_iff_eq] at hc
    have e : ∀ a : State, a.ctl = s.ctl → setStation .halt false a = offerHail (a.withCtl { a.ctl with run := .halt, drain := false }) := by
      intro a h
      unfold setStation; dsimp only
      rw [if_pos (by rw [h, hc.1.1, hc.1.2]; decide)]
    rw [e _ (by simp), e _ rfl, refreshLevels_offerHail, refreshLevels_ctl_change (fun c => { c with run := .halt, drain := false }) (fun _ => rfl)]
  · rfl

/-- R183: level flags raised early leave the same end of a command. -/
theorem flushed_refreshLevels (s : State) : flushed (refreshLevels s) = flushed s := by
  unfold flushed; rw [drainTest_refreshLevels, refreshLevels_refreshLevels]

/-- R183: level flags raised early leave the same end of a command. -/
theorem settle_refreshLevels (s : State) : settle (refreshLevels s) = settle s := congrArg tryStart (flushed_refreshLevels s)

/-! ### Where an offered frame lands -/

/-- R145: admission does not depend on what is queued or on the word. -/
theorem admits_congr {a b : State} (h : b.ctl = a.ctl) (f : QFrame) : b.admits f = a.admits f := by simp [State.admits, h]

/-- R145: frames that are admitted and have room join the tail in their order. -/
theorem offerAll_queue (fs : List QFrame) (a : State) (had : ∀ f ∈ fs, a.admits f = true) (hroom : a.link.queue.length + fs.length ≤ 6) :
    (fs.foldl (fun a f => offer f a) a).link.queue = a.link.queue ++ fs.map (fun f => { frame := f, waiting := 0 }) := by
  induction fs generalizing a with
  | nil => simp
  | cons f fs ih =>
    have h0 : a.freePlaces ≠ 0 := by
      simp only [State.freePlaces, List.length_cons] at hroom ⊢
      show 6 - a.link.queue.length ≠ 0
      omega
    have e : offer f a = enqueue [f] a := by simp [offer, had f (by simp), h0]
    rw [List.foldl_cons, e, ih]
    · simp [enqueue]
    · intro g hg; exact had g (by simp [hg])
    · simp [enqueue] at hroom ⊢; omega

/-- R145: the drain test leaves the admission of a frame alone: RUN and HALT admit alike. -/
theorem drainTest_admits (f : QFrame) (a : State) : (drainTest a).admits f = a.admits f := by
  rw [State.admits, State.admits, drainTest_ctl]
  split
  · rename_i h
    simp only [Bool.and_eq_true, beq_iff_eq] at h
    simp only [h.1.2]
    cases a.ctl.activity <;> cases f <;> rfl
  · rfl

/-- R145, R146: unit records that are admitted and have room are queued first of all that the command offers. -/
theorem settle_units (a : State) (had : ∀ f ∈ a.work.units, a.admits f = true) (hroom : a.link.queue.length + a.work.units.length ≤ 6) :
    Queued a a.work.units (settle a) := by
  have hq := offerAll_queue a.work.units (refreshLevels (drainTest a))
    (fun f hf => by rw [admits_congr (a := drainTest a) (by simp), drainTest_admits]; exact had f hf) (by simpa using hroom)
  obtain ⟨more, hm⟩ := (flush_afterUnits (refreshLevels (drainTest a))).queue
  simp only [refreshLevels_work_units, drainTest_work_units] at hm
  exact ⟨more, by rw [settle, tryStart_link_queue, hm, hq]; simp⟩

/-- R145, R157: the STATUS frames of a reply that are admitted and have room are queued first when no unit record is offered. -/
theorem settle_status (a : State) (hu : a.work.units = []) (hs : a.work.status ≠ []) (had : a.admits (.status []) = true)
    (hroom : a.link.queue.length + a.work.status.length ≤ 6) : Queued a (a.work.status.map .status) (settle a) := by
  obtain ⟨more, hm⟩ := (flush_afterStatus (refreshLevels (drainTest a))).queue
  simp only [refreshLevels_work_units, drainTest_work_units, refreshLevels_work_status, drainTest_work_status, hu, List.foldl_nil] at hm
  have hb : ¬ (refreshLevels (drainTest a)).freePlaces < a.work.status.length := by
    simp only [State.freePlaces, refreshLevels_link, drainTest_link]
    show ¬ 6 - _ < _
    omega
  have ha : (refreshLevels (drainTest a)).admits (.status []) = true := by
    rw [admits_congr (a := drainTest a) (by simp), drainTest_admits, had]
  refine ⟨more, ?_⟩
  rw [settle, tryStart_link_queue, hm, offerReply, if_neg (by simp [ha, hs]), if_neg hb]
  simp [enqueue]

/-- R145: a queue only grows at its tail in the end of a command. -/
theorem Tail.grows {a u : State} (h : Tail a u) : ∃ more, u.link.queue = a.link.queue ++ more := by
  rw [h.queue]; simpa [flushed] using (flush_grows (refreshLevels (drainTest a))).queue

/-- A command's frame: with RESET high the answer is a next state, the command's own effect with the end of a command behind it. -/
theorem event_tail (t : Instant) (body : State → State) (s : State) (h : s.resetHeld = false) :
    ∃ u, event t body s = .next u ∧ Tail (body (advance t s)) u :=
  ⟨settle (body (advance t s)), by simp [event, h], settle_tail _⟩

/-- While RESET is held low a command changes nothing but the clock (R172). -/
theorem event_held (t : Instant) (body : State → State) (s : State) (h : s.resetHeld = true) : event t body s = .next (advance t s) := by
  simp [event, h]

/-- A command always answers a next state. -/
theorem event_next (t : Instant) (body : State → State) (s : State) : ∃ u, event t body s = .next u := ⟨_, rfl⟩

/-- Time never goes back. -/
@[simp] theorem advance_now (t : Instant) (s : State) : (advance t s).now = max s.now t := by simp [advance]

/-- A header cell that does not end leaves the link as it was. -/
theorem advance_link (t : Instant) (s : State) (h : s.link.tx = none) : (advance t s).link = s.link := by
  simp [advance, winClaim, h]

end Sys2Proof.Machine
end

