-- ==== Sys2Proof/Laws/Peers.lean ====
section
/-! SUPPORT. What the tests on the peers, the firings and the line leave, said once each (R120 to R171). -/

namespace Sys2Proof.Machine

/-- R130: the end of a pulse. -/
theorem endPulse_eq (g tag) (b : State) : endPulse g tag b =
   (removeTag tag (b.withGates { b.gates with drivers := b.gates.drivers.set g .idle, firings := b.gates.firings.filter (fun f => f.tag != tag) })).withIdx
            { b.idx with firingReq := b.idx.firingReq && (b.gates.firings.filter (fun f => f.tag != tag)).any (fun f => f.stage != .waiting) } := by
  have h0 : dropFiring tag (setDriver g .idle b) = b.withGates { b.gates with drivers := b.gates.drivers.set g .idle, firings := b.gates.firings.filter (fun f => f.tag != tag) } := by
    simp [dropFiring, setDriver]
  unfold endPulse
  rw [h0]
  generalize hX : removeTag tag _ = X
  have hf : X.gates.firings = b.gates.firings.filter (fun f => f.tag != tag) := by rw [← hX]; simp
  have hi : X.idx = b.idx := by rw [← hX]; simp
  dsimp only
  rw [hf]
  cases hc : (b.gates.firings.filter (fun f => f.tag != tag)).any (fun f => f.stage != .waiting)
  · simp [setFiringReq, hi]
  · simp only [Bool.and_true]
    rw [← hi]; rfl

/-- R35: the entry of a tag leaves. -/
theorem removeTag_entries (tag) (b : State) : (removeTag tag b).table.entries = b.table.entries.filter (fun e => e.tag != tag) := by
  unfold removeTag removeEntries; rfl

/-- R120: an IDLE driver leaves its output off. -/
theorem gateDrive_idle {u : State} {g : Fin 16} (h : u.gates.drivers[g] = .idle) : u.gateDrive g = .off := by
  unfold State.gateDrive; split; rfl; rw [h]

/-- R183: raising the level flags early leaves the same end of a command. -/
theorem Tail.of_refresh {a u : State} (h : Tail (refreshLevels a) u) : Tail a u := by
  have hl : ∀ g, (refreshLevels a).levelStands g = a.levelStands g :=
    levelStands_congr (by simp) (by simp) (by simp) (by simp) (by simp) (by simp) (by simp)
  have hf := flushed_refreshLevels a
  refine ⟨by simpa using h.now, by simpa using h.resetHeld, by simpa using h.idx, by simpa using h.table, by simpa using h.eng, by simpa using h.drift, by simpa using h.pages, by simpa using h.gates, by simpa using h.peers, by simpa using h.freeDraws, by simpa using h.pending, h.work, by simpa using h.mask, by simpa using h.master, ?_,
    hf ▸ h.overflow, ?_, ?_, hf ▸ h.queue, ?_, by simpa using h.rx, by simpa using h.lastSender⟩
  · intro f hf
    rw [h.flags f hf, refreshLevels_flag, levelStands_mem, hl]
    cases flagIn a.alerts.word f <;> simp
  · rw [h.spare, refreshLevels_spare]
  · rw [h.ctl]
    have : (refreshLevels a).awaits = a.awaits := by funext e; simp [State.awaits, State.role, State.position, State.posOf]; rfl
    simp [this]
  · have := h.line
    simpa [State.mayStart, State.freshMark, State.edgeWindowOpen] using this

/-- R145, R169: a HAIL offered to a queue that has room is in it. -/
theorem hail_queued (Y : State) (hw : Y.work.units = [] ∧ Y.work.status = [] ∧ Y.work.hail = true) (hr : Y.link.queue.length < 6) : ∃ q ∈ (settle Y).link.queue, q.frame = .hail := by
  have had : ∀ Z : State, Z.admits .hail = true := by
    intro Z; unfold State.admits admits; cases Z.ctl.run <;> cases Z.ctl.activity <;> rfl
  unfold settle
  rw [tryStart_link_queue]
  generalize hZ : refreshLevels (drainTest Y) = Z
  have hz : Z.work.units = [] ∧ Z.work.status = [] ∧ Z.work.hail = true ∧ Z.link = Y.link := by
    rw [← hZ]; refine ⟨by simpa using hw.1, by simpa using hw.2.1, ?_, by simp⟩
    have hrh : ∀ (l : List AlertFlag) (s0 a : State), (l.foldl (fun a f => raiseIf (s0.levelStands f) f a) a).work.hail = a.work.hail := by
      intro l s0; induction l with
      | nil => intro a; rfl
      | cons f l ih => intro a; rw [List.foldl_cons, ih]; simp [raiseIf]; split <;> simp [raise]; split <;> [rfl; (split <;> rfl)]
    rw [show (refreshLevels (drainTest Y)).work.hail = (drainTest Y).work.hail from hrh _ _ _]; unfold drainTest; split
    · unfold setStation; dsimp only; split
      · rfl
      · exact hw.2.2
    · exact hw.2.2
  obtain ⟨h1, h2, h3, h4⟩ := hz
  have hrep : offerReply Z.work.status Z = Z := by rw [h2]; rfl
  have hf : ∃ q ∈ (offerOnce .hail Z).link.queue, q.frame = .hail := by
    unfold offerOnce
    split
    · rename_i h; simp only [List.any_eq_true, beq_iff_eq] at h
      obtain ⟨q, hq, hh⟩ := h
      refine ⟨q, ?_, hh⟩
      unfold State.unstarted at hq
      split at hq
      · split at hq
        · exact hq
        · exact List.mem_of_mem_tail hq
      · exact hq
    · unfold offer
      rw [had]
      have : Z.freePlaces ≠ 0 := by simp only [State.freePlaces, h4]; show 6 - _ ≠ 0; omega
      simp only [Bool.not_true, Bool.false_eq_true, if_false, this]
      exact ⟨⟨.hail, 0⟩, by simp [enqueue], rfl⟩
  obtain ⟨q, hq, hh⟩ := hf
  have : ∃ m, (flush Z).link.queue = (offerOnce .hail Z).link.queue ++ m := by
    unfold flush
    simp only [h1, List.foldl_nil, hrep, h3, if_true]
    exact (offerOnceIf_grows _ .alert _).queue
  obtain ⟨m, hm⟩ := this
  exact ⟨q, by rw [hm]; simp [hq], hh⟩

/-- R140: the header of the head of the queue starts where the line allows it. -/
theorem head_starts {a u : State} (ht : Tail a u) (hm : a.mayStart = true) (hq : a.link.queue ≠ []) : ∃ x, u.link.tx = some x ∧ x.won = false ∧ x.mark.startedAt = a.now := by
  rcases ht.line with ⟨h, _⟩ | ⟨_, _, _, _, q, rest, _, h⟩
  · rcases h with h | h
    · rw [hm] at h; cases h
    · obtain ⟨m, hm⟩ := ht.grows; rw [h] at hm; simp at hm; exact absurd hm.1 hq
  · exact ⟨_, h, rfl, rfl⟩

/-- R143: the length of a deferral wait. -/
theorem deferralCells_eq (n : Fin 8) (o : Option (BitVec 4)) : deferralCells n o = (match o with | some m => BitVec.ofNat 4 n.val - m | none => BitVec.ofNat 4 n.val).toNat := by
  unfold deferralCells senderOfNode
  cases o
  · simp; omega
  · rfl

/-- Raising the level flags changes no row. -/
theorem lowerQualifies_refresh {a : State} : (refreshLevels a).lowerQualifies = a.lowerQualifies := by simp [State.lowerQualifies]

/-- Raising the level flags changes no realign test. -/
theorem realignBy_refresh (a : State) : (refreshLevels a).realignBy = a.realignBy := by
  have hw : (refreshLevels a).witness = a.witness := by funext n; simp [State.witness, State.standing]
  have hv : (refreshLevels a).vetoes = a.vetoes := by funext n; simp [State.vetoes, State.standing]
  unfold State.realignBy; simp [hw, hv]

/-- R161: a peer heard last 1000 ms ago is SILENT. -/
theorem standing_silent {t s} {n : Fin 8} (hh : (s.peers[n]).heard = true) (hl : (s.peers[n]).heardAt + ms 1000 ≤ max s.now t) : (advance t s).standing n = .silent := by
  unfold State.standing Machine.standing
  simp only [advance_now, advance_peers, hh]
  simp only [Bool.not_true, Bool.false_eq_true, if_false]
  rw [if_pos]; show ms 1000 ≤ max s.now t - (s.peers[n]).heardAt
  exact Nat.le_sub_of_add_le (by rw [Nat.add_comm]; exact hl)

/-- R163, R183: a silent peer raises PEER_SILENT. -/
theorem peerSilent_raised {t : Instant} {s u X : State} {n : Fin 8} (ht : Tail X u) (h1 : X.now = max s.now t) (h2 : X.peers = s.peers) (hh : (s.peers[n]).heard = true) (hl : (s.peers[n]).heardAt + ms 1000 ≤ max s.now t) : flagIn u.alerts.word .peerSilent = true := by
  rw [ht.flags _ (by simp)]
  have := standing_silent (t := t) hh hl
  have h3 : X.levelStands .peerSilent = true := by
    simp only [State.levelStands, List.any_eq_true]
    refine ⟨n, by fin_cases n <;> decide, ?_⟩
    have : X.standing n = .silent := by rw [← this]; simp [State.standing, h1, h2]
    simp [this]
  simp [h3]

/-- R61: the end of a running sequence. -/
theorem endRunning_leaves (e) (s : State) : (endRunning e s).idx.count = s.idx.count ∧ (endRunning e s).idx.lastIndex = s.idx.lastIndex ∧ (endRunning e s).eng.ctx = none ∧ (s.eng.ctx ≠ none → (endRunning e s).idx.measReq = false) := by
  refine ⟨by simp, by simp, ?_, ?_⟩
  · unfold endRunning; split
    · simp [endEarly, closeSequence]
    · assumption
  · intro h; unfold endRunning; split
    · simp [endEarly, closeSequence, setMeasReq]
    · contradiction

end Sys2Proof.Machine
end

