-- ==== Sys2Proof/Laws/PerInstr.lean ====
section
/-! SUPPORT. For every command: the body of the frame it is, if it is one, fits the length field of a header (R139). One lemma for each constructor. -/

namespace Sys2Proof.Laws.FrameForm

/-- The body of the frame that a well-formed command is has at least one cell and at most 15, what the header's length field can say (R139). -/
def Statement (c : Instr) : Prop := ∀ f, c.wellFormed = true → encodeRaw c = some f → f.body ≠ [] ∧ f.body.length ≤ 15

/-- A command that is no frame. -/
theorem of_none {c : Instr} (h : encodeRaw c = none) : Statement c := fun f _ hf => by rw [h] at hf; cases hf

/-- A command that is a frame of known body. -/
theorem of_some {c : Instr} {f : RawFrame} (h : encodeRaw c = some f) (h1 : f.body ≠ []) (h2 : f.body.length ≤ 15) : Statement c :=
  fun g _ hg => by rw [h] at hg; cases hg; exact ⟨h1, h2⟩

/-- A console frame whose cells after the first are at most 14. -/
theorem of_console {c : Instr} {kind : BitVec 4} {h : ConsoleHead} {low : BitVec 8} {rest : List Cell}
    (e : encodeRaw c = consoleFrame kind h low rest) (hl : rest.length ≤ 14) : Statement c :=
  of_some e (by simp) (by simp; omega)

/-- An optional cell is at most one. -/
theorem optCell_length (c : Option Cell) : (optCell c).length ≤ 1 := by cases c <;> simp [optCell]

/-- An optional signed pair is at most two cells. -/
theorem optSigned_length (d : Option Dev) : (optSigned d).length ≤ 2 := by cases d <;> simp [optSigned, signedPair]

/-- R157: a STATUS body that passes the length test has between 1 and 15 cells. -/
theorem status_length {body : List Cell} (h : statusLengthOk body = true) : body ≠ [] ∧ body.length ≤ 15 := by
  unfold statusLengthOk at h
  split at h
  · cases h
  · refine ⟨by simp, ?_⟩
    grind [Bool.toNat_le]

theorem indexEvent (t : Instant) (pagePins : BitVec 2) : Statement (.indexEvent t pagePins) := of_none rfl

theorem resetAssert (t : Instant) : Statement (.resetAssert t) := of_none rfl

theorem hardReset (t : Instant) (cause : HardCause) (node : BitVec 3) (role : BitVec 3) (page : BitVec 2) : Statement (.hardReset t cause node role page) := of_none rfl

theorem settleExpiry (t : Instant) : Statement (.settleExpiry t) := of_none rfl

theorem contactTestEnd (t : Instant) (milliohms : Nat) : Statement (.contactTestEnd t milliohms) := of_none rfl

theorem offIntervalExpiry (t : Instant) : Statement (.offIntervalExpiry t) := of_none rfl

theorem conversionEnd (t : Instant) (x : BitVec 24) (std : BitVec 24) : Statement (.conversionEnd t x std) := of_none rfl

theorem gapExpiry (t : Instant) : Statement (.gapExpiry t) := of_none rfl

theorem temperatureSampleEnd (t : Instant) (reading : BitVec 12) : Statement (.temperatureSampleEnd t reading) := of_none rfl

theorem measLimitExpiry (t : Instant) : Statement (.measLimitExpiry t) := of_none rfl

theorem fireDelayExpiry (t : Instant) (gate : Fin 16) : Statement (.fireDelayExpiry t gate) := of_none rfl

theorem pullInEnd (t : Instant) (gate : Fin 16) : Statement (.pullInEnd t gate) := of_none rfl

theorem pulseEnd (t : Instant) (gate : Fin 16) : Statement (.pulseEnd t gate) := of_none rfl

theorem hailTimerExpiry (t : Instant) : Statement (.hailTimerExpiry t) := of_none rfl

theorem listenExpiry (t : Instant) : Statement (.listenExpiry t) := of_none rfl

theorem peerSilence (t : Instant) (node : Fin 8) : Statement (.peerSilence t node) := of_none rfl

theorem lineIdle (t : Instant) : Statement (.lineIdle t) := of_none rfl

theorem deferralWaitExpiry (t : Instant) : Statement (.deferralWaitExpiry t) := of_none rfl

theorem claimLost (t : Instant) : Statement (.claimLost t) := of_none rfl

theorem collision (t : Instant) : Statement (.collision t) := of_none rfl

theorem frameSent (t : Instant) : Statement (.frameSent t) := of_none rfl

theorem frameDiscard (t : Instant) (sender : Option (BitVec 4)) : Statement (.frameDiscard t sender) := of_none rfl

theorem entryReceived (t : Instant) (head : FrameHead) (body : EntryBody) : Statement (.entryReceived t head body) :=
  of_some rfl (by simp [entryCells]) (by have := optCell_length (body.coarse.map coarseCell); simp [entryCells]; omega)

theorem valueReceived (t : Instant) (head : FrameHead) (body : ValueBody) : Statement (.valueReceived t head body) :=
  of_some rfl (by simp [valueCells])
    (by
      have h1 := optSigned_length body.deviation
      have h2 := optCell_length body.temperature
      have h3 := optSigned_length body.tcr
      simp [valueCells, valueFields]; omega)

theorem verdictReceived (t : Instant) (head : FrameHead) (body : VerdictBody) : Statement (.verdictReceived t head body) :=
  of_some rfl (by simp [verdictCells]) (by have := optCell_length body.bin; simp [verdictCells]; omega)

theorem hailReceived (t : Instant) (head : FrameHead) (body : HailBody) : Statement (.hailReceived t head body) := of_some rfl (by simp [hailCells]) (by simp [hailCells])

theorem alertFrameReceived (t : Instant) (head : FrameHead) (word : BitVec 32) : Statement (.alertFrameReceived t head word) := of_some rfl (by simp [wordCells]) (by simp [wordCells])

theorem statusReceived (t : Instant) (head : FrameHead) (body : List Cell) : Statement (.statusReceived t head body) :=
  fun f hw hf => by cases hf; exact status_length hw

theorem run (t : Instant) (head : ConsoleHead) : Statement (.run t head) := of_console rfl (by simp)

theorem halt (t : Instant) (head : ConsoleHead) (mode : HaltMode) : Statement (.halt t head mode) := by
  cases mode <;> exact of_console rfl (by simp)

theorem drain (t : Instant) (head : ConsoleHead) : Statement (.drain t head) := of_console rfl (by simp)

theorem setup (t : Instant) (head : ConsoleHead) (item : BitVec 8) (value : Dev) : Statement (.setup t head item value) := of_console rfl (by simp [signedPair])

theorem setupPosition (t : Instant) (head : ConsoleHead) (value : Dev) : Statement (.setupPosition t head value) := of_console rfl (by simp [signedPair])

theorem setupGatePos (t : Instant) (head : ConsoleHead) (gate : Fin 16) (value : Dev) : Statement (.setupGatePos t head gate value) := of_console rfl (by simp [signedPair])

theorem done (t : Instant) (head : ConsoleHead) (value : Dev) : Statement (.done t head value) := of_console rfl (by simp [signedPair])

theorem loadParameter (t : Instant) (head : ConsoleHead) (page : BitVec 4) (field : BitVec 12) (value : Dev) : Statement (.loadParameter t head page field value) := of_console rfl (by simp [signedPair])

theorem loadBin (t : Instant) (head : ConsoleHead) (page : BitVec 4) (bin : BitVec 12) (lower upper : Dev) (gate : BitVec 12) (capacity : BitVec 16) (tcrLo tcrHi : Option Dev) : Statement (.loadBin t head page bin lower upper gate capacity tcrLo tcrHi) :=
  of_console rfl
    (by
      have h1 := optSigned_length tcrLo
      have h2 := optSigned_length tcrHi
      simp [signedPair, countPair]; omega)

theorem loadBinRemove (t : Instant) (head : ConsoleHead) (page : BitVec 4) (bin : BitVec 12) : Statement (.loadBinRemove t head page bin) := of_console rfl (by simp)

theorem lock (t : Instant) (head : ConsoleHead) (page : BitVec 4) (digest : BitVec 12) : Statement (.lock t head page digest) := of_console rfl (by simp)

theorem erase (t : Instant) (head : ConsoleHead) (page : BitVec 4) : Statement (.erase t head page) := of_console rfl (by simp)

theorem binClear (t : Instant) (head : ConsoleHead) (page : BitVec 4) (bin : BitVec 8) : Statement (.binClear t head page bin) := of_console rfl (by simp)

theorem clearAlertFlags (t : Instant) (head : ConsoleHead) (form : ClearForm) : Statement (.clearAlertFlags t head form) := by
  cases form <;> exact of_console rfl (by simp [wordCells])

theorem mask (t : Instant) (head : ConsoleHead) (word : BitVec 32) (master : Bool) : Statement (.mask t head word master) := of_console rfl (by simp [wordCells])

theorem mute (t : Instant) (head : ConsoleHead) : Statement (.mute t head) := of_console rfl (by simp)

theorem unmute (t : Instant) (head : ConsoleHead) : Statement (.unmute t head) := of_console rfl (by simp)

theorem restart (t : Instant) (head : ConsoleHead) : Statement (.restart t head) := of_console rfl (by simp)

theorem queryState (t : Instant) (head : ConsoleHead) (item : StateItem) (arg : BitVec 4) : Statement (.queryState t head item arg) := by
  cases item <;> exact of_console rfl (by simp)

theorem queryAlertWord (t : Instant) (head : ConsoleHead) (arg : BitVec 4) : Statement (.queryAlertWord t head arg) := of_console rfl (by simp)

theorem queryPeerRow (t : Instant) (head : ConsoleHead) (arg : BitVec 4) : Statement (.queryPeerRow t head arg) := of_console rfl (by simp)

theorem queryBinTally (t : Instant) (head : ConsoleHead) (arg : BitVec 4) (page : BitVec 4) (bin : BitVec 8) : Statement (.queryBinTally t head arg page bin) := of_console rfl (by simp)

theorem queryReasonTally (t : Instant) (head : ConsoleHead) (arg : BitVec 4) : Statement (.queryReasonTally t head arg) := of_console rfl (by simp)

theorem queryEntry (t : Instant) (head : ConsoleHead) (arg : BitVec 4) (tag : BitVec 16) : Statement (.queryEntry t head arg tag) := of_console rfl (by simp)

theorem queryDriftSlot (t : Instant) (head : ConsoleHead) (arg : BitVec 4) : Statement (.queryDriftSlot t head arg) := of_console rfl (by simp)

theorem frameStart (t : Instant) : Statement (.frameStart t) := of_none rfl

end Sys2Proof.Laws.FrameForm
end

