-- ==== Sys2Proof/Laws/Sequence.lean ====
section
/-! SUPPORT. What the operations of a measurement sequence and of its records do, said once each (R50 to R68). -/

namespace Sys2Proof.Machine

/-- A changed entry is found where it was. -/
theorem entryOf_modifyEntry (s : State) (t t' : BitVec 16) (f : Entry → Entry) (hf : ∀ e, (f e).tag = e.tag) :
   (modifyEntry t f s).entryOf t' = (s.entryOf t').map (fun e => if e.tag == t then f e else e) := by
  simp only [State.entryOf, modifyEntry]
  show List.find? _ (List.map _ _) = _
  rw [List.find?_map]
  congr 2
  funext e; simp only [Function.comp]; split <;> simp [hf]

/-- Two changes of one entry are one change. -/
theorem modifyEntry_modifyEntry (t : BitVec 16) (f g : Entry → Entry) (hg : ∀ e, (g e).tag = e.tag) (b : State) :
   modifyEntry t f (modifyEntry t g b) = modifyEntry t (fun e => f (g e)) b := by
  simp only [modifyEntry, State.withTable, List.map_map]
  congr 2
  apply List.map_congr_left
  intro x _
  simp only [Function.comp]
  by_cases hx : x.tag == t <;> simp [hx, hg]

/-- Raising a flag and offering a record do not disturb each other. -/
theorem raise_offerUnit (f : AlertFlag) (g : QFrame) (s : State) : raise f (offerUnit g s) = offerUnit g (raise f s) := by
  unfold raise offerUnit
  by_cases h1 : flagIn s.alerts.word f = true
  · simp only [State.withWork_alerts, h1, if_true]
  · by_cases h2 : (s.ctl.items.broadcastAlerts && flagIn s.alerts.mask f) = true
    · simp only [State.withWork_alerts, State.withWork_ctl, h1, h2, if_true]; rfl
    · simp only [State.withWork_alerts, State.withWork_ctl, h1, h2]; rfl

/-- R55, R57: the end of a sequence. -/
theorem closeSequence_eq (a : State) : closeSequence a = afterSequence a := by
  unfold closeSequence afterSequence turnOff endedEngine setMeasReq
  split <;> simp_all <;> rfl

/-- A step whose end has come, in a state the command calls for, is the running one. -/
theorem stepEnded_some {t s c} (p : SeqState → Bool) (hc : s.eng.ctx = some c) (hd : c.due ≤ max s.now t) (hp : p c.state = true) :
  (advance t s).stepEnded p = some c := by
  simp only [State.stepEnded, advance_eng, hc, hp, advance_now, decide_eq_true hd]; rfl

/-- R50: what the end of a contact test does. -/
theorem endContactTest_eq {t s c} (r : Nat) (hc : s.eng.ctx = some c) (hd : c.due ≤ max s.now t) : 
  (c.state = .contactA → endContactTest r (advance t s) = setCtx { c with state := .contactB (pairClosed (advance t s) r), due := max s.now t + us 200 } (advance t s))
  ∧ (∀ b, c.state = .contactB b → endContactTest r (advance t s) = match b, pairClosed (advance t s) r with
      | true, true => enterFwd c (advance t s)
      | false, false => endEarly .contactBoth c (advance t s)
      | _, _ => endEarly .contactOne c (advance t s)) := by
  constructor
  · intro hs
    unfold endContactTest
    simp only [State.stepEnded, advance_eng, hc, advance_now, decide_eq_true hd, hs, Bool.and_self, if_true]
  · intro b hs
    unfold endContactTest
    simp only [State.stepEnded, advance_eng, hc, advance_now, decide_eq_true hd, hs, Bool.and_self, if_true]
    all_goals rfl

/-- R58: a kept conversion at full scale ends the sequence. -/
theorem endConversion_overload {t s c} (x std : BitVec 24) (hc : s.eng.ctx = some c) (hd : c.due ≤ max s.now t) (hs : c.state = .fwd ∨ c.state = .rev)  :
   (c.discards = 0 → (x = 0x7FFFFF ∨ x = 0x800000 ∨ std = 0x7FFFFF ∨ std = 0x800000) →
   endConversion x std (advance t s) = raise .overload (endEarly (.overload (x == 0x7FFFFF#24)) c (advance t s))) := by
  intro h0 hx
  unfold endConversion
  rw [stepEnded_some (fun q => q == .fwd || q == .rev) hc hd (by rcases hs with h | h <;> simp [h])]
  have : (atFullScale x || atFullScale std) = true := by simp [atFullScale]; tauto
  simp only [h0, Nat.lt_irrefl, if_false, this, if_true]

/-- R41: the last kept conversion ends its phase. -/
theorem endConversion_last {t s c} {x std : BitVec 24} (hc : s.eng.ctx = some c) (hd : c.due ≤ max s.now t) (hs : c.state = .fwd ∨ c.state = .rev)
   (h0 : c.discards = 0) (h1 : x ≠ 0x7FFFFF) (h2 : x ≠ 0x800000) (h3 : std ≠ 0x7FFFFF) (h4 : std ≠ 0x800000) (h5 : s.ctl.items.phaseAvg ≤ c.kept + 1) :
   endConversion x std (advance t s) = endPhase { c with sums := ⟨c.sums.x + x.toInt, c.sums.s + std.toInt⟩, kept := c.kept + 1 }
      ⟨phaseAverage (c.sums.x + x.toInt) (c.kept + 1), phaseAverage (c.sums.s + std.toInt) (c.kept + 1)⟩ (advance t s) := by
  have hse := stepEnded_some (fun q => q == .fwd || q == .rev) hc hd (by rcases hs with h | h <;> simp [h])
  unfold endConversion
  rw [hse]
  have : (atFullScale x || atFullScale std) = false := by simp [atFullScale]; tauto
  simp only [h0, Nat.lt_irrefl, if_false, this, advance_ctl]
  rw [if_neg Bool.false_ne_true, if_neg (by omega)]

/-- R23, R55: an own VALUE in range fills its slot, a late one enters no slot, and either is offered. -/
theorem deliverValue_own (k : Slot) (r : ValueRecord) (b : State) (he : b.classify r.tag = .inRange → (b.entryOf r.tag).isSome = true)
  (hk : b.role.bind slotOfRole = some k) : deliverValue r b = offerUnit (.value r) (ownValue k r b) := by
  unfold deliverValue ownValue
  simp only [hk]
  congr 1
  split
  · rename_i hin
    obtain ⟨e, he⟩ := Option.isSome_iff_exists.mp (he hin)
    unfold putValue setStage
    simp only [he]
    rw [modifyEntry_modifyEntry]
    intro x; unfold Entry.fillSlot; split
    · rfl
    · cases k <;> rfl
  · rfl

/-- R31, R56: an own ENTRY in range fills its entry, a late one enters none, and either is offered. -/
theorem deliverEntry_own (r : EntryRecord) (b : State) (he : b.classify r.tag = .inRange → (b.entryOf r.tag).isSome = true) :
   deliverEntry r b = offerUnit (.entry r) (ownEntry r b) := by
  unfold deliverEntry ownEntry
  by_cases hin : b.classify r.tag = .inRange
  · obtain ⟨e, he⟩ := Option.isSome_iff_exists.mp (he hin)
    unfold putEntryRecord setStage
    simp only [hin, he, if_true, Option.bind_some, true_and]
    split
    · rw [modifyEntry_modifyEntry]; intro e; rfl
    · rfl
  · rw [if_neg hin, if_neg (fun h => hin h.1)]

/-- The class of a tag depends on the count and the retire limit alone. -/
theorem classify_congr {a b : State} (h : b.idx.count = a.idx.count) (h2 : b.idx.retireLimit = a.idx.retireLimit) (g) : b.classify g = a.classify g := by
  unfold State.classify State.posOf; rw [h, h2]

/-- The end of a sequence does not change the class of a tag. -/
theorem classify_afterSequence (b : State) (g) : (afterSequence b).classify g = b.classify g :=
  classify_congr (by simp [afterSequence]) (by simp [afterSequence]) g

/-- The end of a sequence leaves the table. -/
theorem entryOf_afterSequence (b : State) (g) : (afterSequence b).entryOf g = b.entryOf g := by simp [afterSequence, State.entryOf]

/-- R66: the record of an early ending depends on the role alone. -/
theorem endedRecord_congr {a b : State} (h : b.ctl.role = a.ctl.role) (c q) : endedRecord b c q = endedRecord a c q := by
  unfold endedRecord State.role; rw [h]

/-- Time alone does not change what is measured. -/
theorem UnitRun.advance {s c k} (t) (h : UnitRun s c k) : UnitRun (Machine.advance t s) c k := by
  obtain ⟨h1, h2, h3⟩ := h
  refine ⟨h1, by simpa [State.role] using h2, ?_⟩
  rw [classify_congr (a := s) (by simp) (by simp)]
  simpa [State.entryOf] using h3

/-- Time alone does not change what is measured. -/
theorem CoarseRun.advance {s c} (t) (h : CoarseRun s c) : CoarseRun (Machine.advance t s) c := by
  obtain ⟨h1, h3⟩ := h
  refine ⟨h1, ?_⟩
  rw [classify_congr (a := s) (by simp) (by simp)]
  simpa [State.entryOf] using h3

/-- R59: MEAS_LIMIT before the temperature conversion has ended. -/
theorem timeOut_early {c : Ctx} {b : State} (h : c.state ≠ .sampling ∨ b.now < c.due) : timeOut c b = endEarly .timeout c b := by
  have : b.readingAtLimit c = none := by
    unfold State.readingAtLimit; rw [if_neg]; rintro ⟨h1, h2⟩; rcases h with h | h
    · exact h h1
    · exact absurd h2 (Nat.not_le.mpr h)
  unfold timeOut; rw [this]

/-- R54, R59: MEAS_LIMIT after the end of the temperature conversion. -/
theorem timeOut_late {c : Ctx} {b : State} (h1 : c.state = .sampling) (h2 : c.due ≤ b.now) :
   timeOut c b = endEarly .timeout (withReading ((Config.freeBits b.freeDraws).extractLsb' 0 12) c)
      (raiseIf ((Config.freeBits b.freeDraws).extractLsb' 0 12 == 4095) .tempFault (b.withFreeDraws (b.freeDraws + 1))) := by
  have : b.readingAtLimit c = some ((Config.freeBits b.freeDraws).extractLsb' 0 12) := by
    unfold State.readingAtLimit; rw [if_pos ⟨h1, h2⟩]
  unfold timeOut; rw [this]

/-- R54: a reading changes neither kind nor tag of a context. -/
theorem withReading_keeps (x : BitVec 12) (c : Ctx) :
   (withReading x c).kind = c.kind ∧ (withReading x c).tag = c.tag ∧ (withReading x c).slot = c.slot ∧ (withReading x c).assumedPage = c.assumedPage
     ∧ (withReading x c).tempAbsent = (c.tempAbsent || x == 4095) := by
  unfold withReading; split
  · rename_i h; simp [h]
  · rename_i h; simp; exact fun h' => absurd h' h

/-- R66: a UNIT measurement that ends early. -/
theorem endEarly_unit {b : State} {c k} (hu : UnitRun b c k) (e : Ending) :
   endEarly e c b = offerUnit (.value (endedRecord b c e.quality)) (ownValue k (endedRecord b c e.quality) (afterSequence b)) := by
  obtain ⟨hk, hr, hen⟩ := hu
  unfold endEarly computeEnding
  rw [hk, closeSequence_eq]
  have hv : valueless ((afterSequence b).role == some .thermal) c.tag e.quality none c.tempAbsent c.assumedPage = endedRecord b c e.quality := by
    simp [valueless, endedRecord, afterSequence, State.role]
  simp only [hv]
  rw [deliverValue_own k]
  · rw [classify_afterSequence, entryOf_afterSequence]; exact hen
  · simpa [afterSequence, State.role] using hr

/-- R56: a COARSE measurement that ends early. -/
theorem endEarly_coarse {b : State} {c} (hu : CoarseRun b c) (e : Ending) :
   endEarly e c b = offerUnit (.entry { tag := c.tag, stamp := c.stamp, cls := e.entryClass.1, coarse := e.entryClass.2 }) (ownEntry { tag := c.tag, stamp := c.stamp, cls := e.entryClass.1, coarse := e.entryClass.2 } (afterSequence b)) := by
  obtain ⟨hk, hen⟩ := hu
  unfold endEarly computeEnding
  rw [hk, closeSequence_eq]
  rw [← deliverEntry_own]
  rw [classify_afterSequence, entryOf_afterSequence]; exact hen

/-- R64: a CHECK measurement that ends early. -/
theorem endEarly_check {b : State} {c} (hk : c.kind = .check) (e : Ending) : endEarly e c b = setStage c.tag .done (afterSequence b) := by
  unfold endEarly computeEnding
  rw [hk, closeSequence_eq]

/-- An own VALUE touches neither Run Control nor the line. -/
theorem ownValue_keeps (k r b) : (ownValue k r b).ctl = b.ctl ∧ (ownValue k r b).link = b.link ∧ (ownValue k r b).work = b.work := by
  unfold ownValue; split <;> simp

/-- An own ENTRY touches neither Run Control nor the line. -/
theorem ownEntry_keeps (r b) : (ownEntry r b).ctl = b.ctl ∧ (ownEntry r b).link = b.link ∧ (ownEntry r b).work = b.work := by
  unfold ownEntry; split <;> simp

/-- The record of a completed measurement depends on these parts of the state alone. -/
theorem completedRecord_congr {s a : State} (c f v) (h1 : a.ctl = s.ctl) (h2 : a.drift = s.drift) (h3 : a.pages = s.pages) (h4 : a.table = s.table) : completedRecord a c f v = completedRecord s c f v := by
  have : a.role = s.role := by simp [State.role, h1]
  have h5 : ∀ p, a.page p = s.page p := by intro p; simp [State.page, h3]
  have h6 : a.entryOf c.tag = s.entryOf c.tag := by simp [State.entryOf, h4]
  unfold completedRecord
  simp only [h1, h2, h5, h6, this]

/-- R68: the record carries the tag of its context. -/
theorem completedRecord_tag (s c f v) : (completedRecord s c f v).1.tag = c.tag := by
  unfold completedRecord; dsimp only; split <;> rfl

/-- R67: Stage A fails when Ss is below its limit. -/
theorem completedRecord_low (s c f v) : (completedRecord s c f v).2 = decide (f.s - v.s < s.ctl.items.minStd * 4096) := by
  unfold completedRecord stageB stageA; dsimp only
  by_cases h : f.s - v.s < ↑(s.ctl.items.minStd * 4096)
  · rw [if_pos h]; symm; simpa using h
  · rw [if_neg h]
    have : ¬ f.s - v.s < s.ctl.items.minStd * 4096 := by push_cast at h; exact h
    simp only [this, decide_false]
    by_cases h2 : f.x - v.x ≤ 0
    · rw [if_pos h2]
    · rw [if_neg h2]

/-- A result saturates at the ends of the deviation range. -/
theorem toDev_toInt (q : SignMag) : q.toDev.toInt = max (-8388607) (min 8388607 q.toInt) := by
  rcases q with ⟨n, m⟩
  have hm : min 8388607 m < 2 ^ 23 := by omega
  cases n <;> simp only [SignMag.toDev, Dev.toInt, SignMag.toInt, BitVec.toNat_ofNat, Nat.mod_eq_of_lt hm, if_true, Bool.false_eq_true, if_false] <;> omega

/-- R72: Stage D adds the correction and the cross term. -/
theorem stageD_toInt (d : Dev) (c : Int) : (stageD d c).toInt = d.toInt + c + (crossTerm d c).toInt := by
  unfold stageD; dsimp only
  split
  · rename_i h; rw [h]; simp [SignMag.toInt]
  · have : ∀ z : Int, (signMagOfInt z).toInt = z := by
      intro z; unfold signMagOfInt SignMag.toInt; by_cases h : z < 0 <;> simp only [h, decide_true, decide_false, if_true, Bool.false_eq_true, if_false] <;> omega
    exact this _

/-- R145: a command whose effect ends in one unit record: its tail, and the record in a queue that has room. -/
theorem tail_of_unit_record {s u X : State} {t : Instant} {f : QFrame} (body : State → State) (hX : body (advance t s) = offerUnit f X)
   (e : event t body s = .next u) (ht : Tail (body (advance t s)) u) (h : s.resetHeld = false) (hctl : X.ctl = s.ctl) (hl : X.link = (advance t s).link)
   (hw : X.work.units = s.work.units) (hu : f.isUnit = true) :
   Tail (offerUnit f X) u ∧ (SendsUnits s → HasRoom 1 (advance t s) → Queued (advance t s) [f] u) := by
  constructor
  · rwa [hX] at ht
  · intro ⟨hact, hrun⟩ ⟨hw0, hroom⟩
    have hu1 : (body (advance t s)).work.units = [f] := by
      rw [hX]; simp only [offerUnit, State.withWork_work, hw]; simp at hw0; rw [hw0]; rfl
    have he : u = settle (body (advance t s)) := by
      simp [event, h] at e; exact e.symm
    have hq := settle_units (body (advance t s)) (by
      rw [hu1]; intro g hg; simp at hg; subst hg
      have : (body (advance t s)).ctl = s.ctl := by rw [hX]; simpa [offerUnit] using hctl
      simp only [State.admits, this]
      rw [hact]; rcases hrun with h | h <;> rw [h] <;> cases g <;> simp_all [Machine.admits]) (by
      rw [hu1, hX]; simp only [offerUnit, State.withWork_link, hl]; simpa using hroom)
    rw [hu1, ← he] at hq
    obtain ⟨more, hm⟩ := hq
    refine ⟨more, ?_⟩
    rw [hm, hX]; simp only [offerUnit, State.withWork_link, hl]

end Sys2Proof.Machine
end

