-- ==== Sys2Proof/Laws/Standby.lean ====
section
/-! SUPPORT. The standby test in the terms of the statements: what it leaves, and how it stands to the level flags (R63, R167, R183). -/

namespace Sys2Proof.Machine

/-- R63: a measurement discarded. -/
theorem discardSequence_eq (a : State) : discardSequence a = discarded a := by
  unfold discardSequence discarded
  split
  · rename_i h; rw [if_pos h]
  · rename_i c h
    rw [if_neg (by simp [h])]
    dsimp only
    rw [closeSequence_eq]
    rfl

/-- R167: an ACTIVE station's entry to STANDBY. -/
theorem enterStandby_eq {a : State} (h : a.ctl.activity = .active) : enterStandby a = stoodBy a := by
  unfold enterStandby stoodBy
  rw [discardSequence_eq]
  have hc : (discarded a).ctl = a.ctl := by unfold discarded; split <;> rfl
  have hk : (keepQueued (fun q => !q.frame.isUnit) (discarded a)).ctl = a.ctl := by simp [hc]
  unfold setActivity
  rw [if_neg (by rw [hk, h]; decide), hk]

/-- R168: entry to MUTED. -/
theorem enterMuted_eq {a : State} (h : a.ctl.activity ≠ .muted) : enterMuted a = mutedBy a := by
  unfold enterMuted mutedBy
  rw [discardSequence_eq]
  have hc : (discarded a).ctl = a.ctl := by unfold discarded; split <;> rfl
  have hr : (discarded a).role = roleOfCode a.ctl.role := by unfold State.role; rw [hc]
  dsimp only
  rw [hr]
  generalize hb : (if roleOfCode a.ctl.role = some Role.sort then muteGates (discarded a) else discarded a) = b
  have hbc : (keepQueued (fun q => !q.frame.isUnit && q.frame != .alert) b).ctl = a.ctl := by rw [← hb]; split <;> simp [hc]
  unfold setActivity
  rw [if_neg (by rw [hbc]; exact h), hbc]

/-- R161: the expiry of a silence timer that is due and not yet taken: the mark is set and the tests are made. -/
theorem silencePeer_due {n : Fin 8} {s : State} (hn : n ≠ s.ctl.node) (hs : s.standing n = .silent) (ht : (s.peers[n]).silenceTaken = false) :
    silencePeer n s = peerTests (s.withPeers (s.peers.set n { s.peers[n] with silenceTaken := true })) := by
  unfold silencePeer modifyRow
  rw [if_pos ⟨hn, hs, ht⟩, if_neg hn]

/-- R161: in every other case the command has no effect. -/
theorem silencePeer_not {n : Fin 8} {s : State} (h : ¬(n ≠ s.ctl.node ∧ s.standing n = .silent ∧ (s.peers[n]).silenceTaken = false)) :
    silencePeer n s = s := if_neg h

/-- R167: a takeover. -/
theorem setActivity_takeover {a : State} (h : a.ctl.activity = .standby) : setActivity .active (raise .takeover a) = tookOver a := by
  unfold setActivity tookOver
  rw [if_neg (by simp [h])]
  simp

/-- R167: what the standby test leaves. -/
theorem standbyTest_eq (a : State) : standbyTest a = tested a := by
  unfold standbyTest tested
  split
  · rfl
  · cases ha : a.ctl.activity <;> cases hl : a.lowerQualifies
    · simp
    · simpa using enterStandby_eq ha
    · simpa using setActivity_takeover ha
    · simp
    · simp
    · simp

/-- R183: the level flags and the standby test do not disturb each other. -/
theorem tested_refreshLevels (a : State) : tested (refreshLevels a) = refreshLevels (tested a) := by
  have hq : ∀ (f : AlertFlag) (b : State), raise f (discarded b) = discarded (raise f b) := by
    intro f b
    unfold discarded
    simp only [raise_eng]
    split
    · rfl
    · unfold raise
      cases h1 : flagIn b.alerts.word f <;> cases h3 : (b.ctl.items.broadcastAlerts && flagIn b.alerts.mask f) <;>
        simp [h1, h3, State.withWork, State.withEng, State.withIdx, State.withAlerts]
  have hk : ∀ (f : AlertFlag) (b : State), raise f (keepQueued (fun q => !q.frame.isUnit) b) = keepQueued (fun q => !q.frame.isUnit) (raise f b) := by
    intro f b
    unfold raise
    cases h1 : flagIn b.alerts.word f <;> cases h3 : (b.ctl.items.broadcastAlerts && flagIn b.alerts.mask f) <;>
      simp [h1, h3, keepQueued, State.withWork, State.withLink, State.withAlerts]
  have hd : ∀ b : State, (discarded b).ctl = b.ctl ∧ (discarded b).eng.recentPage = b.eng.recentPage ∧ (discarded b).now = b.now
      ∧ (discarded b).peers = b.peers ∧ (discarded b).drift = b.drift ∧ (discarded b).pages = b.pages ∧ (discarded b).gates = b.gates := by
    intro b; unfold discarded; split <;> simp [endedEngine]
  unfold tested
  rw [lowerQualifies_refresh]
  simp only [refreshLevels_ctl]
  split
  · rfl
  · split
    · unfold stoodBy
      rw [refreshLevels_offerHail]
      congr 1
      have e : ∀ b : State, (keepQueued (fun q => !q.frame.isUnit) (discarded b)).withCtl { b.ctl with activity := .standby }
          = (keepQueued (fun q => !q.frame.isUnit) (discarded b)).withCtl { (keepQueued (fun q => !q.frame.isUnit) (discarded b)).ctl with activity := .standby } := by
        intro b; simp [(hd b).1]
      rw [e, e a, refreshLevels_ctl_change (fun c => { c with activity := .standby }) (fun _ => rfl)]
      rw [refreshLevels_comm (fun b => keepQueued (fun q => !q.frame.isUnit) (discarded b)) a (fun f b => by rw [hk, hq])
        (levelStands_congr (by simp [hd]) (by simp [hd]) (by simp [hd]) (by simp [hd]) (by simp [hd]) (by simp [hd]) (by simp [hd]))]
    · split
      · unfold tookOver
        rw [refreshLevels_offerHail]
        congr 1
        have e : ∀ b : State, (raise .takeover b).withCtl { b.ctl with activity := .active }
          = (raise .takeover b).withCtl { (raise .takeover b).ctl with activity := .active } := by intro b; simp
        rw [e, e a, refreshLevels_ctl_change (fun c => { c with activity := .active }) (fun _ => rfl), refreshLevels_raise]
      · rfl

/-- R159: the tests on a row update where they ask for no realign. -/
theorem peerTests_tested {a : State} (h : a.realignBy = none) : peerTests a = refreshLevels (tested a) := by
  unfold peerTests realignTest
  rw [standbyTest_eq, tested_refreshLevels]
  have hr : (refreshLevels (tested a)).realignBy = a.realignBy := by
    rw [realignBy_refresh]
    have h1 : (tested a).peers = a.peers ∧ (tested a).now = a.now ∧ (tested a).ctl.run = a.ctl.run ∧ (tested a).ctl.items = a.ctl.items := by
      unfold tested; split
      · simp
      · split
        · unfold stoodBy discarded; split <;> simp [offerHail]
        · split
          · simp [tookOver, offerHail]
          · simp
    obtain ⟨h1, h2, h3, h4⟩ := h1
    have hw : (tested a).witness = a.witness := by funext n; simp [State.witness, State.standing, h1, h2]
    have hv : (tested a).vetoes = a.vetoes := by funext n; simp [State.vetoes, State.standing, h1, h2]
    unfold State.realignBy; simp [hw, hv, h3, h4]
  rw [hr, h]

end Sys2Proof.Machine
end

