-- ==== Sys2Proof/Laws/Reception.lean ====
section
/-! SUPPORT. What taking a frame does, said once for each kind of sender (R151 to R166). -/

namespace Sys2Proof.Machine

/-- A sender of 0 to 7 is a station. -/
theorem stationOfSender_node (n : Fin 8) : stationOfSender (BitVec.ofNat 4 n.val) = some n := by
  unfold stationOfSender
  have : (BitVec.ofNat 4 n.val).toNat = n.val := by simp; omega
  rw [dif_pos (by omega)]; simp [this]

/-- R158, R159: the row of the sender. -/
theorem rowHeard_eq {t n h m s} (hn : n ≠ s.ctl.node) (hail) :
    rowHeard t n h hail m s = (endFrame (some h.sender) (advance t s)).withPeers (s.peers.set n (heardRow (max s.now t) h hail m s.peers[n])) := by
  unfold rowHeard modifyRow; rw [if_neg (by simpa using hn)]; simp

/-- R159: a frame from another station updates its row, and the tests follow. -/
theorem takeFrame_station {t s} {h : FrameHead} {n : Fin 8} {m : Mark} (hail) (content : State → State) (hr : s.link.rx = some m)
    (hs : h.sender = BitVec.ofNat 4 n.val) (hn : n ≠ s.ctl.node) :
    takeFrame h hail content (advance t s) = content (peerTests (rowHeard t n h hail m s)) := by
  unfold takeFrame actOnFrame hearStation
  simp only [advance_link_rx, hr]
  rw [hs, stationOfSender_node]
  simp only
  rw [if_neg (by simpa using hn), rowHeard]
  simp [hs]

/-- R159: the content of a unit record is acted on in `heardState`. -/
theorem takeFrame_heard {t n h m s} (hr : s.link.rx = some m) (hs : h.sender = BitVec.ofNat 4 n.val) (hn : n ≠ s.ctl.node) (content : State → State) :
    takeFrame h none content (advance t s) = content (heardState t n h m s) := takeFrame_station none content hr hs hn

/-- R159, R171: the tests on a row update change no row's role. -/
theorem peerTests_role (n : Fin 8) (a : State) : ((peerTests a).peers[n]).role = (a.peers[n]).role := by
  have hs : ∀ b : State, (standbyTest b).peers = b.peers := by
    intro b; rw [standbyTest_eq]; unfold tested
    split
    · rfl
    · split
      · unfold stoodBy discarded; split <;> simp [offerHail]
      · split <;> simp [tookOver, offerHail]
  unfold peerTests realignTest
  split
  · rename_i d _
    have h1 : (realign d (standbyTest (refreshLevels a))).peers = (forgetOffsets (moveCount d (standbyTest (refreshLevels a)))).peers := by
      unfold realign; rw [hs]; simp [realignTable]
    rw [h1]
    simp [forgetOffsets, moveCount, vmap]
  · rw [hs]; simp

/-- R159: the sender's row keeps its role where the frame is no HAIL. -/
theorem heardState_role {t n h m s} (hn : n ≠ s.ctl.node) : ((heardState t n h m s).peers[n]).role = (s.peers[n]).role := by
  unfold heardState; rw [peerTests_role, rowHeard_eq hn]; simp [heardRow]

/-- R166: a record of the active source is acted on. -/
theorem fromActiveSource_eq {h : FrameHead} {n : Fin 8} {a : State} {r : Role} (content) (hs : h.sender = BitVec.ofNat 4 n.val)
    (hrow : (a.peers[n]).role = some r.code) (ha : a.activeSource r.code = some n) (hf : a.ctl.run ≠ .fault) :
    fromActiveSource h content a = content n r a := by
  unfold fromActiveSource
  rw [hs, stationOfSender_node]; simp only [hrow, Option.bind_some]
  rw [show roleOfCode r.code = some r by cases r <;> rfl]
  have h2 : a.isActiveSource n = true := by unfold State.isActiveSource; rw [hrow]; simp [ha]
  simp [h2, hf]

/-- R22, R166: a record in FAULT, or of a sender that is not the active source of its role, is discarded. -/
theorem fromActiveSource_discards {h : FrameHead} {n : Fin 8} {a : State} (content) (hs : h.sender = BitVec.ofNat 4 n.val)
    (hd : a.ctl.run = .fault ∨ ∀ r, (a.peers[n]).role = some r → a.activeSource r ≠ some n) : fromActiveSource h content a = a := by
  unfold fromActiveSource
  rw [hs, stationOfSender_node]
  simp only
  split
  · rename_i r hr
    rw [if_neg]
    intro hc
    simp only [Bool.and_eq_true, bne_iff_ne, ne_eq] at hc
    rcases hd with hd | hd
    · exact hc.2 hd
    · have := hc.1
      unfold State.isActiveSource at this
      split at this
      · rename_i c hc'
        exact hd c hc' (by simpa using this)
      · cases this
  · rfl

/-- R25, R26: a new entry is found. -/
theorem entryOf_addEntry {s : State} {e : Entry} (hno : s.entryOf e.tag = none) : (addEntry e s).entryOf e.tag = some e := by
  have hh : ∀ l : List Entry, l.find? (fun x => x.tag == e.tag) = none → (insertEntry s.posOf e l).find? (fun x => x.tag == e.tag) = some e := by
    intro l; induction l with
    | nil => intro _; simp [insertEntry]
    | cons x xs ih =>
      intro h; simp only [List.find?_cons] at h
      have hx : (x.tag == e.tag) = false := by
        cases hh : (x.tag == e.tag) <;> simp_all
      simp only [hx] at h
      unfold insertEntry; split
      · rw [List.find?_cons, hx]; exact ih h
      · rw [List.find?_cons]; simp
  exact hh _ hno

/-- Every frame runs through the one operation that takes a frame. -/
theorem exec_takes_frame (c : Instr) (h : FrameHead) (s : State) (hc : c.frameHead = some h) :
   ∃ hail content, exec c s = event c.instant (takeFrame h hail content) s := by
  cases c <;> simp [Instr.frameHead, Instr.consoleHead] at hc <;> subst hc <;> exact ⟨_, _, rfl⟩

/-- Every console frame runs through the one operation that obeys it. -/
theorem exec_obeys (c : Instr) (h : ConsoleHead) (s : State) (hc : c.consoleHead = some h) :
   ∃ act, exec c s = event c.instant (obey h act) s := by
  cases c <;> simp [Instr.consoleHead] at hc <;> subst hc <;> exact ⟨_, rfl⟩

/-- A sender of 8 to 15 is no station. -/
theorem stationOfSender_console {m : BitVec 4} (h : 8 ≤ m.toNat) : stationOfSender m = none := by
  unfold stationOfSender; rw [dif_neg (by omega)]

/-- R149: a frame is taken only where one was begun. -/
theorem takeFrame_none {h hail content} {s : State} (hr : s.link.rx = none) : takeFrame h hail content s = s := by simp [takeFrame, hr]

/-- R151: an addressed console frame is obeyed in `consoleState`. -/
theorem obey_addressed {t s} {h : ConsoleHead} (hr : s.link.rx.isSome = true) (ha : s.addressed h = true) (act : State → State) :
   obey h act (advance t s) = act (consoleState t h s) := by
  obtain ⟨m, hr⟩ := Option.isSome_iff_exists.mp hr
  have h8 : 8 ≤ h.frame.sender.toNat := by
    simp [State.addressed, isConsole] at ha; exact ha.1
  unfold obey takeFrame actOnFrame
  simp only [advance_link_rx, hr]
  rw [stationOfSender_console h8]
  simp only
  rw [if_pos]
  · rfl
  · simpa [State.addressed] using ha

/-- R177: some page is LOCKED. -/
theorem anyLocked_iff (s : State) : s.anyLocked = true ↔ ∃ p : Fin 4, (s.pages[p]).state = .locked := by
  unfold State.anyLocked
  simp only [List.any_eq_true]
  constructor
  · rintro ⟨p, _, h⟩; exact ⟨p, by simpa [State.locked, State.page] using h⟩
  · rintro ⟨p, h⟩; exact ⟨p, by fin_cases p <;> decide, by simpa [State.locked, State.page] using h⟩

/-- R5, R34: a new retire limit removes the entries beyond it. -/
theorem recomputeRetire_eq (b : State) (r : Nat) (h : retireLimitOf b.ctl.role b.ctl.items = some r) : (recomputeRetire b).table.entries = b.table.entries.filter (fun e => decide (b.posOf e.tag ≤ r)) ∧ (recomputeRetire b).idx = { b.idx with retireLimit := some r } := by
  unfold recomputeRetire
  simp only [h]
  refine ⟨?_, by simp⟩
  unfold removeEntries
  simp only [State.withIdx_table, State.withTable_table]
  apply List.filter_congr
  intro e _
  show (!decide (r < b.posOf e.tag)) = decide (b.posOf e.tag ≤ r)
  rw [Bool.eq_iff_iff]; simp only [Bool.not_eq_true', decide_eq_false_iff_not, decide_eq_true_eq]; omega

/-- The greatest of a list and a start value. -/
theorem foldl_max_spec (l : List Nat) (p : Nat) : p ≤ l.foldl max p ∧ (∀ x ∈ l, x ≤ l.foldl max p) ∧ (l.foldl max p = p ∨ l.foldl max p ∈ l) := by
  induction l generalizing p with
  | nil => simp
  | cons a l ih =>
    obtain ⟨h1, h2, h3⟩ := ih (max p a)
    rw [List.foldl_cons]
    refine ⟨by omega, ?_, ?_⟩
    · intro x hx; rcases List.mem_cons.mp hx with rfl | hx
      · omega
      · exact h2 x hx
    · rcases h3 with h3 | h3
      · rw [h3]; rcases Nat.le_total p a with h | h
        · right; simp [Nat.max_eq_right h]
        · left; exact Nat.max_eq_left h
      · right; simp [h3]

/-- A page field of 0 to 3 names a page. -/
theorem pageOfField_some {page : BitVec 4} {p : Fin 4} (h : page.toNat = p.val) : pageOfField page = some p := by
  unfold pageOfField; rw [dif_pos (by omega)]; simp [h]

/-- A page field above 3 names none. -/
theorem pageOfField_none {page : BitVec 4} (h : 4 ≤ page.toNat) : pageOfField page = none := by
  unfold pageOfField; rw [dif_neg (by omega)]

/-- A bin index of 1 to 16 names a bin. -/
theorem binOfIndex_some {n : Nat} {b : Fin 16} (h : n = b.val + 1) : binOfIndex n = some b := by
  unfold binOfIndex; rw [dif_pos (by omega)]; simp [h]

/-- A bin index of 0 or above 16 names none. -/
theorem binOfIndex_none {n : Nat} (h : n = 0 ∨ 17 ≤ n) : binOfIndex n = none := by
  unfold binOfIndex; rw [dif_neg (by omega)]

/-- R102: a recipe frame outside LISTEN and FAULT. -/
theorem recipeFrame_eq {t s} {h : ConsoleHead} (h1 : s.ctl.run ≠ .listen) (h2 : s.ctl.run ≠ .fault) (page : BitVec 4) (act) :
  recipeFrame page act (consoleState t h s) = (match pageOfField page with | none => raise .consoleError (consoleState t h s) | some p => act p (consoleState t h s)) := by
  unfold recipeFrame
  have : (consoleState t h s).ctl = s.ctl := by simp [consoleState]
  rw [this, if_neg (by simp [h1, h2])]
  all_goals rfl

/-- R109: a console frame does not change which pages are in use. -/
theorem pageInUse_consoleState (t) (h : ConsoleHead) (s : State) (p) : (consoleState t h s).pageInUse p = s.pageInUse p := by
  unfold State.pageInUse; simp [consoleState]

/-- R183: whether a bin is full depends on the pages and the bin tallies. -/
theorem anyBinFull_congr {a b : State} (h1 : a.pages = b.pages) (h2 : a.gates.binTallies = b.gates.binTallies) : a.anyBinFull = b.anyBinFull := by
  unfold State.anyBinFull State.binIsFull State.binTally State.page; rw [h1, h2]

end Sys2Proof.Machine
end

