-- ==== Sys2Proof/Tests/Slice0.lean ====
section
/-! SUPPORT. Tests: ill-formed terms that the checks refuse, frames written out from the layouts, the worked figures of the spec, a few single steps, and for every statement with hypotheses a witness that meets them, clause by clause. -/

namespace Sys2Proof.Tests

open Sys2Proof Sys2Proof.Machine

/-! ### Small states -/

/-- A console frame from node 9 to station 3. -/
def console : ConsoleHead := { frame := { sender := 9, count := 0, state := 0, activity := 0 }, target := 3 }

/-- The head of a frame from station 0 in RUN and ACTIVE whose count agrees. -/
def fromZero : FrameHead := { sender := 0, count := 4, state := 3, activity := 0 }

/-- A positive value. -/
def pos (n : Nat) : Dev := ⟨false, BitVec.ofNat 23 n⟩

/-- A negative value. -/
def minus (n : Nat) : Dev := ⟨true, BitVec.ofNat 23 n⟩

/-- No flag of a VALUE. -/
def clear : ValueFlags :=
  { suspect := false, drift := false, driftStale := false, tempAbsent := false, saturated := false, near := false, assumedPage := false,
    tcrAbsent := false }

/-- Page 1 of the spec's worked cases (section 6.3), LOCKED under its digest 2718. -/
def page1 : Page :=
  { Page.cleared with
    state := .locked, digest := 2718, range := 2, gain := 3, stdSlot := 2, gross := 50, guardBand := 20, agreeLimit := 10,
    tcrDefault := pos 8, rejectGate := 16, reworkGate := 12, overflowGate := 11
    bins :=
      [⟨0, minus 500, minus 0, none, 3, 1200⟩, ⟨1, pos 0, pos 500, none, 4, 1200⟩,
        ⟨2, minus 1000, pos 1000, some (minus 50, pos 50), 5, 1000⟩] }

/-- The unit of the worked sequence (section 2.8) after its ENTRY: tag 65533, PRESENT, page 1. -/
def unit : Entry := { Entry.blank 65533 .none with stamp := some ⟨1, 2718⟩, cls := some .present, coarse := some ⟨false, 2⟩ }

/-- A start mark captured at instant 0, in the edge window of the last index event. -/
def mark : Mark := ⟨0, 4, true⟩

/-- Station 3 with strap `role` in state `st`, position 8, count 4, last index event at 0, page 1 LOCKED, holding `unit`, with a frame in reception. -/
def station (role : BitVec 3) (st : StationState) : State :=
  { State.reset with
    idx := { count := 4, lastIndex := some 0, retireLimit := some 8, measReq := false, firingReq := false, currentPage := 1 }
    table := { entries := [unit], lastRemoved := none }
    pages := (Vector.replicate 4 Page.cleared).set 1 page1
    link := { State.reset.link with queue := [], rx := some mark }
    ctl := { State.reset.ctl with node := 3, role := role, run := st, items := { Items.cleared with position := some 8 } } }

/-- A context for `unit` in sequence state `st` whose running step ends at 100. -/
def context (kind : WorkKind) (st : SeqState) : Ctx :=
  { kind := kind, tag := 65533, stamp := ⟨1, 2718⟩, assumedPage := false, range := 2, gain := 3, slot := 2, state := st, due := 100,
    discards := 0, kept := 7, sums := ⟨0, 0⟩, fwd := some ⟨4200630, 4200000⟩, rev := some ⟨-4199830, -4200020⟩, temperature := none,
    tempAbsent := false, startTime := 0, limitDue := 100 }

/-- A station in RUN with that context. -/
def running (role : BitVec 3) (kind : WorkKind) (st : SeqState) : State :=
  (station role .run).withEng
    { ctx := some (context kind st), recentPage := 1, excitation := st.drives, lastOff := none, relays := ⟨some 2, kind != .check, kind == .check⟩,
      channels := if kind = .check then .check else .unit }

/-- A row heard at instant `t` in RUN and ACTIVE. -/
def heardAt (t : Instant) (role : BitVec 3) : PeerRow := { PeerRow.cleared with heard := true, heardAt := t, role := some role, state := 3 }

/-- A station with row 0 as given. -/
def withRow (row : PeerRow) (s : State) : State := s.withPeers (s.peers.set 0 row)

/-- The state a command leads to. -/
def after (c : Instr) (s : State) : State := match exec c s with | .next u => u | .fault _ => s | .refused _ => s

/-- A VERDICT record of tag `x`. -/
def verdictOf (x : BitVec 16) : QFrame := .verdict x { reason := .noBin, bin := none, gate := 16 }

/-- Six frames held, with the hail timer due; the last of them a HAIL or not. -/
def fullQueue (hail : Bool) : State :=
  let s := station 3 .ready
  let last : QFrame := if hail then .hail else verdictOf 5
  (s.withLink { s.link with queue := (List.replicate 5 ⟨verdictOf 4, 0⟩) ++ [⟨last, 0⟩] }).withCtl { s.ctl with hailDue := some (ms 250) }

/-- A HAIL and two VERDICTs that have waited through one index event and through none. -/
def agingQueue : State :=
  let s := station 1 .run
  s.withLink { s.link with queue := [⟨.hail, 0⟩, ⟨verdictOf 1, 1⟩, ⟨verdictOf 2, 0⟩] }

/-! ### WellFormed refuses ill-formed terms -/

theorem test_wf_setup_position_row : (Instr.setup 0 console 1 (pos 1)).wellFormed = false := by decide
theorem test_wf_setup_done_row : (Instr.setup 0 console 255 (pos 1)).wellFormed = false := by decide
theorem test_wf_setup_gate_rows :
    (Instr.setup 0 console 19 (pos 1)).wellFormed = false ∧ (Instr.setup 0 console 34 (pos 1)).wellFormed = false := by decide
theorem test_wf_setup_own_rows :
    (Instr.setup 0 console 18 (pos 1)).wellFormed = true ∧ (Instr.setup 0 console 35 (pos 1)).wellFormed = true := by decide
theorem test_wf_status_length : (Instr.statusReceived 0 fromZero [0, 0]).wellFormed = false ∧ statusLengthOk [0, 0, 0] = true := by decide
theorem test_wf_queue_order :
    queueWellFormed [.lineIdle 5, .frameStart 4] = false ∧ queueWellFormed [.lineIdle 5, .frameStart 5] = true := by decide

/-! ### Frames -/

/-- Section 8.7, worked layout: the VALUE of tag 65533. -/
theorem test_value_layout :
    decodeFrame 5 [279, 0, 48, 4095, 3328, 0, 3, 0, 551, 376, 488]
      = some (.valueReceived 5 ⟨1, 0, 3, 0⟩ ⟨65533, 0, clear, some (pos 551), some 376, none⟩) := by decide
/-- Section 8.7: parity bits of 279 and 4095. -/
theorem test_parity : parityBit 279 = false ∧ parityBit 4095 = true := by decide
/-- R149, R150: one bit changed in a cell after the header is a discard that counts against node 1. -/
theorem test_parity_error :
    receiveFrame 5 (lineCell 279 :: (lineCell 0).dropLast.concat .dominant :: ([48, 4095, 3328, 0, 3, 0, 551, 376, 488] : List Cell).map lineCell)
      = .frameDiscard 5 (some 1) := by decide
/-- R138: the cell 279, 0001 0001 0111, as the line carries it: start mark, data bits from bit 11 down, parity bit 0; it reads back as 279, and cut off before its parity bit, with a data bit changed or without a start mark it does not. -/
theorem test_line_cell :
    lineCell 279
        = [.dominant, .dominant, .dominant, .dominant, .recessive, .dominant, .dominant, .dominant, .recessive, .dominant, .recessive,
          .recessive, .recessive, .dominant]
      ∧ readCell (lineCell 279) = some 279 ∧ readCell (lineCell 279).dropLast = none ∧ readCell ((lineCell 279).set 3 .recessive) = none
      ∧ readCell (List.replicate 14 .recessive) = none := by decide
/-- R154: an ENTRY of tag 65533, page 1, PRESENT, digest 2718, coarse +2, from node 0 in RUN at count 65534. -/
theorem test_entry_layout :
    decodeFrame 5 [5, 4095, 3632, 4095, 3392, 2718, 1, 2, (5 + 4095 + 3632 + 4095 + 3392 + 2718 + 1 + 2) % 4096]
      = some (.entryReceived 5 ⟨0, 65534, 3, 0⟩ ⟨65533, 1, 0, 2718, some ⟨false, 2⟩⟩) := by decide
/-- R155: a HAIL of SORT at position 12, cause PIN, page 2, page 1 in use. -/
theorem test_hail_layout :
    decodeFrame 5 [5 * 256 + 4 * 16 + 6, 0, 48, 4 * 512 + 12 * 16 + 1 * 4 + 2, 2, 0, 2718, 0, 0,
        (5 * 256 + 4 * 16 + 6 + 48 + 4 * 512 + 12 * 16 + 1 * 4 + 2 + 2 + 2718) % 4096]
      = some (.hailReceived 5 ⟨4, 0, 3, 0⟩ ⟨4, 12, 1, 2, 2, 0, 2718, 0, 0⟩) := by decide
/-- R156: RUN/HALT with mode DRAIN to station 3 from node 9. -/
theorem test_drain_layout : decodeFrame 5 [2 * 256 + 9 * 16 + 1, 0, 0, 3 * 256 + 2, (2 * 256 + 9 * 16 + 1 + 3 * 256 + 2) % 4096]
    = some (.drain 5 console) := by decide
/-- R156: SETUP of GATE_POS[3] (identifier 21) to 15. -/
theorem test_setup_layout :
    decodeFrame 5 [6 * 256 + 9 * 16 + 3, 0, 0, 3 * 256 + 21, 0, 15, (6 * 256 + 9 * 16 + 3 + 3 * 256 + 21 + 15) % 4096]
      = some (.setupGatePos 5 console 2 (pos 15)) := by decide
/-- R156: LOAD of GUARD (parameter 5) of page 1 with −20, read as a signed pair: sign in bit 11 of its first cell. -/
theorem test_load_layout :
    decodeFrame 5 [7 * 256 + 9 * 16 + 4, 0, 0, 3 * 256 + 16, 5, 2048, 20, (7 * 256 + 9 * 16 + 4 + 3 * 256 + 16 + 5 + 2048 + 20) % 4096]
      = some (.loadParameter 5 console 1 5 (minus 20)) := by decide
/-- R153, R156: MASK with positions 1 and 25 on and the master enable on; position p is bit 32 − p of the word. -/
theorem test_mask_layout :
    decodeFrame 5 [11 * 256 + 9 * 16 + 4, 0, 0, 3 * 256 + 1, 2048, 0, 2048, (11 * 256 + 9 * 16 + 4 + 3 * 256 + 1 + 2048 + 2048) % 4096]
      = some (.mask 5 console 0x80000080 true) := by decide
/-- R186: QUERY of the entry of tag 65533. -/
theorem test_query_layout :
    decodeFrame 5 [14 * 256 + 9 * 16 + 3, 0, 0, 3 * 256 + 5 * 16, 4095, 3328, (14 * 256 + 9 * 16 + 3 + 3 * 256 + 5 * 16 + 4095 + 3328) % 4096]
      = some (.queryEntry 5 console 0 65533) := by decide
/-- The opcode table gives no row any bits. -/
theorem test_no_words : decodeTableWord 8 3 = none := by decide

/-! ### The spec's worked figures -/

/-- Section 6.3: the digest of page 1 over 47 cells. -/
theorem test_digest : pageDigest 1 page1 = 2718 ∧ (digestCells 1 page1).length = 47 := by decide
/-- Chapter 3: the phase averages. -/
theorem test_phase_average : phaseAverage 16802521 4 = 4200630 ∧ phaseAverage (-16799320) 4 = -4199830 := by decide
/-- Section 4.16, stages C and D. -/
theorem test_stage_c_d :
    stageC (stageA ⟨4200630, 4200000⟩ ⟨-4199830, -4200020⟩) = ⟨false, 524⟩ ∧ stageD (pos 524) 27 = ⟨false, 551⟩ := by decide
/-- Section 4.17: −4 corrected by +4 is −0. -/
theorem test_minus_zero : stageD (minus 4) 4 = ⟨true, 0⟩ := by decide
/-- Section 4.16, at THERMAL and at SORT: α +8 and d25 +563. -/
theorem test_stage_e_f :
    stageE 160 (pos 1351) (some 2000) (some (pos 551, some 376)) = some ⟨false, 8⟩
      ∧ applyShift (pos 551) (roundDiv (800 * (376 - 400)) 1624) = pos 563 := by decide
/-- Section 4.13: coarse values +2 and +2047. -/
theorem test_coarse : coarseValue ⟨4200630, 4200000⟩ = ⟨false, 2⟩ ∧ coarseValue ⟨8000000, 4200000⟩ = ⟨false, 2047⟩ := by decide
/-- Section 5.8: k after the fifth check is +7 and over DRIFT_LIMIT 6. -/
theorem test_drift_k :
    driftK [pos 3, pos 5, pos 8, pos 11] = some (pos 7) ∧ overLimit 6 [pos 3, pos 5, pos 8, pos 11] = true := by decide
/-- Section 5.8: the fifth accepted check. -/
theorem test_drift_ring :
    acceptCheck (pos 1215) { baseline := some (pos 1204), ring := [pos 0, pos 3, pos 5, pos 8], staleness := 72 }
      = { baseline := some (pos 1204), ring := [pos 3, pos 5, pos 8, pos 11], staleness := 0 } := by decide

/-- A held record of the worked decisions. -/
def held (q : Quality) (d : Option Dev) (temperature : BitVec 12) (flags : ValueFlags) (tcr : Option Dev) : HeldValue :=
  { source := 1, quality := q, deviation := d, temperature := some temperature, flags := flags, tcr := tcr }

/-- Unit A of section 6.6. -/
def unitA : Entry :=
  { unit with cold := some (held .good (some (pos 551)) 376 clear none), hot := some (held .good (some (pos 1351)) 2000 clear (some (pos 8))) }
/-- Unit B. -/
def unitB : Entry :=
  { unit with
    cold := some (held .good (some (pos 10)) 400 { clear with near := true } none), retest := some (held .good (some (minus 0)) 400 clear none) }
/-- Unit C. -/
def unitC : Entry :=
  { unit with cold := some (held .good (some (pos 520)) 400 { clear with near := true } none), retest := some (held .aborted none 400 clear none) }
/-- Unit D. -/
def unitD : Entry :=
  { unit with cold := some (held .good (some (pos 700)) 400 clear none), hot := some (held .good (some (pos 900)) 2000 clear none) }
/-- Unit E. -/
def unitE : Entry :=
  { unit with
    cold := some (held .good (some (pos 300)) 400 { clear with suspect := true } none)
    retest := some (held .good (some (pos 312)) 400 clear none) }
/-- Unit F. -/
def unitF : Entry := { unit with stamp := some ⟨1, 0⟩, cold := some (held .good (some (pos 100)) 400 clear none) }
/-- Unit G. -/
def unitG : Entry := { unit with cold := some (held .aborted none 400 clear none) }

theorem test_judge_A : judge (station 4 .run) unitA = { page := some 1, reason := .binned, bin := some 2, gate := 5 } := by decide
theorem test_judge_B : judge (station 4 .run) unitB = { page := some 1, reason := .binned, bin := some 0, gate := 3 } := by decide
theorem test_judge_C : judge (station 4 .run) unitC = { page := some 1, reason := .guardBand, bin := none, gate := 12 } := by decide
theorem test_judge_D : judge (station 4 .run) unitD = { page := some 1, reason := .noBin, bin := none, gate := 16 } := by decide
theorem test_judge_E : judge (station 4 .run) unitE = { page := some 1, reason := .disagree, bin := none, gate := 12 } := by decide
theorem test_judge_F : (judge (station 4 .run) unitF).reason = .digest := by decide
theorem test_judge_G : judge (station 4 .run) unitG = { page := some 1, reason := .noValue, bin := none, gate := 12 } := by decide

/-! ### Single steps -/

/-- R2, R7: at the index event of count 5 THERMAL takes tag 65533 at position 8, and HOLD is pulled. -/
theorem test_thermal_takes_unit :
    (after (.indexEvent (ms 25) 0) (station 3 .run)).eng.ctx.map (fun c => (c.kind, c.tag, c.state)) = some (.unit, 65533, .settle)
      ∧ (after (.indexEvent (ms 25) 0) (station 3 .run)).pullsHold = true := by decide
/-- R1: an edge 0.9999 ms after the last one is ignored. -/
theorem test_early_edge : (after (.indexEvent 9999 0) (station 3 .run)).idx.count = 4 := by decide
/-- Section 4.16: the VALUE of the worked unit at PRECISE, with STD_CERT[2] +35, CHANNEL_TRIM −12 and k +4. -/
theorem test_worked_value :
    let s := running 1 .unit .sampling
    let items := { s.ctl.items with stdCert := s.ctl.items.stdCert.set 2 (pos 35), channelTrim := minus 12 }
    let s := (s.withCtl { s.ctl with items := items }).withDrift (s.drift.set 2 { baseline := some (pos 1204), ring := [pos 0, pos 3, pos 5, pos 8], staleness := 0 })
    ((after (.temperatureSampleEnd 100 376) s).entryOf 65533).bind (·.cold)
      = some { source := 3, quality := .good, deviation := some (pos 551), temperature := some 376, flags := clear, tcr := none } := by decide
/-- R10, R57: the end of that sequence releases HOLD and the excitation. -/
theorem test_release :
    (after (.temperatureSampleEnd 100 376) (running 1 .unit .sampling)).pullsHold = false
      ∧ (after (.temperatureSampleEnd 100 376) (running 1 .unit .sampling)).eng.excitation = .off := by decide
/-- R183: CLEAR of a plain flag clears it; of a level flag whose condition stands it does not. -/
theorem test_clear_flags :
    flagIn (after (.clearAlertFlags 0 console (.flags 0xFFFFFFFF)) (raise .overload (station 3 .run))).alerts.word .overload = false
      ∧ flagIn (after (.clearAlertFlags (ms 2000) console (.flags 0xFFFFFFFF)) (withRow (heardAt 0 0) (station 3 .run))).alerts.word .peerSilent
          = true := by decide
/-- R110: an ERASE of a page that an entry refers to is refused; of another page it is not. -/
theorem test_erase_in_use :
    flagIn (after (.erase 0 console 1) (station 3 .run)).alerts.word .pageInUse = true
      ∧ flagIn (after (.erase 0 console 2) (station 3 .run)).alerts.word .pageInUse = false := by decide
/-- R187: a QUERY of an entry is answered with four frames. -/
theorem test_query_entry : (after (.queryEntry 0 console 0 65533) (station 3 .run)).link.queue.length = 4 := by decide
/-- R140: at two cell times after the last cell start the line is idle; one tick earlier it is not. -/
theorem test_line_idle_moment :
    (after (.lineIdle 120) ((station 3 .run).withLink { (station 3 .run).link with rx := none })).link.lineIdle = true
      ∧ (after (.lineIdle 119) ((station 3 .run).withLink { (station 3 .run).link with rx := none })).link.lineIdle = false := by decide
/-- R149: a frame on a line where none was begun is ignored; a start mark on a line that is not idle begins none. -/
theorem test_no_reception :
    (after (.run 5 console) ((station 3 .ready).withLink { (station 3 .ready).link with rx := none })).ctl.run = .ready
      ∧ (after (.run 5 console) (station 3 .ready)).ctl.run = .run
      ∧ (after (.frameStart 5) ((station 3 .ready).withLink { (station 3 .ready).link with rx := none })).link.rx = none := by decide
/-- R175: with POSITION 8, GATE_POS 0 stays 0, 3 becomes 9, 40 becomes 31, and a value below the range takes its lower limit. -/
theorem test_gate_pos :
    clampGatePos (some 8) (pos 0) = 0 ∧ clampGatePos (some 8) (pos 3) = 9 ∧ clampGatePos (some 8) (pos 40) = 31
      ∧ clampGatePos (some 8) (minus 3) = 9 ∧ clampGatePos none (minus 3) = 1 := by decide
/-- R172: straps 5 to 7 are no role. -/
theorem test_bad_role : (after (.hardReset 0 .resetPin 2 5 0) (station 3 .run)).ctl.faultReason = some .badRole := by decide

/-- R40: 100 mA at code 0, 100 nA at code 6; gain 1 at code 0, 128 at code 7. -/
theorem test_range_and_gain :
    rangeCurrent 0 = 100000000 ∧ rangeCurrent 3 = 100000 ∧ rangeCurrent 6 = 100 ∧ pgiaFactor 0 = 1 ∧ pgiaFactor 7 = 128 := by decide
/-- R50: 1 mA on side A and then on side B; on CK1 first for a CHECK; no test current in SETTLE. -/
theorem test_contact_current :
    (running 1 .unit .contactA).contactOut = some (.sideA, 1000000) ∧ (running 1 .unit (.contactB true)).contactOut = some (.sideB, 1000000)
      ∧ (running 1 .check .contactA).contactOut = some (.check1, 1000000) ∧ (running 1 .unit .settle).contactOut = none := by decide
/-- R40, R57: in FWD of a page with RANGE 2 and GAIN 3, 1 mA forward and the PGIA at 8; in GAP the current is off and the PGIA stays. -/
theorem test_excitation_current :
    (running 1 .unit .fwd).excitationOut = some (.forward, 1000000) ∧ (running 1 .unit .fwd).pgiaOut = some 8
      ∧ (running 1 .unit .gap).excitationOut = none ∧ (running 1 .unit .gap).pgiaOut = some 8 := by decide
/-- R97: a staleness count of 256 stands, 255 does not; nor does 256 while the most recent page is not LOCKED. -/
theorem test_drift_stale :
    let s := running 1 .unit .fwd
    let at_ (n : Nat) := s.withDrift (s.drift.set 2 { baseline := none, ring := [], staleness := n })
    (at_ 256).levelStands .driftStale = true ∧ (at_ 255).levelStands .driftStale = false
      ∧ ((at_ 256).withEng { s.eng with recentPage := 0 }).levelStands .driftStale = false := by decide
/-- R89: a CHECK that starts on an EMPTY pocket has X on the standard and S on the check resistor; they stay so at its end, and return to the unit and the standard when a UNIT measurement starts. -/
theorem test_check_channels :
    let checked := after (.indexEvent (ms 25) 0) ((station 3 .run).withTable { entries := [{ unit with cls := some .empty }], lastRemoved := none } |>.withEng
      { (running 3 .unit .fwd).eng with ctx := none, excitation := .off })
    let ended := after (.measLimitExpiry (ms 900)) checked
    let next := after (.indexEvent (ms 950) 0) (ended.withTable { entries := [{ unit with tag := 65534 }], lastRemoved := none })
    checked.eng.ctx.map (·.kind) = some .check ∧ (checked.xSenses, checked.sSenses) = (.standard, .checkResistor)
      ∧ ended.eng.ctx = none ∧ (ended.xSenses, ended.sSenses) = (.standard, .checkResistor)
      ∧ next.eng.ctx.map (·.kind) = some .unit ∧ (next.xSenses, next.sSenses) = (.unit, .standard) := by decide
/-- R161: the expiry is taken once in a silence; a frame from the node ends it. -/
theorem test_silence_once :
    let s := withRow (heardAt 0 3) ((station 3 .run).withCtl { (station 3 .run).ctl with activity := .standby })
    let once := after (.peerSilence (ms 1000) 0) s
    let again := after (.peerSilence (ms 1001) 0) (once.withCtl { once.ctl with activity := .standby })
    once.ctl.activity = .active ∧ again.ctl.activity = .standby
      ∧ ((after (.statusReceived (ms 1002) fromZero [0, 0, 0]) once).peers[(0 : Fin 8)]).silenceTaken = false := by decide
/-- R145: a HAIL due with six unit records held is not queued; TXQ_OVERFLOW is set. -/
theorem test_full_queue :
    (after (.hailTimerExpiry (ms 250)) (fullQueue false)).link.queue = (fullQueue false).link.queue
      ∧ flagIn (after (.hailTimerExpiry (ms 250)) (fullQueue false)).alerts.word .txqOverflow = true
      ∧ flagIn (after (.hailTimerExpiry (ms 250)) (fullQueue true)).alerts.word .txqOverflow = false := by decide
/-- R146: at PRECISE a VERDICT that waits through its second index event leaves with FRAME_STALE; the HAIL and the younger VERDICT stay at the front. -/
theorem test_frame_stale :
    ((after (.indexEvent (ms 25) 0) agingQueue).link.queue.take 2).map (·.waiting) = [0, 1]
      ∧ flagIn (after (.indexEvent (ms 25) 0) agingQueue).alerts.word .frameStale = true := by decide

/-! ### Witnesses: the hypotheses of each statement can be met, in every clause -/

theorem witness_StepTakesFrontCommand :
    (State.reset.withPending [.lineIdle 7]).pending = [.lineIdle 7] ∧ State.reset.pending = [] := by decide

theorem witness_HeldResetIgnoresCommands :
    let s := ((station 3 .run).withLink State.reset.link).withResetHeld true
    s.resetHeld = true ∧ s.link.tx = none ∧ s.link.rx = none ∧ ∀ t cause node role page, Instr.lineIdle 5 ≠ .hardReset t cause node role page :=
  ⟨rfl, rfl, rfl, fun _ _ _ _ _ h => by cases h⟩

theorem witness_HardResetEntersListen : (roleOfCode 0).isSome = true ∧ (roleOfCode 4).isSome = true := by decide
theorem witness_HardResetBadRole : roleOfCode 5 = none ∧ roleOfCode 7 = none := by decide

/-- Each output that is driven: HOLD for either request; ALERT in FAULT and by a flag with its mask bit and the master enable, and not without one of these; a gate in each stage; the relays of each arrangement. -/
theorem witness_ResetAssertReleasesOutputs :
    let s := station 4 .run
    let flagged := s.withAlerts { s.alerts with word := AlertFlag.binFull.bit, mask := AlertFlag.binFull.bit, master := true }
    let fires (d : Driver) := s.withGates { s.gates with drivers := s.gates.drivers.set 2 d }
    s.resetHeld = false ∧ s.pullsHold = false ∧ (setMeasReq true s).pullsHold = true ∧ (setFiringReq true s).pullsHold = true
      ∧ (station 4 .fault).assertsAlert = true ∧ flagged.assertsAlert = true
      ∧ (flagged.withAlerts { flagged.alerts with master := false }).assertsAlert = false
      ∧ (flagged.withAlerts { flagged.alerts with mask := AlertFlag.takeover.bit }).assertsAlert = false
      ∧ (fires (.delay 5 9)).gateDrive 2 = .off ∧ (fires (.pullIn 5 9 9)).gateDrive 2 = .full ∧ (fires (.holding 5 9)).gateDrive 3 = .off
      ∧ (fires (.holding 5 9)).gateDrive 2 = .duty s.ctl.items.holdDuty
      ∧ ((running 1 .unit .fwd).slotRelay 2 = true ∧ (running 1 .unit .fwd).slotRelay 1 = false)
      ∧ ((running 1 .unit .fwd).unitRelay = true ∧ (running 1 .unit .fwd).checkRelay = false)
      ∧ (running 1 .check .fwd).unitRelay = false ∧ (running 1 .check .fwd).checkRelay = true := by decide

/-- The edge comes after the last index event by 1 ms exactly, or there was none; at one tick less it is early. -/
theorem edge_accepted (role : BitVec 3) (st : StationState) :
    ∀ e, (station role st).idx.lastIndex = some e → e + ms 1 ≤ max (station role st).now (ms 1) := by
  intro e h; cases h; exact Nat.le_max_right _ _

theorem witness_IndexEventCounts :
    (station 3 .run).resetHeld = false ∧ (station 3 .run).idx.lastIndex = some 0 ∧ max (station 3 .run).now 9999 < 0 + ms 1
      ∧ ∀ e, (station 3 .run).idx.lastIndex = some e → e + ms 1 ≤ max (station 3 .run).now (ms 1) :=
  ⟨rfl, rfl, by decide, edge_accepted 3 .run⟩

/-- The clauses on the queue, the frame in reception and Run Control: a record that leaves and one that stays; a start mark of the last cell time and an older one; a drain that the entry at position 7 awaits after the event, and one that none awaits. -/
theorem witness_IndexEventCounts_clauses :
    let aged := (advance (ms 25) agingQueue).link.queue.map (fun q => if q.frame.isUnit then { q with waiting := q.waiting + 1 } else q)
    let draining (es : List Entry) : State :=
      let s := (station 3 .run).withTable { entries := es, lastRemoved := none }
      s.withCtl { s.ctl with drain := true }
    aged = [⟨.hail, 0⟩, ⟨verdictOf 1, 2⟩, ⟨verdictOf 2, 1⟩] ∧ agingQueue.link.tx = none
      ∧ ms 25 ≤ (⟨ms 25 - us 6, 4, false⟩ : Mark).startedAt + us 6 ∧ ¬(ms 25 ≤ mark.startedAt + us 6)
      ∧ (draining []).ctl.drain = true ∧ (draining []).ctl.run = .run ∧ (station 3 .run).ctl.drain = false
      ∧ (after (.indexEvent (ms 25) 0) (draining [])).table.entries.all (fun e => e.ownStage != .none) = true
      ∧ (after (.indexEvent (ms 25) 0) (draining [{ unit with tag := 65534 }])).table.entries.any
          (fun e => e.tag == 65534 && e.ownStage == .none && e.cls == some .present) = true := by decide

/-- What an index event sends: the VALUE of an aborted UNIT measurement, the ENTRY of a COARSE one, nothing for a CHECK, and beside the VALUE of an aborted UNIT one of quality NO_RECIPE; with six frames held TXQ_OVERFLOW. MEAS_ABORT is set, and the level flag BIN_FULL when its condition stands. -/
theorem witness_IndexEventCounts_sends :
    let halted (kind : WorkKind) : State := (running 1 kind .gap).withCtl (station 1 .halt).ctl
    let sent (s : State) : List QFrame := (after (.indexEvent (ms 1) 0) s).link.queue.map QItem.frame
    let other := (running 1 .unit .gap).withPages (Vector.replicate 4 Page.cleared)
    let full := (halted .unit).withLink { (halted .unit).link with queue := List.replicate 6 ⟨.status [], 0⟩ }
    sent (halted .unit) = [.value (endedRecord (halted .unit) (context .unit .gap) .aborted)] ∧ (halted .unit).work = Work.empty
      ∧ sent (halted .coarse) = [.entry ⟨65533, ⟨1, 2718⟩, .contact, none⟩] ∧ sent (halted .check) = []
      ∧ (sent other).map (fun f => match f with | .value r => (r.tag, r.quality) | _ => (0, .good)) = [(65533, .aborted), (65533, .noRecipe)]
      ∧ sent full = List.replicate 6 (.status []) ∧ flagIn (after (.indexEvent (ms 1) 0) full).alerts.word .txqOverflow = true
      ∧ (after (.indexEvent (ms 1) 0) (halted .check)).alerts.word = AlertFlag.measAbort.bit
      ∧ (after (.indexEvent (ms 1) 0) (setBinTally 1 0 1200 (station 1 .halt))).alerts.word = AlertFlag.binFull.bit := by decide

/-- PROBE without a sequence, and with a COARSE one in GAP that the event aborts. -/
theorem witness_IndexStartsCoarse :
    let s := station 0 .run
    let busy := running 0 .coarse .gap
    s.resetHeld = false ∧ (∀ e, s.idx.lastIndex = some e → e + ms 1 ≤ max s.now (ms 1)) ∧ roleOfCode s.ctl.role = some .probe
      ∧ s.ctl.run = .run ∧ s.ctl.activity = .active ∧ s.ctl.items.position = some 8 ∧ 8 ≤ 31 ∧ s.idx.retireLimit = some 8 ∧ s.eng.ctx = none
      ∧ s.entryOf (s.idx.count + 1 - BitVec.ofNat 16 8) = some unit ∧ (s.withTable { entries := [], lastRemoved := none }).entryOf 65533 = none
      ∧ busy.eng.ctx = some (context .coarse .gap) ∧ (context .coarse .gap).kind = .coarse ∧ busy.ctl = s.ctl ∧ HasRoom 1 (advance (ms 1) busy) :=
  ⟨rfl, edge_accepted 0 .run, rfl, rfl, rfl, rfl, by decide, rfl, rfl, by decide, by decide, rfl, rfl, rfl, rfl, by decide⟩

/-- `station` with the one entry `e`. -/
def holding (e : Entry) (s : State) : State := s.withTable { entries := [e], lastRemoved := none }

/-- A cold record that is GOOD, with NEAR as given. -/
def coldWith (near : Bool) : HeldValue := held .good (some (pos 10)) 400 { clear with near := near } none

/-- `station` with a measurement of the unit at position 7 in progress, and the entries `es`. -/
def busyWith (role : BitVec 3) (kind : WorkKind) (es : List Entry) : State :=
  let s := running role kind .fwd
  (s.withTable { entries := es, lastRemoved := none }).withEng { s.eng with ctx := some { context kind .fwd with tag := 65534 } }

/-- The clauses on the table, at a station that is not SORT: an entry within the retire limit, two beyond it (one stamped by its ENTRY, one with an assumed page), the unit worked on, a measurement in progress, and no retire limit. -/
theorem witness_IndexEventCounts_table :
    let s := busyWith 1 .unit [{ unit with tag := 65531, stamp := some ⟨2, 7⟩ }, { unit with tag := 65532, assumedPage := true }, unit, { unit with tag := 0 }]
    let u := after (.indexEvent (ms 25) 0) s
    roleOfCode s.ctl.role ≠ some .sort ∧ s.idx.retireLimit = some 8 ∧ (s.idx.count + 1 - 65531).toNat = 10 ∧ (s.idx.count + 1 - 0 : BitVec 16).toNat = 5
      ∧ s.ctl.items.position = some 8 ∧ s.idx.count + 1 - BitVec.ofNat 16 8 = 65533 ∧ s.eng.ctx.map (·.tag) = some 65534 ∧ s.work = Work.empty
      ∧ u.entryOf 0 = some { unit with tag := 0 } ∧ u.entryOf 65531 = none ∧ u.entryOf 65532 = none ∧ u.table.lastRemoved = some ⟨2, 7⟩
      ∧ State.reset.idx.retireLimit = none := by decide

/-- PRECISE and THERMAL on a unit that is PRESENT, without a class, and not held; RETEST on one that is NEAR and on a PRESENT one without a cold record; with and without the measurement of another unit in progress. -/
theorem witness_IndexStartsUnit :
    (∀ role ∈ [(1 : BitVec 3), 2, 3],
      let s := station role .run
      s.resetHeld = false ∧ s.idx.lastIndex = some 0 ∧ 0 + ms 1 ≤ max s.now (ms 1)
        ∧ s.role.bind slotOfRole = some (if role = 1 then .cold else if role = 2 then .retest else .hot)
        ∧ s.ctl.run = .run ∧ s.ctl.activity = .active ∧ s.ctl.items.position = some 8 ∧ s.idx.retireLimit = some 8 ∧ s.work = Work.empty
        ∧ s.eng.ctx = none ∧ s.entryOf 65533 = some unit ∧ unit.cls = some .present ∧ unit.cold = none)
      ∧ 4 + 1 - BitVec.ofNat 16 8 = (65533 : BitVec 16) ∧ 8 ≤ 31
      ∧ ((holding (Entry.blank 65533 .none) (station 3 .run)).entryOf 65533).map (·.cls) = some none
      ∧ (holding { unit with tag := 65534 } (station 1 .run)).entryOf 65533 = none
      ∧ ((holding { unit with cold := some (coldWith true) } (station 2 .run)).entryOf 65533).bind (·.cold) = some (coldWith true)
      ∧ (coldWith true).flags.near = true := by decide

/-- The measurement of another unit that such a start ends: a UNIT and a CHECK, with the entry of that unit held and gone. -/
theorem witness_IndexStartsUnit_busy :
    ∀ role ∈ [(1 : BitVec 3), 2, 3], ∀ kind ∈ [WorkKind.unit, .check], ∀ es ∈ [[unit, { unit with tag := 65534 }], [unit]],
      let s := busyWith role kind es
      s.resetHeld = false ∧ s.idx.lastIndex = some 0 ∧ s.ctl.run = .run ∧ s.ctl.activity = .active ∧ s.ctl.items.position = some 8
        ∧ s.idx.retireLimit = some 8 ∧ s.eng.ctx = some { context kind .fwd with tag := 65534 } ∧ kind ≠ .coarse ∧ (65534 : BitVec 16) ≠ 65533
        ∧ s.entryOf 65533 = some unit ∧ s.work = Work.empty ∧ (advance (ms 1) s).link.queue.length + 2 ≤ 6 := by decide

/-- The page of that measurement: the entry's own, that of a younger entry, that of the entry last removed; LOCKED, not LOCKED, and none at all. -/
theorem witness_IndexStartsUnit_page :
    unit.stamp = some ⟨1, 2718⟩ ∧ ((station 1 .run).pages[(1 : Fin 4)]).state = .locked ∧ ((station 1 .run).pages[(2 : Fin 4)]).state ≠ .locked
      ∧ (Entry.blank 65533 .none).stamp = none ∧ State.assumedStamp (holding { unit with tag := 65534 } (station 1 .run)) = some ⟨1, 2718⟩
      ∧ State.assumedStamp ((station 1 .run).withTable { entries := [], lastRemoved := some ⟨2, 5⟩ }) = some ⟨2, 5⟩
      ∧ State.assumedStamp ((station 1 .run).withTable { entries := [], lastRemoved := none }) = none := by decide

/-- CONTACT, GROSS_LOW and GROSS_HIGH; at RETEST a good cold record, and a class other than PRESENT without one; EMPTY with the most recent page LOCKED and not. -/
theorem witness_IndexSkipsUnit :
    (∀ role ∈ [(1 : BitVec 3), 2, 3], ∀ cls ∈ [EntryClass.contact, .grossLow, .grossHigh, .empty],
      let s := holding { unit with cls := some cls } (station role .run)
      s.resetHeld = false ∧ s.idx.lastIndex = some 0 ∧ 0 + ms 1 ≤ max s.now (ms 1) ∧ s.ctl.run = .run ∧ s.ctl.activity = .active
        ∧ s.ctl.items.position = some 8 ∧ s.idx.retireLimit = some 8 ∧ s.eng.ctx = none
        ∧ s.entryOf (s.idx.count + 1 - BitVec.ofNat 16 8) = some { unit with cls := some cls }
        ∧ roleOfCode s.ctl.role = some (if role = 1 then .precise else if role = 2 then .retest else .thermal))
      ∧ (coldWith false).flags.near = false ∧ (coldWith false).flags.suspect = false ∧ unit.cold = none ∧ some EntryClass.contact ≠ some .present
      ∧ ((station 1 .run).pages[(station 1 .run).eng.recentPage]).state ≠ .locked
      ∧ ((running 1 .unit .fwd).pages[(running 1 .unit .fwd).eng.recentPage]).state = .locked := by decide

/-- The same with another unit's measurement in progress; and RETEST without an entry. -/
theorem witness_IndexSkipsUnit_busy :
    (∀ role ∈ [(1 : BitVec 3), 2, 3], ∀ kind ∈ [WorkKind.unit, .check],
      let s := busyWith role kind [{ unit with cls := some .contact }]
      s.resetHeld = false ∧ s.eng.ctx = some { context kind .fwd with tag := 65534 } ∧ kind ≠ .coarse
        ∧ s.entryOf (s.idx.count + 1 - BitVec.ofNat 16 8) = some { unit with cls := some .contact } ∧ s.work = Work.empty
        ∧ (advance (ms 1) s).link.queue.length + 1 ≤ 6)
      ∧ roleOfCode (busyWith 2 .unit []).ctl.role = some .retest ∧ (busyWith 2 .unit []).entryOf 65533 = none := by decide

/-- Not in RUN, without a sequence and with one of each kind, of a unit that stays in range; not ACTIVE; without a position. -/
theorem witness_IndexWithoutWork :
    (∀ e, (station 1 .halt).idx.lastIndex = some e → e + ms 1 ≤ max (station 1 .halt).now (ms 1)) ∧ (station 1 .halt).resetHeld = false
      ∧ (station 1 .halt).ctl.run ≠ .run ∧ (station 1 .halt).eng.ctx = none
      ∧ (∀ kind ∈ [WorkKind.unit, .coarse, .check],
          let s := (running 1 kind .gap).withCtl (station 1 .halt).ctl
          s.ctl.run ≠ .run ∧ s.eng.ctx = some (context kind .gap) ∧ SendsUnits s ∧ HasRoom 1 (advance (ms 1) s) ∧ s.idx.retireLimit = some 8
            ∧ (s.idx.count + 1 - (context kind .gap).tag).toNat ≤ 8 ∧ roleOfCode s.ctl.role ≠ some .sort ∧ s.entryOf 65533 = some unit
            ∧ s.role.bind slotOfRole = some .cold)
      ∧ (setActivity .muted (station 1 .run)).ctl.activity ≠ .active ∧ State.reset.ctl.items.position = none := by
  refine ⟨edge_accepted 1 .halt, rfl, by decide, rfl, ?_, by decide, rfl⟩
  intro kind _
  cases kind <;> exact ⟨by decide, rfl, ⟨rfl, .inr rfl⟩, ⟨rfl, by decide⟩, rfl, by decide, by decide, by decide, rfl⟩

/-- An aborted COARSE measurement gives its class to an entry without one, leaves one that has it, and makes an entry where none is held; a UNIT measurement makes one too, and a CHECK none. -/
theorem witness_IndexWithoutWork_entry :
    let halted (kind : WorkKind) (es : List Entry) : State :=
      ((running 1 kind .gap).withCtl (station 1 .halt).ctl).withTable { entries := es, lastRemoved := none }
    let entry (s : State) : Option Entry := (after (.indexEvent (ms 1) 0) s).entryOf 65533
    let contact : Entry := { Entry.blank 65533 .done with stamp := some ⟨1, 2718⟩, cls := some .contact }
    entry (halted .coarse [Entry.blank 65533 .measuring]) = some contact ∧ entry (halted .coarse [unit]) = some { unit with ownStage := .done }
      ∧ entry (halted .coarse []) = some contact ∧ (entry (halted .unit [])).map (fun e => (e.cold.isSome, e.ownStage)) = some (true, .done)
      ∧ entry (halted .check []) = none := by decide

/-- Every row of the reason table: unit 4 in turn without class, EMPTY, on a page that is not LOCKED, with digest 0, CONTACT, GROSS, in doubt, without a value, and with one. -/
theorem witness_ReasonTable :
    let s := station 4 .run
    (Entry.blank 1 .none).cls = none ∧ { unit with cls := some .empty }.cls = some .empty
      ∧ unit.cls = some .present ∧ EntryClass.present ≠ .empty ∧ unit.stamp = some ⟨1, 2718⟩ ∧ (s.pages[(1 : Fin 4)]).state = .locked
      ∧ (s.pages[(2 : Fin 4)]).state ≠ .locked ∧ (0 : BitVec 12) ≠ (s.pages[(1 : Fin 4)]).digest ∧ 2718 = (s.pages[(1 : Fin 4)]).digest
      ∧ { unit with cls := some .contact }.cls = some .contact ∧ { unit with cls := some .grossLow }.cls = some .grossLow
      ∧ { unit with cls := some .grossHigh }.cls = some .grossHigh ∧ { unit with doubt := true }.doubt = true ∧ unit.doubt = false
      ∧ chosenValue unitG = none ∧ chosenValue unitA = some ⟨pos 551, held .good (some (pos 551)) 376 clear none, false⟩ := by decide

/-- What the table reads: a chosen value from the retest, from the cold record, and none; α with and without a good hot record; Stage G with a record absent and with one that is not GOOD; −0 and +0 apart. -/
theorem witness_ReasonTable_reads :
    (∃ r, unitB.retest = some r ∧ r.quality = .good ∧ r.deviation = some (minus 0)) ∧ unitA.retest = none
      ∧ (∃ v, unitA.cold = some v ∧ v.quality = .good ∧ v.deviation = some (pos 551)) ∧ (unitC.retest.map (·.quality)) = some .aborted
      ∧ (unitG.cold.map (·.quality)) = some .aborted ∧ (∃ h, unitA.hot = some h ∧ h.quality = .good ∧ h.tcr = some (pos 8)) ∧ unitB.hot = none
      ∧ page1.agreeLimit ≠ 0 ∧ (minus 0).toInt = (pos 0).toInt ∧ (minus 0).neg = true ∧ (pos 0).neg = false :=
  ⟨⟨_, rfl, rfl, rfl⟩, rfl, ⟨_, rfl, rfl, rfl⟩, rfl, rfl, ⟨_, rfl, rfl, rfl⟩, rfl, by decide, by decide, rfl, rfl⟩

/-- The rows after the chosen value: TCR_REQUIRED without a hot value (unit C on such a page), DRIFT, DISAGREE (E), GUARD (C), BINNED (A, in bin 3 after two that do not fit) and NO_BIN (D). -/
theorem witness_ReasonTable_values :
    { page1 with tcrRequired := true }.tcrRequired = true ∧ unitC.hot = none ∧ page1.tcrRequired = false
      ∧ { clear with drift := true }.drift = true ∧ clear.drift = false ∧ stageG page1 unitE.cold unitE.retest = false
      ∧ stageG page1 unitC.cold unitC.retest = true ∧ (chosenValue unitC).map (·.fromRetest) = some false
      ∧ stageH page1 (normaliseDefault page1 (pos 520) (some 400)) = true ∧ (chosenValue unitB).map (·.fromRetest) = some true
      ∧ stageH page1 (normaliseDefault page1 (pos 551) (some 376)) = false
      ∧ page1.bins.map (binMatches (normaliseChosen page1 (pos 551) (some 376) unitA.hot) (alphaOf unitA)) = [false, false, true]
      ∧ page1.bins.map (binMatches (normaliseChosen page1 (pos 700) (some 400) unitD.hot) (alphaOf unitD)) = [false, false, false] := by decide

/-- Bin 1 of page 1 at CAPACITY 1200, one below it, without a capacity, and a verdict that is not BINNED. -/
theorem witness_CapacityCheck :
    let v : Provisional := { page := some 1, reason := .binned, bin := some 0, gate := 3 }
    let full := setBinTally 1 0 1200 (station 4 .run)
    let below := setBinTally 1 0 1199 (station 4 .run)
    v.reason = .binned ∧ v.page = some 1 ∧ v.bin = some 0 ∧ (full.pages[(1 : Fin 4)]).binOf 0 = some ⟨0, minus 500, minus 0, none, 3, 1200⟩
      ∧ (1200 : BitVec 16) ≠ 0 ∧ full.binTally 1 0 = 1200 ∧ below.binTally 1 0 < 1200
      ∧ { page1 with bins := [⟨0, minus 500, minus 0, none, 3, 0⟩] }.binOf 0 = some ⟨0, minus 500, minus 0, none, 3, 0⟩
      ∧ Reason.noBin ≠ .binned := by decide

/-- SORT with gates 3 and 16 installed at 13 and 15 and FALLBACK_GATE 16. -/
def sorter : State :=
  let s := station 4 .run
  (s.withCtl
    { s.ctl with items := { s.ctl.items with position := some 12, gatePos := ((Vector.replicate 16 0).set 2 13).set 15 15, fallbackGate := some 16 } }).withIdx
    { s.idx with retireLimit := some 15, count := 9 }

theorem witness_GateResolution :
    ((3 : Fin 17).val = (2 : Fin 16).val + 1 ∧ sorter.ctl.items.gatePos[(2 : Fin 16)] ≠ 0)
      ∧ ((1 : Fin 17).val = (0 : Fin 16).val + 1 ∧ sorter.ctl.items.gatePos[(0 : Fin 16)] = 0 ∧ sorter.fallback.val = (15 : Fin 16).val + 1
          ∧ sorter.ctl.items.gatePos[(15 : Fin 16)] ≠ 0)
      ∧ ((station 4 .run).ctl.items.gatePos[(0 : Fin 16)] = 0 ∧ (station 4 .run).fallback = 0)
      ∧ ((station 4 .run).withCtl { (station 4 .run).ctl with items := { Items.cleared with fallbackGate := some 1 } }).fallback.val
          = (0 : Fin 16).val + 1 := by decide

/-- The running step ends at the very instant of the command. -/
theorem witness_SequenceTimers :
    (context .unit .settle).state = .settle ∧ (context .unit .fwdWait).state = .fwdWait ∧ (context .unit .gap).state = .gap
      ∧ (running 1 .unit .gap).resetHeld = false ∧ (running 1 .unit .gap).eng.ctx = some (context .unit .gap)
      ∧ (context .unit .gap).due ≤ max (running 1 .unit .gap).now 100 := by decide

/-- For the outputs: a UNIT and a CHECK, and a sequence whose excitation is off in SETTLE. -/
theorem witness_SequenceTimers_outputs :
    (context .check .settle).kind = .check ∧ (context .unit .settle).kind ≠ .check ∧ (running 1 .unit .settle).eng.excitation = .off
      ∧ (context .unit .settle).range = 2 ∧ (context .unit .settle).gain = 3 := by decide

/-- CONTACT_LIMIT 20 is 2.0 Ω: 1999 mΩ is closed, 2000 mΩ is open; the off interval of GAP 1000 µs ends at the command, or one tick after it. -/
theorem witness_ContactTestSides :
    let s := running 1 .unit (.contactB true)
    s.resetHeld = false ∧ s.eng.ctx = some (context .unit (.contactB true)) ∧ (context .unit (.contactB true)).due ≤ max s.now 10000
      ∧ (context .unit .contactA).state = .contactA ∧ (context .unit (.contactB true)).state = .contactB true
      ∧ 1999 < 100 * s.ctl.items.contactLimit ∧ 0 + us (10 * s.ctl.items.gap) ≤ max s.now 10000
      ∧ max s.now 10000 < 1 + us (10 * s.ctl.items.gap) ∧ { s.eng with lastOff := some 1 }.lastOff = some 1 := by decide

/-- Each ending: an open contact, an overload, MEAS_LIMIT in REV, before the temperature conversion ends and when it has ended; a unit whose entry is held, and one that is late. -/
theorem witness_UnitEndsEarly :
    let s := running 1 .unit (.contactB false)
    let late := (running 1 .unit .rev).withTable { entries := [], lastRemoved := none }
    UnitRun s (context .unit (.contactB false)) .cold ∧ s.resetHeld = false ∧ s.eng.ctx = some (context .unit (.contactB false))
      ∧ (context .unit (.contactB false)).state = .contactB false ∧ (context .unit (.contactB false)).due ≤ max s.now 100
      ∧ 100 * s.ctl.items.contactLimit ≤ 2000 ∧ (context .unit .fwd).discards = 0 ∧ (context .unit .rev).limitDue ≤ max s.now 100
      ∧ UnitRun (running 3 .unit .sampling) (context .unit .sampling) .hot ∧ (context .unit .sampling).state = .sampling
      ∧ max s.now 100 < { context .unit .sampling with due := 101 }.due ∧ (context .unit .sampling).due ≤ max s.now 100
      ∧ UnitRun (late.withIdx { late.idx with retireLimit := some 6 }) (context .unit .rev) .cold ∧ SendsUnits s ∧ HasRoom 1 (advance 100 s) := by
  refine ⟨⟨rfl, rfl, by decide⟩, rfl, rfl, rfl, by decide, by decide, rfl, by decide, ⟨rfl, rfl, by decide⟩, rfl, by decide, by decide,
    ⟨rfl, rfl, by decide⟩, ⟨rfl, .inl rfl⟩, rfl, by decide⟩

theorem witness_CoarseEndsEarly :
    CoarseRun (running 0 .coarse .fwd) (context .coarse .fwd) ∧ (running 0 .coarse .fwd).resetHeld = false
      ∧ (running 0 .coarse .fwd).eng.ctx = some (context .coarse .fwd) ∧ (context .coarse .fwd).due ≤ max (running 0 .coarse .fwd).now 100
      ∧ (context .coarse .fwd).discards = 0 ∧ (0x7FFFFF : BitVec 24) ≠ 0x800000 ∧ (context .coarse .fwd).limitDue ≤ max (running 0 .coarse .fwd).now 100
      ∧ (context .coarse .fwd).state ≠ .sampling ∧ CoarseRun (running 0 .coarse (.contactB true)) (context .coarse (.contactB true))
      ∧ SendsUnits (running 0 .coarse .fwd) ∧ HasRoom 1 (advance 100 (running 0 .coarse .fwd)) :=
  ⟨⟨rfl, by decide⟩, rfl, rfl, by decide, rfl, by decide, by decide, by decide, ⟨rfl, by decide⟩, ⟨rfl, .inl rfl⟩, rfl, by decide⟩

/-- Ss at the MIN_STD limit of 256 · 4096 and one below it; Sx at 0 and 1. -/
theorem witness_CheckEnds :
    let s := running 3 .check .sampling
    s.resetHeld = false ∧ s.eng.ctx = some (context .check .sampling) ∧ (context .check .sampling).kind = .check
      ∧ (context .check .sampling).state = .sampling ∧ (context .check .sampling).due ≤ max s.now 100
      ∧ (context .check .sampling).fwd = some ⟨4200630, 4200000⟩ ∧ (context .check .sampling).rev = some ⟨-4199830, -4200020⟩
      ∧ (context .check (.contactB false)).state = .contactB false ∧ (context .check .gap).limitDue ≤ max s.now 100
      ∧ (context .check .gap).state ≠ .sampling ∧ (context .check .rev).state = .rev ∧ (context .check .rev).discards = 0
      ∧ ((1048575 : Int) - 0 < s.ctl.items.minStd * 4096) ∧ ((s.ctl.items.minStd : Int) * 4096 ≤ 1048576 - 0) := by decide

/-- A check that is taken, for a slot without a baseline and for one with a baseline and four samples; a sample less than the baseline. -/
theorem witness_CheckEnds_taken :
    let s := running 3 .check .sampling
    let used := s.withDrift (s.drift.set 2 { baseline := some (pos 1204), ring := [pos 0, pos 3, pos 5, pos 8], staleness := 72 })
    (s.ctl.items.minStd : Int) * 4096 ≤ 4200000 - (-4200020) ∧ (0 : Int) < 4200000 - (-4200020) ∧ (0 : Int) < 4200630 - (-4199830)
      ∧ (context .check .sampling).slot = 2 ∧ (s.drift[(2 : Fin 4)]).baseline = none ∧ (used.drift[(2 : Fin 4)]).baseline = some (pos 1204)
      ∧ used.eng.ctx = some (context .check .sampling) ∧ 4 < ((used.drift[(2 : Fin 4)]).ring ++ [pos 11]).length
      ∧ roundedDev (524 - 1204) 1 = minus 680 ∧ [pos 3, pos 5, pos 8, pos 11] ≠ [] := by decide

/-- A discard left; the next to last conversion kept (PHASE_AVG 8, six kept). -/
theorem witness_ConversionCounts :
    let c := { context .unit .fwd with kept := 6 }
    let s := (running 1 .unit .fwd).withEng { (running 1 .unit .fwd).eng with ctx := some c }
    s.resetHeld = false ∧ s.eng.ctx = some c ∧ c.due ≤ max s.now 100 ∧ (c.state = .fwd ∨ c.state = .rev) ∧ c.discards = 0
      ∧ c.kept + 1 < s.ctl.items.phaseAvg ∧ 0 < { c with discards := 1 }.discards ∧ (5 : BitVec 24) ≠ 0x7FFFFF ∧ (5 : BitVec 24) ≠ 0x800000 := by
  decide

/-- The eighth of eight conversions. -/
theorem witness_PhaseEnds :
    let s := running 1 .unit .fwd
    s.resetHeld = false ∧ s.eng.ctx = some (context .unit .fwd) ∧ (context .unit .fwd).due ≤ max s.now 100 ∧ (context .unit .fwd).discards = 0
      ∧ (5 : BitVec 24) ≠ 0x7FFFFF ∧ (5 : BitVec 24) ≠ 0x800000 ∧ s.ctl.items.phaseAvg ≤ (context .unit .fwd).kept + 1
      ∧ (context .unit .fwd).state = .fwd ∧ (context .unit .fwd).kind ≠ .coarse ∧ s.eng.excitation = .forward
      ∧ (running 1 .unit .rev).eng.ctx = some (context .unit .rev) ∧ (context .unit .rev).state = .rev := by decide

theorem witness_CoarseCompletes :
    let s := running 0 .coarse .fwd
    (s.classify 65533 = .inRange → (s.entryOf 65533).isSome = true) ∧ (context .coarse .fwd).kind = .coarse ∧ s.resetHeld = false ∧ s.eng.ctx = some (context .coarse .fwd) ∧ (context .coarse .fwd).due ≤ max s.now 100
      ∧ (context .coarse .fwd).discards = 0 ∧ (5 : BitVec 24) ≠ 0x7FFFFF ∧ (5 : BitVec 24) ≠ 0x800000
      ∧ s.ctl.items.phaseAvg ≤ (context .coarse .fwd).kept + 1 ∧ (context .coarse .fwd).state = .fwd
      ∧ phaseAverage 5 8 < (s.ctl.items.minStd : Int) * 4096 ∧ (s.ctl.items.minStd : Int) * 4096 ≤ phaseAverage 8388608 8 := by decide

theorem witness_TemperatureSampleEnds :
    let s := running 3 .unit .sampling
    UnitRun s (context .unit .sampling) .hot ∧ s.resetHeld = false ∧ s.eng.ctx = some (context .unit .sampling)
      ∧ (context .unit .sampling).state = .sampling ∧ (context .unit .sampling).due ≤ max s.now 100
      ∧ (context .unit .sampling).fwd = some ⟨4200630, 4200000⟩ ∧ (context .unit .sampling).rev = some ⟨-4199830, -4200020⟩ :=
  ⟨⟨rfl, rfl, by decide⟩, rfl, rfl, rfl, by decide, rfl, rfl⟩

/-- Averages that fail Stage A's limit, that fail the polarity test, that pass both, that saturate Stage C, and whose sum is a minus zero; each cold side of Stage E; and a ΔT of TCR_MIN_DT and one below it. -/
theorem witness_CompletedRecord :
    let limit : Int := (station 1 .run).ctl.items.minStd * 4096
    let raw (sx ss : Int) : Nat := roundedMag ((sx - ss) * 10000000) ss
    (station 1 .run).role ≠ some .thermal ∧ (station 3 .run).role = some .thermal ∧ (station 1 .run).role = some .precise
      ∧ (1048575 : Int) - 0 < limit ∧ (limit ≤ (1048576 : Int) - 0 ∧ (0 : Int) - 0 ≤ 0)
      ∧ limit ≤ (4200000 : Int) - (-4200020) ∧ (0 : Int) < 4200630 - (-4199830) ∧ raw 8400460 8400020 = 524
      ∧ 8388607 < raw 8400020 1048576 ∧ stageD (minus 4) 4 = ⟨true, 0⟩
      ∧ coldSide (some unitE) = some (pos 312, some 400) ∧ coldSide (some unitC) = some (pos 520, some 400) ∧ coldSide (some unitG) = none
      ∧ (unitG.cold.map (·.quality)) ≠ some .good ∧ page1.tcrMinDt.toNat ≤ (560 : Int) - 400 ∧ (559 : Int) - 400 < page1.tcrMinDt.toNat := by
  decide

/-- SORT at count 9 with position 12: entries at positions 15, 14 (undecided) and 12, unit `e` next to be decided; gate 3 in HOLDING for position 11, and two firings WAITING, one whose unit stands at its gate after the event and one whose unit has passed it. -/
def busySorter (e : List Entry) : State :=
  let s := sorter
  (((s.withTable { entries := [{ unitA with tag := 65530 }, { unitA with tag := 65531 }] ++ e, lastRemoved := none }).withGates
      { s.gates with
        firings := [⟨65534, 2, some 1, .holding⟩, ⟨65531, 15, some 1, .waiting⟩, ⟨65530, 15, none, .waiting⟩]
        drivers := s.gates.drivers.set 2 (.holding 65534 500) }).withIdx { s.idx with firingReq := true }).withLink
    { s.link with queue := [{ frame := .hail, waiting := 0 }] }

/-- The unit decided is held or not; its gate is installed, or not; the tags of the other units are its neighbours. -/
theorem witness_SortDecides :
    ∀ es ∈ [[{ unitA with tag := 65533 }], [{ unitG with tag := 65533 }], [{ unitA with tag := 65533, cls := some .empty }], []],
    let s := busySorter es
    s.resetHeld = false ∧ s.idx.lastIndex = some 0 ∧ 0 + ms 1 ≤ max s.now (ms 1) ∧ roleOfCode s.ctl.role = some .sort ∧ s.eng.ctx = none
      ∧ (s.ctl.activity = .active ∧ s.ctl.run = .run) ∧ s.ctl.items.position = some 12 ∧ 12 < 15 ∧ s.idx.retireLimit = some 15
      ∧ s.idx.count - BitVec.ofNat 16 12 = 65533 ∧ s.entryOf 65533 = es.head? ∧ (es.map (·.verdict)).all Option.isNone = true
      ∧ s.firingOf 65533 = none ∧ s.work = Work.empty ∧ (advance (ms 1) s).link.queue.length + 1 ≤ 6
      ∧ retireLimitOf s.ctl.role s.ctl.items = some 15 ∧ s.table.entries.map (fun e => s.posOf e.tag) = [15, 14] ++ es.map (fun _ => 12)
      ∧ (s.gates.firings.map Firing.tag).Nodup ∧ s.gates.drivers[(2 : Fin 16)] = .holding 65534 500 := by decide

/-- A decided unit taken past SORT again: still held it is not decided; with its firing in progress, cut by this very event, it is decided NO_ENTRY (log entry 46). -/
theorem test_decided_again :
    let decided : Entry := { unitA with tag := 65533, verdict := some { reason := .binned, bin := some 0, gate := 3 }, ownStage := .done }
    let s := (sorter.withTable { entries := [decided], lastRemoved := none }).withIdx { sorter.idx with count := 10 }
    let fires (d : Driver) (st : FiringStage) : State :=
      s.withGates { s.gates with firings := [⟨65533, 2, some 1, st⟩], drivers := s.gates.drivers.set 2 d }
    (sortIndexEvent (fires .idle .waiting)).gates.reasonTallies = s.gates.reasonTallies
      ∧ (sortIndexEvent (fires (.holding 65533 500) .holding)).gates.reasonTallies[Reason.noEntry.place] = 1
      ∧ (sortIndexEvent (fires (.holding 65533 500) .holding)).entryOf 65533 = none := by decide

/-- The same station with six frames held that stay. -/
def sorterFull (e : List Entry) : State :=
  let s := busySorter e
  s.withLink { s.link with queue := List.replicate 6 ⟨verdictOf 4, 0⟩ }

/-- A SORT station without a POSITION, with the firings it held. -/
def sorterNowhere : State :=
  let s := busySorter []
  ((s.withCtl { s.ctl with items := { s.ctl.items with position := none } }).withIdx { s.idx with retireLimit := none }).withTable
    { entries := [], lastRemoved := none }

/-- R127: a VERDICT that finds six frames held is not queued; the reason is counted all the same. -/
theorem test_verdict_full :
    let s := sorterFull [{ unitA with tag := 65533 }]
    (after (.indexEvent (ms 25) 0) s).link.queue.length = 6 ∧ flagIn (after (.indexEvent (ms 25) 0) s).alerts.word .txqOverflow = true
      ∧ (after (.indexEvent (ms 25) 0) s).gates.reasonTallies[(11 : Fin 15)] = 1 := by decide
/-- The queue full and with one place left; and no POSITION, with firings cut off, dropped and left. -/
theorem witness_SortDecides_more :
    (∀ s ∈ [sorterFull [{ unitA with tag := 65533 }], sorterNowhere],
      s.resetHeld = false ∧ s.idx.lastIndex = some 0 ∧ 0 + ms 1 ≤ max s.now (ms 1) ∧ roleOfCode s.ctl.role = some .sort ∧ s.eng.ctx = none
        ∧ s.work = Work.empty ∧ s.idx.retireLimit = retireLimitOf s.ctl.role s.ctl.items ∧ s.ctl.run ≠ .fault)
      ∧ ((advance (ms 1) (sorterFull [])).link.queue.map QItem.age).filter (fun q => !q.isStale) = List.replicate 6 ⟨verdictOf 4, 1⟩
      ∧ sorterNowhere.ctl.items.position = none ∧ sorterNowhere.table.entries = [] ∧ sorterNowhere.gates.firings.length = 3 := by decide

/-- Its gates and its table are sound. -/
theorem witness_SortDecides_sound : GatesOk (busySorter []) ∧ TableOk (busySorter [{ unitA with tag := 65533 }]) := by
  refine ⟨⟨by decide, by decide, ?_, ?_, by decide⟩, ⟨by decide, ?_, by decide, by decide, ?_⟩⟩
  · intro f hf
    obtain rfl | rfl | rfl : f = ⟨65534, 2, some 1, .holding⟩ ∨ f = ⟨65531, 15, some 1, .waiting⟩ ∨ f = ⟨65530, 15, none, .waiting⟩ := by
      simpa using List.mem_cons.mp hf
    all_goals first | exact fun _ => rfl | exact fun h => absurd rfl h
  · intro g hg
    refine ⟨⟨65534, 2, some 1, .holding⟩, List.mem_cons_self, ?_⟩
    fin_cases g <;> first | exact absurd rfl hg | exact ⟨rfl, rfl⟩
  · intro p h; cases h; decide
  · have h : (busySorter [{ unitA with tag := 65533 }]).table.entries.all
        (fun e => decide ((busySorter [{ unitA with tag := 65533 }]).posOf e.tag ≤ 15)) = true := by decide
    exact fun e he => ⟨15, rfl, of_decide_eq_true (List.all_eq_true.mp h e he)⟩

/-- The gates and the table of the station without a POSITION are sound. -/
theorem witness_SortDecides_nowhere : GatesOk sorterNowhere ∧ TableOk sorterNowhere :=
  ⟨witness_SortDecides_sound.1, by decide, (fun p h => by cases h), by decide, by decide, fun e he => by cases he⟩

/-- The cases it falls into: unit A goes to a gate, an EMPTY unit to none; a firing is cut off, one dropped and one left, whose unit reaches its gate. -/
theorem witness_SortDecides_cases :
    (resolveGate sorter (capacityCheck sorter (judge sorter { unitA with tag := 65533 })).gate).2.1 = some 15
      ∧ (resolveGate sorter (judge sorter { unitA with cls := some .empty }).gate).2.1 = none
      ∧ (10 - 65530 : BitVec 16).toNat = 16 ∧ (10 - 65531 : BitVec 16).toNat = 15 ∧ sorter.ctl.items.gatePos[(15 : Fin 16)] = 15
      ∧ ((advance (ms 1) (busySorter [])).link.queue.map QItem.age).filter (fun q => !q.isStale) = [{ frame := .hail, waiting := 0 }] := by decide

/-- The same station with other firings, in another activity or state. -/
def sorterIn (activity : Activity) (st : StationState) (fs : List Firing) (e : List Entry) : State :=
  let s := busySorter e
  (((s.withCtl { s.ctl with activity := activity, run := st, hailDue := none }).withGates
      { s.gates with firings := fs, drivers := if fs.any (fun f => f.stage != .waiting) then s.gates.drivers.set 2 (.holding 65533 500) else Vector.replicate 16 .idle }).withIdx
    { s.idx with firingReq := fs.any (fun f => f.stage != .waiting) })

/-- The entry of the unit that passes, with its verdict. -/
def judged : Entry := { unitA with tag := 65533, verdict := some { reason := .binned, bin := some 2, gate := 5 } }

/-- A unit that has its verdict; one whose firing is WAITING or is cut off at this event, with its entry and without; and STANDBY, MUTED, READY, HALT, CONFIG and FAULT, with a verdict held and without one. -/
theorem witness_SortDecides_states :
    ∀ s ∈ [sorterIn .active .run [⟨65533, 15, some 1, .waiting⟩] [judged], sorterIn .active .run [⟨65533, 15, some 1, .waiting⟩] [{ unitA with tag := 65533 }],
        sorterIn .active .run [⟨65533, 15, some 1, .waiting⟩] [], sorterIn .active .run [⟨65533, 2, some 1, .holding⟩] [judged],
        sorterIn .standby .run [] [judged], sorterIn .muted .run [] [{ unitA with tag := 65533 }], sorterIn .active .ready [] [judged],
        sorterIn .active .halt [] [{ unitA with tag := 65533 }], sorterIn .active .config [] [judged],
        sorterIn .active .fault [] [judged], sorterIn .active .fault [] [{ unitA with tag := 65533 }]],
      s.resetHeld = false ∧ s.idx.lastIndex = some 0 ∧ 0 + ms 1 ≤ max s.now (ms 1) ∧ roleOfCode s.ctl.role = some .sort ∧ s.eng.ctx = none
        ∧ s.ctl.items.position = some 12 ∧ s.idx.retireLimit = some 15 ∧ s.work = Work.empty ∧ (advance (ms 1) s).link.queue.length + 1 ≤ 6
        ∧ s.gates.firings.length ≤ 32 ∧ (s.gates.firings.map Firing.tag).Nodup
        ∧ s.idx.firingReq = s.gates.firings.any (fun f => f.stage != .waiting) ∧ retireLimitOf s.ctl.role s.ctl.items = some 15
        ∧ (s.ctl.run = .fault → s.gates.firings = [] ∧ s.gates.drivers = Vector.replicate 16 .idle ∧ s.idx.measReq = false ∧ s.ctl.hailDue = none) := by
  decide

/-- SORT with one firing in progress at gate 3. -/
def firing (st : FiringStage) (d : Driver) : State :=
  (sorter.withGates
    { sorter.gates with firings := [{ tag := 65533, gate := 2, page := some 1, stage := st }], drivers := sorter.gates.drivers.set 2 d }).withIdx
    { sorter.idx with firingReq := true }

theorem witness_DelayAndPullInEnd :
    (firing .delay (.delay 65533 100)).resetHeld = false ∧ (firing .delay (.delay 65533 100)).gates.drivers[(2 : Fin 16)] = .delay 65533 100
      ∧ 100 ≤ max (firing .delay (.delay 65533 100)).now 100
      ∧ (firing .pullIn (.pullIn 65533 100 200)).gates.drivers[(2 : Fin 16)] = .pullIn 65533 100 200 ∧ 100 < 200
      ∧ (firing .pullIn (.pullIn 65533 100 100)).gates.drivers[(2 : Fin 16)] = .pullIn 65533 100 100 := by decide

theorem witness_PulseEnds :
    (firing .holding (.holding 65533 100)).resetHeld = false ∧ 100 ≤ max (firing .holding (.holding 65533 100)).now 100
      ∧ (firing .holding (.holding 65533 100)).gates.drivers[(2 : Fin 16)] = .holding 65533 100
      ∧ (firing .pullIn (.pullIn 65533 100 100)).gates.drivers[(2 : Fin 16)] = .pullIn 65533 100 100 := by decide

theorem witness_HailAndListenTimers :
    State.reset.resetHeld = false ∧ State.reset.ctl.hailDue = some (ms 250) ∧ ms 250 ≤ max State.reset.now (ms 250)
      ∧ State.reset.ctl.run = .listen ∧ State.reset.ctl.listenDue = some (ms 600) ∧ ms 600 ≤ max State.reset.now (ms 600)
      ∧ (advance (ms 600) State.reset).work = Work.empty ∧ (advance (ms 600) State.reset).link.queue.length + 1 ≤ 6 := by decide

/-- Six frames held, none of them a HAIL, and with one. -/
theorem witness_HailAndListenTimers_full :
    (fullQueue false).resetHeld = false ∧ (fullQueue false).ctl.hailDue = some (ms 250) ∧ (fullQueue false).work = Work.empty
      ∧ (advance (ms 250) (fullQueue false)).link.tx = none ∧ 6 ≤ (advance (ms 250) (fullQueue false)).link.queue.length
      ∧ (∀ q ∈ (advance (ms 250) (fullQueue false)).link.queue, q.frame ≠ .hail)
      ∧ (∃ q ∈ (advance (ms 250) (fullQueue true)).link.queue, q.frame = .hail) := by decide

/-- A state that admits each group of kinds, and one that turns it away. -/
theorem witness_HailAndListenTimers_admits :
    let muted := (station 1 .run).withCtl { (station 1 .run).ctl with activity := .muted }
    (station 1 .run).admits (verdictOf 4) = true ∧ (station 1 .ready).admits (verdictOf 4) = false ∧ (station 1 .ready).admits .alert = true
      ∧ muted.admits .alert = false ∧ muted.admits (.status []) = true ∧ (station 1 .listen).admits (.status []) = false
      ∧ (station 1 .fault).admits (.status []) = false ∧ (station 1 .fault).admits .hail = true := by decide

/-- Row 0, of the station's own role, heard last at 0 and silent at 1000 ms exactly: an ACTIVE, a STANDBY and a MUTED station; and row 1 of its role still present, at a STANDBY station and at an ACTIVE one that measures. -/
theorem witness_PeerSilence :
    let s := withRow (heardAt 0 3) (station 3 .run)
    let standby := s.withCtl { s.ctl with activity := .standby }
    let other := standby.withPeers (standby.peers.set 1 (heardAt (ms 500) 3))
    let measuring := (other.withCtl s.ctl).withEng (running 3 .unit .fwd).eng
    s.resetHeld = false ∧ (0 : Fin 8) ≠ s.ctl.node ∧ (s.peers[(0 : Fin 8)]).heard = true
      ∧ (s.peers[(0 : Fin 8)]).heardAt + ms 1000 ≤ max s.now (ms 1000) ∧ (s.peers[(0 : Fin 8)]).silenceTaken = false ∧ s.ctl.run ≠ .fault
      ∧ (advance (ms 1000) s).realignBy = none
      ∧ (advance (ms 1000) (withRow { heardAt 0 3 with silenceTaken := true } s)).realignBy = none
      ∧ (advance (ms 1000) (withRow { heardAt 0 3 with silenceTaken := true } other)).lowerQualifies = true
      ∧ (advance (ms 1000) (withRow { heardAt 0 3 with silenceTaken := true } s)).lowerQualifies = false
      ∧ (advance (ms 1000) s).lowerQualifies = false ∧ standby.ctl.activity = .standby ∧ (advance (ms 1000) standby).realignBy = none
      ∧ (advance (ms 1000) other).lowerQualifies = true ∧ (advance (ms 1000) other).realignBy = none
      ∧ measuring.ctl.activity = .active ∧ (advance (ms 1000) measuring).lowerQualifies = true
      ∧ (advance (ms 1000) measuring).realignBy = none ∧ measuring.eng.ctx ≠ none ∧ measuring.work = Work.empty := by decide

/-- The own node, a peer never heard, one tick too early, an expiry already taken; and a station in FAULT. -/
theorem witness_PeerSilence_none :
    let s := withRow (heardAt 0 3) (station 3 .fault)
    (3 : Fin 8) = s.ctl.node ∧ (s.peers[(1 : Fin 8)]).heard = false ∧ max s.now (ms 1000 - 1) < (s.peers[(0 : Fin 8)]).heardAt + ms 1000
      ∧ { heardAt 0 3 with silenceTaken := true }.silenceTaken = true
      ∧ s.resetHeld = false ∧ s.ctl.run = .fault ∧ (0 : Fin 8) ≠ s.ctl.node ∧ (s.peers[(0 : Fin 8)]).heard = true
      ∧ (s.peers[(0 : Fin 8)]).heardAt + ms 1000 ≤ max s.now (ms 1000) ∧ (advance (ms 1000) s).realignBy = none := by decide

/-- A lower row that qualifies; and rows that do not: of another role, in READY, not ACTIVE, in DOUBT, or not of a lower node. -/
theorem witness_PeerSilence_qualifies :
    let own := heardAt 0 3
    (withRow own (station 3 .run)).lowerQualifies = true
      ∧ (∀ row ∈ [heardAt 0 2, { own with state := 2 }, { own with activity := 1 }, { own with ahead := true }],
          (withRow row (station 3 .run)).lowerQualifies = false)
      ∧ ((station 3 .run).withPeers ((station 3 .run).peers.set 5 own)).lowerQualifies = false := by decide

/-- A station that realigns by −1: rows 1 and 2 are one count behind outside the edge window; row 0, which agreed, has fallen silent, or row 2 says so only with the frame. -/
def realigning (row0 row2 : PeerRow) (s : State) : State :=
  let s := s.withPeers (((s.peers.set 0 row0).set 1 { heardAt (ms 900) 1 with offset := some ⟨65535, false⟩ }).set 2 row2)
  s.withLink { s.link with rx := some ⟨ms 950, 4, false⟩ }

/-- Row 2 one count behind. -/
def behind : PeerRow := { heardAt (ms 900) 2 with offset := some ⟨65535, false⟩ }

/-- The head of a frame from station 2 whose count is one behind. -/
def fromTwo : FrameHead := { sender := 2, count := 3, state := 3, activity := 0 }

/-- PEER_SILENCE and FRAME_DISCARD of node 0, and every kind of frame from node 2: each asks for the realign, without a sequence, with one of each kind, and at SORT with a firing whose unit the realign takes past its gate. -/
theorem witness_RealignMovesCount :
    ∀ s ∈ [station 3 .run, running 3 .unit .fwd, running 3 .coarse .fwd, running 3 .check .fwd,
        (sorter.withIdx { sorter.idx with count := 4 }).withGates { sorter.gates with firings := [⟨4, 2, none, .waiting⟩] }],
      (∀ c ∈ [(realigning { heardAt 0 0 with offset := some ⟨0, true⟩ } behind s, Instr.peerSilence (ms 1000) 0),
          (realigning { heardAt 0 0 with offset := some ⟨0, true⟩ } behind s, .frameDiscard (ms 1000) (some 0)),
          (realigning PeerRow.cleared (heardAt (ms 900) 2) s, .statusReceived (ms 1000) fromTwo []),
          (realigning PeerRow.cleared (heardAt (ms 900) 2) s, .alertFrameReceived (ms 1000) fromTwo 0),
          (realigning PeerRow.cleared (heardAt (ms 900) 2) s, .hailReceived (ms 1000) fromTwo ⟨2, 5, 0, 0, 0, 0, 0, 0, 0⟩),
          (realigning PeerRow.cleared (heardAt (ms 900) 2) s, .entryReceived (ms 1000) fromTwo ⟨65533, 1, 0, 2718, none⟩),
          (realigning PeerRow.cleared (heardAt (ms 900) 2) s, .valueReceived (ms 1000) fromTwo ⟨65533, 0, clear, some (pos 551), none, none⟩),
          (realigning PeerRow.cleared (heardAt (ms 900) 2) s, .verdictReceived (ms 1000) fromTwo ⟨65533, 12, 0, none⟩),
          (realigning PeerRow.cleared (heardAt (ms 900) 2) s, .erase (ms 1000) { console with frame := fromTwo } 0)],
        c.1.resetHeld = false ∧ c.1.ctl.run ≠ .fault ∧ (rowChanged c.2 c.1).bind State.realignBy = some 65535) := by decide

/-- The realign test holds for two rows one count behind, beside a row whose agreeing offset comes with its ahead mark, and not for: one row, a second value held twice, an agreeing row, REALIGN_ENABLE off. -/
theorem witness_RealignMovesCount_test :
    let far : PeerRow := { heardAt (ms 900) 0 with offset := some ⟨7, false⟩ }
    let agrees : PeerRow := { heardAt (ms 900) 0 with offset := some ⟨0, true⟩ }
    let s := (realigning PeerRow.cleared behind (station 3 .run)).withNow (ms 1000)
    s.realignBy = some 65535 ∧ (withRow { agrees with ahead := true } s).realignBy = some 65535
      ∧ (realigning PeerRow.cleared PeerRow.cleared s).realignBy = none ∧ ((withRow far s).withPeers ((withRow far s).peers.set 5 far)).realignBy = none
      ∧ (withRow agrees s).realignBy = none
      ∧ (s.withCtl { s.ctl with items := { s.ctl.items with realignEnable := false } }).realignBy = none := by decide

/-- A PEER_SILENCE that realigns with a frame in reception; with the own header on the line; and with one that the entry to STANDBY takes off the line. -/
theorem witness_RealignMovesCount_captured :
    let s := realigning { heardAt 0 0 with offset := some ⟨0, true⟩ } behind (station 3 .run)
    let own := (s.withNow (ms 1000)).withLink
      { s.link with
        rx := none, queue := [⟨verdictOf 4, 0⟩]
        tx := some { won := false, mark := ⟨ms 1000, 4, false⟩, frame := verdictOf 4, cells := [] } }
    let stands := own.withPeers (own.peers.set 1 (heardAt (ms 900) 3)) |>.withPeers ((own.peers.set 1 (heardAt (ms 900) 3)).set 5 behind)
    (after (.peerSilence (ms 1000) 0) s).link.rx = some ⟨ms 950, 3, false⟩ ∧ s.link.tx = none
      ∧ ((after (.peerSilence (ms 1000) 0) own).link.tx.map Tx.mark = some ⟨ms 1000, 3, false⟩)
      ∧ (after (.peerSilence (ms 1000) 0) stands).link.tx = none
      ∧ (after (.peerSilence (ms 1000) 0) stands).link.rx = some ⟨ms 1000, 3, false⟩ := by decide

/-- The tables that the tests leave at a realign by −1: without a sequence; with one of each kind, whose entry is held or not; and at a station that the standby test takes to STANDBY before it, or only after it. -/
theorem witness_RealignMovesCount_table :
    let tests (s : State) : State := peerTests ((realigning PeerRow.cleared behind s).withNow (ms 1000))
    let bare (kind : WorkKind) : State := (running 1 kind .fwd).withTable { entries := [], lastRemoved := none }
    let q := (realigning (heardAt (ms 900) 2) behind (running 2 .unit .fwd)).withNow (ms 1000)
    let z := (realigning PeerRow.cleared behind (running 2 .unit .fwd)).withNow (ms 1000)
    (tests (station 3 .run)).table.entries = [{ unit with doubt := true }]
      ∧ ((tests (running 1 .unit .fwd)).entryOf 65533).map (fun e => (e.doubt, e.ownStage, e.cold.map (·.quality))) = some (true, .done, some .doubt)
      ∧ ((tests (bare .unit)).entryOf 65533).map (fun e => (e.doubt, e.ownStage)) = some (false, .done)
      ∧ (tests (running 1 .coarse .fwd)).entryOf 65533 = some { unit with doubt := true, ownStage := .done }
      ∧ ((tests (bare .coarse)).entryOf 65533).map (fun e => (e.cls, e.doubt)) = some (some .contact, false)
      ∧ (tests (running 1 .check .fwd)).entryOf 65533 = some { unit with doubt := true, ownStage := .done } ∧ (tests (bare .check)).table.entries = []
      ∧ q.lowerQualifies = true ∧ q.realignBy = some 65535 ∧ (peerTests q).ctl.activity = .standby ∧ (peerTests q).table.entries = [{ unit with doubt := true }]
      ∧ z.lowerQualifies = false ∧ z.realignBy = some 65535 ∧ (peerTests z).ctl.activity = .standby
      ∧ ((peerTests z).entryOf 65533).map (fun e => (e.doubt, e.ownStage)) = some (true, .done) := by decide

/-- A realign by −4 that carries a unit from position 1 to an ahead position drops its firing (log entry 45). -/
theorem test_ahead_firing_dropped :
    let s := (sorter.withIdx { sorter.idx with count := 4 }).withGates { sorter.gates with firings := [⟨3, 2, none, .waiting⟩] }
    s.passedGate ⟨3, 2, none, .waiting⟩ = false ∧ (realign 65532 s).gates.firings = [] := by decide

/-- The record of the sequence: no lower-numbered row of the own role, and room; the firing that is dropped: gate 3 at 13, the unit at 65535 after the realign. -/
theorem witness_RealignMovesCount_record :
    let s := realigning PeerRow.cleared (heardAt (ms 900) 2) (running 3 .unit .fwd)
    (∀ b, rowChanged (.statusReceived (ms 1000) fromTwo []) s = some b → ∀ m : Fin 8, m.val < 3 → (b.peers[m]).role ≠ some 3)
      ∧ (s.ctl.activity = .active ∧ s.ctl.run = .run) ∧ s.work = Work.empty ∧ (advance (ms 1000) s).link.queue.length + 1 ≤ 6
      ∧ sorter.ctl.items.gatePos[(2 : Fin 16)] < (4 + 65535 - 4 : BitVec 16).toNat := by
  refine ⟨fun b hb => ?_, by decide, by decide, by decide, by decide⟩
  cases hb; decide

/-- A line state. -/
def onLine (l : Link) : State := (station 3 .run).withLink l

/-- A queue of one HAIL, with a deferral and a last sender. -/
def quiet (d : Deferral) (sender : Option (BitVec 4)) : Link :=
  { queue := [{ frame := .hail, waiting := 0 }], tx := none, rx := none, lineIdle := false, quietSince := 0, deferral := d, lastSender := sender }

/-- One tick before the idle moment and at it; a wait of 15 cell times, one of none, no deferral; and a reception that stopped short. -/
theorem witness_LineIdle :
    let s := onLine (quiet .deferring (some 4))
    s.resetHeld = false ∧ s.link.tx = none ∧ max s.now 119 < s.link.quietSince + us 12 ∧ s.link.quietSince + us 12 ≤ max s.now 120
      ∧ s.link.rx = none ∧ s.link.deferral = .deferring ∧ s.link.lastSender = some 4
      ∧ BitVec.ofNat 4 s.ctl.node.val - 4 = (15 : BitVec 4)
      ∧ BitVec.ofNat 4 (onLine (quiet .deferring (some 3))).ctl.node.val - 3 = (0 : BitVec 4) ∧ (onLine (quiet .no none)).link.deferral = .no
      ∧ (onLine (quiet .no none)).link.queue ≠ [] ∧ (onLine { quiet .deferring none with rx := some mark }).link.rx ≠ none
      ∧ BitVec.ofNat 4 s.ctl.node.val ≠ (0 : BitVec 4) := by decide

/-- A HAIL and an ALERT at the head of the queue, by the layouts of R144, R155 and R185: node 3, count 4, RUN, ACTIVE; role THERMAL, position 8, cause power-up, current page 1, page 1 in use with digest 2718; the flag CONSOLE_ERROR and positions 26 to 32. -/
theorem test_hail_and_alert_sent :
    let s := onLine (quiet .no none)
    (s.cellsOf .hail).dropLast = [0x536, 0x000, 0x430, 0x681, 0x002, 0x000, 0xA9E, 0x000, 0x000]
      ∧ ((raise .consoleError s).cellsOf .alert).dropLast = [0x433, 0x000, 0x430, 0x080, 0x000, 0x7F0] := by decide

/-- The frame that a LINE_IDLE and a DEFERRAL_WAIT_EXPIRY start is the head of the queue as the station then stands. -/
theorem witness_LineIdle_starts :
    let s := onLine (quiet .no none)
    let w := onLine { quiet (.waiting 100) none with lineIdle := true }
    (after (.lineIdle 120) s).link.tx.map Tx.cells = some (s.cellsOf .hail) ∧ (after (.lineIdle 120) s).link.tx.map Tx.frame = some .hail
      ∧ (after (.deferralWaitExpiry 120) w).link.tx.map Tx.cells = some (s.cellsOf .hail) := by decide

/-- The own HAIL on the line from instant 0, its claim open or won, on ten cells. -/
def sending (won : Bool) (st : StationState) : State :=
  (station 3 st).withLink
    { quiet .no none with
      tx := some { won := won, mark := ⟨0, 4, true⟩, frame := .hail, cells := List.replicate 10 0 } }

/-- A wait that ends; a start mark on an idle line with a wait to interrupt, without one, and on a line that is not idle; an own frame at its end and one tick before it. -/
theorem witness_LineEvents :
    let s := onLine { quiet (.waiting 100) none with lineIdle := true }
    s.resetHeld = false ∧ s.link.tx = none ∧ s.link.rx = none ∧ s.link.lineIdle = true ∧ s.link.deferral = .waiting 100 ∧ 100 ≤ max s.now 100
      ∧ s.link.queue ≠ [] ∧ (onLine { quiet .no none with lineIdle := true }).link.deferral = .no ∧ (onLine (quiet .no none)).link.lineIdle = false
      ∧ (sending true .run).link.tx = some { won := true, mark := ⟨0, 4, true⟩, frame := .hail, cells := List.replicate 10 0 }
      ∧ 0 + us 6 * (List.replicate 10 (0 : Cell)).length ≤ max (sending true .run).now 600
      ∧ max (sending true .run).now 599 < 0 + us 6 * (List.replicate 10 (0 : Cell)).length := by decide

/-- The own HAIL of ten cells on the line: its first cell to the last tick of its cell time, its second from then on, its tenth, and none at its end. -/
theorem witness_LineEvents_out :
    let s := (sending true .run).withLink
      { (sending true .run).link with tx := some { won := true, mark := ⟨0, 4, true⟩, frame := .hail, cells := 279 :: List.replicate 8 0 ++ [5] } }
    s.resetHeld = false ∧ s.lineOut.map List.length = some 10 ∧ (s.withNow 59).cellOut = some (lineCell 279)
      ∧ (s.withNow 60).cellOut = some (lineCell 0) ∧ (s.withNow 599).cellOut = some (lineCell 5) ∧ (s.withNow 600).cellOut = none
      ∧ (station 3 .run).lineOut = none := by decide

/-- A claim at the end of its header cell, and one tick before it; the own frame complete though its claim is won by that very command. -/
theorem witness_LineEvents_win :
    let s := sending false .run
    s.resetHeld = false ∧ s.link.tx = some { won := false, mark := ⟨0, 4, true⟩, frame := .hail, cells := List.replicate 10 0 }
      ∧ 0 + us 6 ≤ max s.now 60 ∧ max s.now 59 < 0 + us 6 ∧ 0 + us 6 * (List.replicate 10 (0 : Cell)).length ≤ max s.now 600
      ∧ (station 3 .run).link.tx = none := by decide

/-- The last tick of the header cell; and each state in which a frame past its header collides. -/
theorem witness_ClaimLostAndCollision :
    (sending false .run).resetHeld = false
      ∧ (sending false .run).link.tx = some { won := false, mark := ⟨0, 4, true⟩, frame := .hail, cells := List.replicate 10 0 }
      ∧ max (sending false .run).now 59 < 0 + us 6
      ∧ (sending true .config).link.tx = some { won := true, mark := ⟨0, 4, true⟩, frame := .hail, cells := List.replicate 10 0 }
      ∧ (sending true .listen).ctl.run = .listen ∧ (sending true .fault).ctl.run = .fault
      ∧ (sending false .config).link.tx = some { won := false, mark := ⟨0, 4, true⟩, frame := .hail, cells := List.replicate 10 0 }
      ∧ 0 + us 6 ≤ max (sending false .config).now 60 ∧ (station 3 .run).link.tx = none := by decide

/-- A header without a readable sender, the own node, a console node; a discard that takes row 0 from score 7 to 8; one that ends the standing of row 0 before a STANDBY station of its role; and no frame in reception. -/
theorem witness_FrameDiscard :
    let s := withRow { heardAt 0 0 with errorScore := 7 } (station 3 .run)
    let b := endFrame (some (BitVec.ofNat 4 (0 : Fin 8).val)) (advance 5 s)
    let a := b.withPeers (s.peers.set 0 { heardAt 0 0 with errorScore := 8, distrusted := true })
    s.resetHeld = false ∧ (∀ m : BitVec 4, none = some m → m = BitVec.ofNat 4 s.ctl.node.val ∨ 8 ≤ m.toNat)
      ∧ (∀ m : BitVec 4, some (3 : BitVec 4) = some m → m = BitVec.ofNat 4 s.ctl.node.val ∨ 8 ≤ m.toNat)
      ∧ (∀ m : BitVec 4, some (8 : BitVec 4) = some m → m = BitVec.ofNat 4 s.ctl.node.val ∨ 8 ≤ m.toNat) ∧ (0 : Fin 8) ≠ s.ctl.node
      ∧ s.link.rx.isSome = true ∧ a.realignBy = none ∧ State.reset.link.rx = none
      ∧ (let standby := (withRow { heardAt 0 3 with errorScore := 7 } s).withCtl { s.ctl with activity := .standby }
        let b := (endFrame (some 0) (advance 5 standby)).withPeers (standby.peers.set 0 { heardAt 0 3 with errorScore := 8, distrusted := true })
        standby.lowerQualifies = true ∧ b.lowerQualifies = false ∧ b.realignBy = none) := by decide

/-- A frame that leaves the activity as it is; one that brings a STANDBY station to take over, and one that sends an ACTIVE station to STANDBY. -/
theorem witness_StationFrameHeard :
    let s := withRow (heardAt 0 0) (station 3 .run)
    let row := heardRow 5 fromZero none mark s.peers[(0 : Fin 8)]
    let a := (endFrame (some 0) (advance 5 s)).withPeers (s.peers.set 0 row)
    let hail := a.withPeers (s.peers.set 0 { row with role := some 4, position := 12 })
    let lower := a.withPeers (s.peers.set 0 { row with role := some 3 })
    let gone := (a.withPeers (s.peers.set 0 { row with role := some 3, state := 2 })).withCtl { s.ctl with activity := .standby }
    s.resetHeld = false ∧ s.link.rx = some mark ∧ fromZero.sender = BitVec.ofNat 4 (0 : Fin 8).val ∧ (0 : Fin 8) ≠ s.ctl.node
      ∧ a.realignBy = none ∧ hail.realignBy = none ∧ (lower.ctl.activity = .active ∧ lower.lowerQualifies = true ∧ lower.realignBy = none)
      ∧ (gone.ctl.activity = .standby ∧ gone.lowerQualifies = false ∧ gone.realignBy = none) := by decide

/-- PROBE at node 0; a table without the tag, with an entry that has no class, and with one that has. -/
theorem witness_EntryReceived :
    let s := withRow (heardAt 0 0) (station 3 .run)
    let a := heardState 5 0 fromZero mark s
    let blank := heardState 5 0 fromZero mark (holding (Entry.blank 65533 .none) s)
    s.resetHeld = false ∧ s.link.rx = some mark ∧ fromZero.sender = BitVec.ofNat 4 (0 : Fin 8).val ∧ (0 : Fin 8) ≠ s.ctl.node ∧ (0 : BitVec 3) = EntryClass.present.code
      ∧ (s.peers[(0 : Fin 8)]).role = some 0 ∧ a.activeSource 0 = some 0 ∧ s.ctl.run ≠ .fault
      ∧ a.classify 65532 = .inRange ∧ a.entryOf 65532 = none ∧ a.classify 65533 = .inRange
      ∧ blank.activeSource 0 = some 0 ∧ (blank.entryOf 65533).map (·.cls) = some none
      ∧ (a.entryOf 65533).map (·.cls) = some (some .present) := by decide

/-- A record that is discarded: in FAULT, from a sender of another role, from one in CONFIG (no active source), of class 5. -/
theorem witness_EntryReceived_discards :
    let s := withRow (heardAt 0 2) (station 3 .run)
    let idle := heardState 5 0 { fromZero with state := 1 } mark (withRow (heardAt 0 0) (station 3 .run))
    (station 3 .fault).ctl.run = .fault ∧ (station 3 .fault).link.rx = some mark ∧ (s.peers[(0 : Fin 8)]).role ≠ some 0
      ∧ idle.activeSource 0 ≠ some 0 ∧ 5 ≤ (5 : BitVec 3).toNat := by decide

/-- A VALUE of each measuring role at node 0, for a tag that is held and one that is not. -/
theorem witness_ValueReceived :
    ∀ r ∈ [Role.precise, Role.retest, Role.thermal],
    let s := withRow (heardAt 0 r.code) (station 4 .run)
    let a := heardState 5 0 fromZero mark s
    s.resetHeld = false ∧ s.link.rx = some mark ∧ (s.peers[(0 : Fin 8)]).role = some r.code ∧ a.activeSource r.code = some 0
      ∧ s.ctl.run ≠ .fault ∧ a.classify 65533 = .inRange ∧ (a.entryOf 65533).isSome = true ∧ a.classify 65532 = .inRange
      ∧ a.entryOf 65532 = none ∧ (0 : BitVec 4) = Quality.good.code ∧ ((some (pos 551)).isSome = true ↔ Quality.good = .good) := by decide

/-- A VALUE that is discarded: quality 9, a sender whose role is unknown, PROBE, SORT or no active source, and a deviation that does not fit. -/
theorem witness_ValueReceived_discards :
    let s := withRow (heardAt 0 1) (station 4 .run)
    let idle := heardState 5 0 { fromZero with state := 1 } mark s
    9 ≤ (9 : BitVec 4).toNat ∧ ((station 4 .run).peers[(0 : Fin 8)]).role = none ∧ (0 : BitVec 3).toNat = 0 ∧ 4 ≤ (4 : BitVec 3).toNat
      ∧ idle.activeSource 1 ≠ some 0 ∧ (heardState 5 0 fromZero mark s).classify 65533 = .inRange
      ∧ ¬((none : Option Dev).isSome = true ↔ (0 : BitVec 4) = 0) ∧ ¬((some (pos 1)).isSome = true ↔ (1 : BitVec 4) = 0) := by decide

/-- Tags one beyond the retire limit and one ahead, from SORT, PROBE and PRECISE at node 0. -/
theorem witness_VerdictLateAndAhead :
    ∀ r ∈ [Role.sort, Role.probe, Role.precise],
    let s := withRow (heardAt 0 r.code) (station (if r = .sort then 3 else 4) .run)
    let a := heardState 5 0 fromZero mark s
    s.resetHeld = false ∧ s.link.rx = some mark ∧ s.ctl.run ≠ .fault ∧ (s.peers[(0 : Fin 8)]).role = some r.code ∧ a.activeSource r.code = some 0 ∧ a.classify 65531 = .late
      ∧ a.classify 5 = .ahead ∧ a.classify 65533 ≠ .ahead ∧ s.idx.retireLimit.isSome = true
      ∧ (r ≠ .sort → roleOfCode s.ctl.role = some .sort) ∧ (12 : BitVec 4) ≠ 0 ∧ (12 : BitVec 4) ≠ 15 := by decide

/-- A late record on a station that is not SORT, and a VERDICT from a sender that is not SORT, from no active source, and in FAULT. -/
theorem witness_VerdictLateAndAhead_none :
    let s := withRow (heardAt 0 1) (station 3 .run)
    let a := heardState 5 0 fromZero mark s
    let idle := heardState 5 0 { fromZero with state := 1 } mark (withRow (heardAt 0 4) (station 3 .run))
    s.resetHeld = false ∧ s.link.rx = some mark ∧ s.ctl.run ≠ .fault ∧ roleOfCode s.ctl.role ≠ some .sort ∧ a.classify 65531 = .late
      ∧ a.activeSource 1 = some 0 ∧ (s.peers[(0 : Fin 8)]).role ≠ some 4 ∧ idle.activeSource 4 ≠ some 0 ∧ (station 3 .fault).ctl.run = .fault := by
  decide

theorem witness_OwnNodeFrame :
    (Instr.run 5 { console with frame := { fromZero with sender := 3 } }).frameHead = some { fromZero with sender := 3 }
      ∧ (Instr.statusReceived 5 { fromZero with sender := 3 } []).frameHead = some { fromZero with sender := 3 }
      ∧ (3 : BitVec 4) = BitVec.ofNat 4 (station 3 .run).ctl.node.val ∧ (station 3 .run).resetHeld = false
      ∧ (∀ st ∈ [StationState.listen, .config, .run, .fault], (station 3 st).link.rx.isSome = true)
      ∧ (station 3 .config).ctl.run ≠ .listen ∧ (station 3 .fault).ctl.run = .fault ∧ (station 3 .listen).ctl.run = .listen := by decide

/-- A console frame to station 4, a station kind from node 9, a console kind from node 0, and a line without a reception. -/
theorem witness_UnaddressedConsole :
    let s := withRow (heardAt 0 0) (station 3 .run)
    let b := endFrame (some 0) (advance 5 s)
    (Instr.erase 5 { console with target := 4 } 0).consoleHead = some { console with target := 4 } ∧ 8 ≤ console.frame.sender.toNat
      ∧ (4 : BitVec 4) ≠ BitVec.ofNat 4 s.ctl.node.val ∧ (4 : BitVec 4) ≠ 15 ∧ s.resetHeld = false ∧ s.link.rx = some mark
      ∧ (Instr.statusReceived 5 console.frame []).frameHead = some console.frame ∧ (Instr.statusReceived 5 console.frame []).consoleHead = none
      ∧ (Instr.erase 5 { console with frame := fromZero } 0).consoleHead = some { console with frame := fromZero }
      ∧ fromZero.sender = BitVec.ofNat 4 (0 : Fin 8).val ∧ (0 : Fin 8) ≠ s.ctl.node
      ∧ (b.withPeers (s.peers.set 0 (heardRow (max s.now 5) fromZero none mark s.peers[(0 : Fin 8)]))).realignBy = none
      ∧ State.reset.link.rx = none ∧ State.reset.resetHeld = false := by decide

/-- The active source of PROBE, before and after its row leaves ACTIVE; and a tag at each bound of the ranges at retire limit 8: 0, 8, 9, 32767 and 32768. -/
theorem witness_EntryReceived_source :
    (withRow (heardAt 0 0) (station 3 .run)).activeSource 0 = some 0 ∧ (withRow { heardAt 0 0 with activity := 1 } (station 3 .run)).activeSource 0 = none
      ∧ (station 3 .run).classify 4 = .inRange ∧ (station 3 .run).classify 65532 = .inRange ∧ (station 3 .run).classify 65531 = .late
      ∧ (station 3 .run).classify (4 - 32767) = .late ∧ (station 3 .run).classify (4 - 32768) = .ahead := by decide

/-- A console frame in reception, to the station, and one to all. -/
theorem witness_addressed :
    (station 3 .run).link.rx.isSome = true ∧ (station 3 .run).addressed console = true ∧ (station 3 .run).addressed { console with target := 15 } = true
      ∧ (station 3 .run).resetHeld = false := by decide

/-- Each state of R177, with a LOCKED page and without one; RUN with and without the drain mark; each group of roles. -/
theorem witness_RunHaltDrain :
    (∀ st ∈ [StationState.listen, .config, .ready, .run, .halt, .fault], (station 3 st).ctl.run = st ∧ (station 3 st).addressed console = true ∧ (station 3 st).link.rx.isSome = true)
      ∧ ((station 3 .ready).pages[(1 : Fin 4)]).state = .locked
      ∧ (∀ p : Fin 4, (((station 3 .ready).withPages (Vector.replicate 4 Page.cleared)).pages[p]).state ≠ .locked)
      ∧ { (station 3 .run).ctl with drain := true }.drain = true ∧ (station 3 .run).ctl.drain = false
      ∧ roleOfCode (station 0 .run).ctl.role = some .probe ∧ roleOfCode (station 2 .run).ctl.role = some .retest := by decide

theorem witness_SetupItems :
    plainSetupItem 0 = true ∧ plainSetupItem 2 = true ∧ plainSetupItem 18 = true ∧ plainSetupItem 35 = true ∧ plainSetupItem 39 = true
      ∧ plainSetupItem 40 = true ∧ plainSetupItem 254 = true ∧ roleOfCode (station 4 .config).ctl.role = some .sort
      ∧ roleOfCode (station 3 .config).ctl.role ≠ some .sort ∧ (station 4 .config).ctl.run = .config
      ∧ (∀ st ∈ [StationState.listen, .ready, .run, .halt, .fault], (station 4 st).ctl.run = st ∧ (station 4 st).link.rx.isSome = true)
      ∧ (station 4 .config).addressed console = true := by decide

/-- A SORT station whose configuration is valid, and one whose is not. -/
theorem witness_SetupLimitsAndDone :
    let s := sorter.withCtl { sorter.ctl with run := .config }
    s.resetHeld = false ∧ s.addressed console = true ∧ s.ctl.run = .config ∧ s.ctl.items.position = some 12
      ∧ s.ctl.items.gatePos[(2 : Fin 16)] ≠ 0 ∧ (∀ g : Fin 16, s.ctl.items.gatePos[g] ≠ 0 → 12 < s.ctl.items.gatePos[g])
      ∧ s.ctl.items.fallbackGate ≠ none ∧ (station 4 .config).ctl.items.fallbackGate = none ∧ s.link.rx.isSome = true
      ∧ (pos 0).mag = 0 ∧ ((pos 31).mag ≠ 0 ∧ (pos 31).neg = false) ∧ ((minus 1).mag ≠ 0 ∧ (minus 1).neg = true) := by decide

/-- The states that refuse and that ignore; a station that is not SORT; POSITION absent; no gate installed, and one not beyond the position. -/
theorem witness_SetupLimitsAndDone_states :
    (∀ st ∈ [StationState.listen, .ready, .run, .halt, .fault],
      (station 4 st).ctl.run = st ∧ (station 4 st).link.rx.isSome = true ∧ (station 4 st).addressed console = true)
      ∧ roleOfCode (station 3 .config).ctl.role ≠ some .sort ∧ (station 3 .config).ctl.items.position = some 8
      ∧ ((station 4 .config).withCtl { (station 4 .config).ctl with items := Items.cleared }).ctl.items.position = none
      ∧ (∀ g : Fin 16, (station 4 .config).ctl.items.gatePos[g] = 0) ∧ ¬(15 < sorter.ctl.items.gatePos[(2 : Fin 16)]) := by decide

theorem witness_LoadPage :
    let s := station 3 .ready
    (∀ st ∈ [StationState.listen, .fault], (station 4 st).ctl.run = st ∧ (station 4 st).link.rx.isSome = true) ∧ s.link.rx.isSome = true
      ∧ s.resetHeld = false ∧ s.addressed console = true ∧ s.ctl.run ≠ .listen ∧ s.ctl.run ≠ .fault ∧ 4 ≤ (4 : BitVec 4).toNat
      ∧ (1 : BitVec 4).toNat = (1 : Fin 4).val ∧ (s.pages[(1 : Fin 4)]).state = .locked ∧ (3 : BitVec 4).toNat = (3 : Fin 4).val
      ∧ (s.pages[(3 : Fin 4)]).state ≠ .locked ∧ 13 ≤ (13 : BitVec 12).toNat ∧ (16 : BitVec 12).toNat = (15 : Fin 16).val + 1
      ∧ 17 ≤ (17 : BitVec 12).toNat ∧ (some (pos 1)).isSome ≠ (none : Option Dev).isSome
      ∧ some (pos 1) = (some (pos 1, pos 2)).map Prod.fst ∧ some (pos 2) = (some (pos 1, pos 2)).map Prod.snd := by decide

/-- A bin between two others, one replaced, and one behind the last: bins 1 to 3 of page 1 stand in index order. -/
theorem witness_LoadPage_bins :
    let new (b : Fin 16) : Bin := ⟨b, pos 1, pos 2, none, 0, 0⟩
    page1.bins.Pairwise (fun x y => x.index < y.index) ∧ (insertBin (new 1) page1.bins).map (fun b => (b.index, b.upper)) = [(0, minus 0), (1, pos 2), (2, pos 1000)]
      ∧ (insertBin (new 7) page1.bins).map (·.index) = [0, 1, 2, 7]
      ∧ (insertBin (new 1) (page1.bins.filter (fun x => x.index ≠ 1))).map (·.index) = [0, 1, 2] := by decide

/-- A page EMPTY, LOADING with and without the expected digest, LOCKED; a page in use and not. -/
theorem witness_LockAndErase :
    let s := station 4 .ready
    let loading := s.withPages (s.pages.set 2 { page1 with state := .loading, digest := 0 })
    (∀ st ∈ [StationState.listen, .fault], (station 4 st).ctl.run = st ∧ (station 4 st).link.rx.isSome = true) ∧ s.link.rx.isSome = true
      ∧ s.resetHeld = false ∧ s.addressed console = true ∧ s.ctl.run ≠ .listen ∧ s.ctl.run ≠ .fault ∧ (s.pages[(0 : Fin 4)]).state = .empty
      ∧ (loading.pages[(2 : Fin 4)]).state = .loading ∧ pageDigest 2 loading.pages[(2 : Fin 4)] ≠ 2718
      ∧ pageDigest 1 s.pages[(1 : Fin 4)] = 2718 ∧ 4 ≤ (4 : BitVec 4).toNat ∧ (s.pages[(1 : Fin 4)]).state = .locked ∧ s.pageInUse 1 = true ∧ s.pageInUse 0 = false
      ∧ roleOfCode s.ctl.role = some .sort ∧ roleOfCode (station 3 .ready).ctl.role ≠ some .sort := by decide

/-- A page that a firing and that the context refers to; on a SORT station, an ERASE that leaves a full bin on another page and one that leaves none. -/
theorem witness_LockAndErase_use :
    let s := station 4 .ready
    let full := setBinTally 1 0 1200 s
    (⟨65533, 2, some 1, .holding⟩ : Firing) ∈ (firing .holding (.holding 65533 100)).gates.firings
      ∧ (running 3 .unit .fwd).eng.ctx = some (context .unit .fwd) ∧ (context .unit .fwd).stamp.page = 1
      ∧ (∀ e ∈ full.table.entries, ∀ st, e.stamp = some st → st.page ≠ 2) ∧ full.gates.firings = [] ∧ full.eng.ctx = none
      ∧ (after (.erase 5 console 2) full).pages[(1 : Fin 4)] = page1 ∧ (after (.erase 5 console 2) full).binTally 1 0 = 1200
      ∧ (after (.erase 5 console 2) s).binTally 1 0 = 0 := by
  refine ⟨by decide, rfl, rfl, ?_, rfl, rfl, by decide, by decide, by decide⟩
  intro e he st hst
  cases List.mem_singleton.mp he; cases hst; decide

theorem witness_ClearAndMask :
    (station 4 .halt).link.rx.isSome = true ∧ (station 4 .halt).resetHeld = false ∧ (station 4 .halt).addressed console = true ∧ (station 4 .halt).ctl.run ≠ .listen
      ∧ (station 4 .listen).ctl.run = .listen ∧ (station 4 .listen).addressed console = true ∧ 4 ≤ (4 : BitVec 4).toNat
      ∧ 17 ≤ (17 : BitVec 8).toNat ∧ (3 : BitVec 4).toNat = (3 : Fin 4).val ∧ (16 : BitVec 8).toNat = (15 : Fin 16).val + 1 := by decide

/-- With BROADCAST_ALERTS on and the mask bit of CONSOLE_ERROR, position 5, a refusal queues one ALERT: beside none, and beside none in a queue of six, where TXQ_OVERFLOW is set; and not: with the mask bit off, with the flag set already, beside one that waits, at a MUTED station. -/
theorem witness_ClearAndMask_alert :
    let s := station 4 .halt
    let on := (s.withCtl { s.ctl with items := { s.ctl.items with broadcastAlerts := true } }).withAlerts { s.alerts with mask := 0x08000000 }
    let c : Instr := .clearAlertFlags 5 console (.undefinedForm 0)
    let queued (s : State) := (after c s).link.queue
    let full := on.withLink { on.link with queue := List.replicate 6 ⟨verdictOf 4, 0⟩ }
    (after c on).alerts.word = 0x08000000 ∧ queued on = [⟨.alert, 0⟩] ∧ on.work = Work.empty ∧ on.ctl.drain = false
      ∧ queued full = full.link.queue ∧ flagIn (after c full).alerts.word .txqOverflow = true
      ∧ queued (on.withAlerts { on.alerts with mask := 0x10000000 }) = [] ∧ queued (raise .consoleError s) = []
      ∧ queued (on.withLink { on.link with queue := [⟨.alert, 0⟩] }) = [⟨.alert, 0⟩]
      ∧ queued (on.withCtl { on.ctl with activity := .muted }) = [] := by decide

/-- A BIN CLEAR that leaves another bin full. -/
theorem witness_ClearAndMask_full :
    let u := after (.binClear 5 console 1 2) (setBinTally 1 0 1200 (station 4 .halt))
    (u.pages[(1 : Fin 4)]).bins.head? = some ⟨0, minus 500, minus 0, none, 3, 1200⟩ ∧ u.binTally 1 0 = 1200 := by decide

/-- Each level condition in a state where it stands, and in `station 4 .halt`, where none does: row 0 silent at 1000 ms, distrusted, ahead, and with an offset of −1 outside the edge window; k +7 over DRIFT_LIMIT 6; a staleness count of 256; a full bin. -/
theorem witness_ClearAndMask_levels :
    let s := station 4 .halt
    let slot (d : DriftSlot) := (s.withDrift (s.drift.set 2 d)).withEng { s.eng with recentPage := 1 }
    let limited := slot { baseline := some (pos 0), ring := [pos 3, pos 5, pos 8, pos 11], staleness := 0 }
    (∀ f ∈ [AlertFlag.peerSilent, .peerDistrusted, .indexDoubt, .driftLimit, .driftStale, .binFull, .overload], s.levelStands f = false)
      ∧ ((heardAt 0 0).heardAt + ms 1000 ≤ max s.now (ms 1000) ∧ (heardAt 0 0).heard = true)
      ∧ (consoleState (ms 1000) console (withRow (heardAt 0 0) s)).levelStands .peerSilent = true
      ∧ (consoleState (ms 1000 - 1) console (withRow (heardAt 0 0) s)).levelStands .peerSilent = false
      ∧ (withRow { heardAt 0 0 with distrusted := true } s).levelStands .peerDistrusted = true
      ∧ (withRow { heardAt 0 0 with ahead := true } s).levelStands .indexDoubt = true
      ∧ (withRow { heardAt 0 0 with offset := some ⟨65535, false⟩ } s).levelStands .indexDoubt = true
      ∧ (limited.withCtl { s.ctl with items := { s.ctl.items with driftLimit := 6 } }).levelStands .driftLimit = true
      ∧ (limited.withCtl { s.ctl with items := { s.ctl.items with driftLimit := 7 } }).levelStands .driftLimit = false
      ∧ roundedDev (([pos 3, pos 5, pos 8, pos 11].map Dev.toInt).sum) 4 = pos 7
      ∧ (slot { baseline := none, ring := [], staleness := 256 }).levelStands .driftStale = true
      ∧ (setBinTally 1 0 1200 s).levelStands .binFull = true := by decide

theorem witness_MuteAndUnmute :
    let s := firing .holding (.holding 65533 100)
    s.link.rx.isSome = true ∧ s.resetHeld = false ∧ s.addressed console = true ∧ s.ctl.run ≠ .listen ∧ s.ctl.run ≠ .fault ∧ s.ctl.activity ≠ .muted
      ∧ roleOfCode s.ctl.role = some .sort ∧ s.gates.firings ≠ [] ∧ s.work = Work.empty ∧ (running 1 .unit .fwd).eng.ctx ≠ none
      ∧ (consoleState 5 console s).link.queue.length + 1 ≤ 6 ∧ (consoleState 5 console s).work = Work.empty ∧ s.eng.ctx = none
      ∧ (running 1 .unit .fwd).ctl.activity ≠ .muted ∧ roleOfCode (running 1 .unit .fwd).ctl.role ≠ some .sort
      ∧ (setActivity .muted s).ctl.activity = .muted ∧ (setActivity .muted s).addressed console = true
      ∧ (station 3 .fault).ctl.run = .fault := by decide

/-- A drain that the mute of a station completes, and one that an entry still awaits. -/
theorem witness_MuteAndUnmute_drain :
    let s := (station 3 .run).withCtl { (station 3 .run).ctl with drain := true }
    let done := s.withTable { entries := [], lastRemoved := none }
    s.ctl.drain = true ∧ s.ctl.run = .run ∧ (consoleState 5 console s).awaits unit = true ∧ (after (.mute 5 console) s).ctl.run = .run
      ∧ (after (.mute 5 console) s).table.entries = [unit] ∧ (after (.mute 5 console) done).table.entries = []
      ∧ (after (.mute 5 console) done).ctl.run = .halt ∧ (after (.mute 5 console) done).ctl.drain = false := by decide

theorem witness_Restart :
    ∀ st ∈ [StationState.listen, .config, .ready, .run, .halt, .fault],
      (station 3 st).resetHeld = false ∧ (station 3 st).link.rx.isSome = true ∧ (station 3 st).addressed console = true
        ∧ (station 3 st).ctl.run = st ∧ (station 3 st).work = Work.empty := by decide

/-- A claim in its header cell and one that is won, with a frame behind it; and an activity other than ACTIVE in READY. -/
theorem witness_Restart_line :
    let during (won : Bool) := (sending won .ready).withLink { (sending won .ready).link with rx := some mark }
    (∀ won ∈ [false, true],
      (during won).resetHeld = false ∧ (during won).link.rx.isSome = true ∧ (during won).addressed console = true
        ∧ (consoleState 5 console (during won)).link.tx = some { won := won, mark := ⟨0, 4, true⟩, frame := .hail, cells := List.replicate 10 0 }
        ∧ (consoleState 5 console (during won)).link.queue ≠ [])
      ∧ (consoleState 5 console (station 3 .run)).link.tx = none ∧ (setActivity .muted (station 3 .ready)).ctl.activity ≠ .active
      ∧ (station 3 .ready).ctl.activity = .active := by decide

theorem witness_Queries :
    let s := station 4 .run
    s.link.rx.isSome = true ∧ s.resetHeld = false ∧ s.addressed console = true ∧ s.ctl.run ≠ .listen ∧ s.ctl.run ≠ .fault ∧ (7 : BitVec 4).toNat = (7 : Fin 8).val
      ∧ 8 ≤ (8 : BitVec 4).toNat ∧ (3 : BitVec 4).toNat = (3 : Fin 4).val ∧ (16 : BitVec 8).toNat = (15 : Fin 16).val + 1
      ∧ 17 ≤ (17 : BitVec 8).toNat ∧ (15 : BitVec 4).toNat = (14 : Fin 15).val + 1 ∧ 4 ≤ (4 : BitVec 4).toNat
      ∧ (consoleState 5 console s).work = Work.empty ∧ (consoleState 5 console s).link.queue.length + 4 ≤ 6
      ∧ (∀ st ∈ [StationState.listen, .fault], (station 4 st).ctl.run = st ∧ (station 4 st).addressed console = true
          ∧ (station 4 st).link.rx.isSome = true ∧ (station 4 st).work = Work.empty) := by decide

/-- A reply with no room: one frame with six held, four with three held. -/
theorem witness_Queries_full :
    let three := (station 4 .run).withLink { (station 4 .run).link with queue := List.replicate 3 ⟨verdictOf 1, 0⟩ }
    let six := (fullQueue false).withLink { (fullQueue false).link with rx := some mark }
    six.link.rx.isSome = true ∧ six.resetHeld = false ∧ six.addressed console = true ∧ six.work = Work.empty
      ∧ 6 < (consoleState 5 console six).link.queue.length + 1 ∧ 6 ≤ (consoleState 5 console six).link.queue.length
      ∧ three.link.rx.isSome = true ∧ three.addressed console = true ∧ 6 < (consoleState 5 console three).link.queue.length + 4
      ∧ three.entryOf 65533 = some unit
      ∧ (after (.queryEntry 5 console 0 65533) three).link.queue.length = 3
      ∧ flagIn (after (.queryEntry 5 console 0 65533) three).alerts.word .txqOverflow = true := by decide

/-- A sequence in FWD, whose conversion end waits in the queue. -/
theorem witness_StepKeepsEngine :
    let s := (running 1 .unit .fwd).withIdx { (running 1 .unit .fwd).idx with measReq := true }
    EngineOk s ∧ ∃ u, step (s.withPending [.conversionEnd 100 5 5]) = .next u := ⟨⟨rfl, rfl⟩, _, rfl⟩

/-- A station in FAULT that takes a RUN frame. -/
theorem witness_StepKeepsEngine_fault :
    FaultOk ((station 3 .fault).withCtl { (station 3 .fault).ctl with hailDue := none }) ∧ (station 3 .fault).ctl.run = .fault
      ∧ ∃ u, step (((station 3 .fault).withCtl { (station 3 .fault).ctl with hailDue := none }).withPending [.run 5 console]) = .next u :=
  ⟨fun _ => ⟨rfl, rfl, rfl, rfl, rfl, rfl⟩, rfl, _, rfl⟩

/-- A station that claims the line for its HAIL. -/
theorem witness_StepKeepsQueue : QueueOk (sending false .run) ∧ ∃ u, step ((sending false .run).withPending [.claimLost 5]) = .next u := by
  refine ⟨⟨by decide, by decide, ?_, by decide, rfl⟩, _, rfl⟩
  intro x h _; cases h; rfl

/-- Every assigned flag and mask bit on, and a MASK of all 32 positions. -/
theorem witness_StepKeepsQueue_alerts :
    let s := (station 3 .run).withAlerts { word := assignedMask, mask := assignedMask, master := true }
    AlertsOk s ∧ ∃ u, step (s.withPending [.mask 5 console 0xFFFFFFFF true]) = .next u := ⟨⟨by decide, by decide⟩, _, rfl⟩

/-- A LOCKED page and three EMPTY ones. -/
theorem witness_StepKeepsRecipe : RecipeOk (station 3 .run) ∧ ∃ u, step ((station 3 .run).withPending [.lock 5 console 1 2718]) = .next u :=
  ⟨by intro n; fin_cases n <;> exact ⟨by decide, by decide, by decide, by decide, by decide⟩, _, rfl⟩

/-- A drift slot with four samples, stale, at a CHECK measurement that ends. -/
theorem witness_StepKeepsRecipe_drift :
    let s := running 3 .check .sampling
    let s := s.withDrift (s.drift.set 2 { baseline := some (pos 1204), ring := [pos 0, pos 3, pos 5, pos 8], staleness := 256 })
    DriftOk s ∧ ∃ u, step (s.withPending [.temperatureSampleEnd 100 376]) = .next u :=
  ⟨by intro k; fin_cases k <;> exact ⟨by decide, by decide, by decide⟩, _, rfl⟩

/-- A firing in HOLDING, whose pulse end waits in the queue. -/
theorem witness_StepKeepsGates :
    GatesOk (firing .holding (.holding 65533 100)) ∧ ∃ u, step ((firing .holding (.holding 65533 100)).withPending [.pulseEnd 100 2]) = .next u := by
  refine ⟨⟨by decide, by decide, ?_, ?_, by decide⟩, _, rfl⟩
  · intro f hf _; have : f = ⟨65533, 2, some 1, .holding⟩ := List.mem_singleton.mp hf
    subst this; rfl
  · intro g hg
    refine ⟨⟨65533, 2, some 1, .holding⟩, List.mem_singleton.mpr rfl, ?_⟩
    fin_cases g <;> first | exact absurd rfl hg | exact ⟨rfl, rfl⟩

/-- Two firings in due order, one in HOLDING and one WAITING at a gate that its unit has not reached, when an index event comes. -/
def dueSorter : State :=
  let s := firing .holding (.holding 65533 100)
  s.withGates { s.gates with firings := [⟨65533, 2, some 1, .holding⟩, ⟨65532, 15, some 1, .waiting⟩] }

theorem witness_StepKeepsGates_due :
    GatesOk dueSorter ∧ TableOk dueSorter ∧ DueOk dueSorter ∧ ∃ u, step (dueSorter.withPending [.indexEvent (ms 25) 0]) = .next u := by
  have each {P : Firing → Prop} (h1 : P ⟨65533, 2, some 1, .holding⟩) (h2 : P ⟨65532, 15, some 1, .waiting⟩) :
      ∀ f ∈ dueSorter.gates.firings, P f := by
    intro f hf
    obtain rfl | rfl : f = ⟨65533, 2, some 1, .holding⟩ ∨ f = ⟨65532, 15, some 1, .waiting⟩ := by simpa using List.mem_cons.mp hf
    exacts [h1, h2]
  refine ⟨⟨by decide, by decide, each (fun _ => rfl) (fun h => absurd rfl h), ?_, by decide⟩, ⟨by decide, ?_, by decide, by decide, ?_⟩,
    ⟨by decide, ?_, each (fun h => by cases h) (fun _ => by decide), ?_⟩, _, rfl⟩
  · intro g hg
    refine ⟨⟨65533, 2, some 1, .holding⟩, List.mem_cons_self, ?_⟩
    fin_cases g <;> first | exact absurd rfl hg | exact ⟨rfl, rfl⟩
  · intro p h; cases h; decide
  · intro e he; have : e = unit := List.mem_singleton.mp he
    subst this; exact ⟨15, rfl, by decide⟩
  · intro _ _ p h; cases h; decide
  · exact List.pairwise_cons.mpr ⟨fun f hf => by cases List.mem_singleton.mp hf; exact trivial, List.pairwise_singleton _ _⟩

/-- A station that holds an entry. -/
theorem witness_StepKeepsTable : TableOk (station 3 .run) ∧ ∃ u, step ((station 3 .run).withPending [.indexEvent (ms 25) 0]) = .next u := by
  refine ⟨⟨by decide, ?_, by decide, by decide, ?_⟩, _, rfl⟩
  · intro p h; cases h; decide
  · intro e he; have : e = unit := List.mem_singleton.mp he
    subst this; exact ⟨8, rfl, by decide⟩

/-- A LOAD to a LOCKED page. -/
theorem witness_LockedPageStays :
    (∃ u, exec (.loadParameter 5 console 1 5 (pos 1)) (station 3 .ready) = .next u) ∧ ((station 3 .ready).pages[(1 : Fin 4)]).state = .locked
      ∧ (∀ t h page, Instr.loadParameter 5 console 1 5 (pos 1) ≠ .erase t h page)
      ∧ (∀ t cause node role page, Instr.loadParameter 5 console 1 5 (pos 1) ≠ .hardReset t cause node role page)
      ∧ (station 3 .ready).resetHeld = false ∧ (station 3 .ready).link.rx.isSome = true ∧ (station 3 .ready).addressed console = true
      ∧ (station 3 .ready).ctl.run ≠ .listen ∧ (station 3 .ready).ctl.run ≠ .fault ∧ (1 : BitVec 4).toNat = (1 : Fin 4).val
      ∧ flagIn ((station 3 .ready).withAlerts { word := 0, mask := assignedMask, master := true }).alerts.mask .consoleError = true :=
  ⟨⟨_, rfl⟩, by decide, (fun _ _ _ h => by cases h), (fun _ _ _ _ _ h => by cases h), rfl, rfl, by decide, by decide, by decide, by decide, by decide⟩

/-- A RUN frame in FAULT and in CONFIG, and a SETUP in READY. -/
theorem witness_ItemsAndFaultStay :
    (∃ u, exec (.run 5 console) (station 3 .fault) = .next u) ∧ (station 3 .fault).ctl.run = .fault
      ∧ (∃ u, exec (.setup 5 console 7 (pos 9)) (station 3 .ready) = .next u) ∧ (station 3 .ready).ctl.run ≠ .config
      ∧ (∀ t cause node role page, Instr.run 5 console ≠ .hardReset t cause node role page)
      ∧ (∀ t h item v, Instr.run 5 console ≠ .setup t h item v) ∧ (∀ t h v, Instr.run 5 console ≠ .setupPosition t h v)
      ∧ ∀ t h g v, Instr.run 5 console ≠ .setupGatePos t h g v :=
  ⟨⟨_, rfl⟩, rfl, ⟨_, rfl⟩, by decide, (fun _ _ _ _ _ h => by cases h), (fun _ _ _ _ h => by cases h), (fun _ _ _ h => by cases h),
    fun _ _ _ _ h => by cases h⟩

theorem witness_FrameRoundTrip :
    let c := Instr.valueReceived 5 ⟨1, 0, 3, 0⟩ ⟨65533, 0, clear, some (pos 551), some 376, none⟩
    c.wellFormed = true ∧ encodeFrame c = some [279, 0, 48, 4095, 3328, 0, 3, 0, 551, 376, 488] := by decide

end Sys2Proof.Tests
end

section
/-! The invariants of every step: what has to be shown of a property of states, once for each operation that can touch it, for every command to keep it. -/

namespace Sys2Proof.Machine

/-- The operation keeps the property. -/
def Keeps (P : State → Prop) (f : State → State) : Prop := ∀ s, P s → P (f s)

/-- The parts that the invariants of index tracker, table, engine and gates look at are the same in both states. -/
structure SameParts (a b : State) : Prop where
  idx : b.idx = a.idx := by simp
  entries : b.table.entries = a.table.entries := by simp
  eng : b.eng = a.eng := by simp
  firings : b.gates.firings = a.gates.firings := by simp
  drivers : b.gates.drivers = a.gates.drivers := by simp
  role : b.ctl.role = a.ctl.role := by simp
  run : b.ctl.run = a.ctl.run := by simp
  position : b.ctl.items.position = a.ctl.items.position := by simp
  gatePos : b.ctl.items.gatePos = a.ctl.items.gatePos := by simp
  hailDue : b.ctl.hailDue = a.ctl.hailDue := by simp

/-- READY, RUN and HALT: the states after a finished set-up. -/
def Working (st : StationState) : Prop := st = .ready ∨ st = .run ∨ st = .halt

/-- The changes of station state other than into FAULT and by reset (R173, R176 to R179). -/
def MayEnter (s : State) (st : StationState) : Prop :=
  (s.ctl.run = .listen ∧ st = .config) ∨ (s.ctl.run = .config ∧ st = .ready ∧ configValid s.role s.ctl.items = true)
    ∨ (Working s.ctl.run ∧ Working st)

/-- What has to be shown of a property for every step to keep it: it looks at no other part of the state, and each operation on those parts keeps it where a command calls it. -/
structure StepKept (P : State → Prop) : Prop where
  same : ∀ a b, SameParts a b → P a → P b
  hail : ∀ s, s.ctl.run ≠ .fault → P s → P (offerHail s)
  expireHail : Keeps P expireHail
  station : ∀ st d s, MayEnter s st → P s → P (s.withCtl { s.ctl with run := st, drain := d })
  position : ∀ v s, s.ctl.run = .config → P s → P (setPosition v s)
  gatePos : ∀ g v s, s.ctl.run = .config → P s → P (setGatePos g v s)
  index : ∀ pins, Keeps P (indexEffect pins)
  reset : ∀ t cause node role page s, P (startUp (clearAll t cause node role page s))
  endSettle : Keeps P endSettle
  endContactTest : ∀ m, Keeps P (endContactTest m)
  endOffInterval : Keeps P endOffInterval
  endConversion : ∀ x y, Keeps P (endConversion x y)
  endGap : Keeps P endGap
  endTemperature : ∀ r, Keeps P (endTemperature r)
  expireLimit : Keeps P expireLimit
  expireDelay : ∀ g, Keeps P (expireDelay g)
  expirePullIn : ∀ g, Keeps P (expirePullIn g)
  expirePulse : ∀ g, Keeps P (expirePulse g)
  fault : ∀ r, Keeps P (enterFault r)
  discard : Keeps P discardSequence
  mute : ∀ s, s.ctl.run ≠ .fault → P s → P (muteGates s)
  realign : ∀ d s, s.ctl.run ≠ .fault → P s → P (dropPassed (endRunning .doubt (realignTable (forgetOffsets (moveCount d s)))))
  entry : ∀ r s, s.ctl.run ≠ .fault → s.classify r.tag = .inRange → P s → P (putEntryRecord r s)
  value : ∀ tag k v s, s.ctl.run ≠ .fault → s.classify tag = .inRange → P s → P (putValue tag k v s)
  restart : ∀ s, s.ctl.run ≠ .fault → P s → P (restartClears s)

namespace StepKept

variable {P : State → Prop}

/-! ### The frame of a command -/

theorem raise (h : StepKept P) (f : AlertFlag) : Keeps P (raise f) := fun _ => h.same _ _ {}

theorem refreshLevels (h : StepKept P) : Keeps P refreshLevels := fun _ => h.same _ _ {}

theorem setStation (h : StepKept P) {st : StationState} {s : State} (d : Bool) (ht : MayEnter s st ∨ (st = s.ctl.run ∧ st ≠ .fault)) (hs : P s) :
    P (setStation st d s) := by
  have hP : P (s.withCtl { s.ctl with run := st, drain := d }) :=
    ht.elim (fun hm => h.station st d s hm hs) (fun he => h.same s _ { run := he.1 } hs)
  have hf : st ≠ .fault := by
    rcases ht with hm | he
    · rcases hm with ⟨_, rfl⟩ | ⟨_, rfl, _⟩ | ⟨_, rfl | rfl | rfl⟩ <;> simp
    · exact he.2
  unfold Machine.setStation
  dsimp only
  split
  · exact h.hail _ hf hP
  · exact hP

theorem setActivity (h : StepKept P) (a : Activity) {s : State} (hf : s.ctl.run ≠ .fault) (hs : P s) : P (setActivity a s) := by
  unfold Machine.setActivity
  split
  · exact hs
  · exact h.hail _ hf (h.same s _ {} hs)

theorem drainTest (h : StepKept P) : Keeps P drainTest := by
  intro s hs
  unfold Machine.drainTest
  split
  · rename_i hc
    simp only [Bool.and_eq_true, beq_iff_eq] at hc
    exact h.setStation false (.inl (.inr (.inr ⟨.inr (.inl hc.1.2), .inr (.inr rfl)⟩))) hs
  · exact hs

theorem settle (h : StepKept P) : Keeps P settle := fun s hs =>
  h.same (Machine.drainTest s) (Machine.settle s)
    { hailDue := by simp [Machine.settle], run := by simp [Machine.settle], firings := by simp, drivers := by simp } (h.drainTest s hs)

theorem event (h : StepKept P) {body : State → State} (hb : Keeps P body) {t : Instant} {s u : State} (hs : P s)
    (he : event t body s = .next u) : P u := by
  have ha : P (advance t s) := h.same s _ {} hs
  cases he
  split
  · exact ha
  · exact h.settle _ (hb _ ha)

/-! ### Frames taken -/

theorem standbyTest (h : StepKept P) : Keeps P standbyTest := by
  intro s hs
  unfold Machine.standbyTest
  split
  · exact hs
  · rename_i hf
    split
    · have hd := h.same _ (keepQueued (fun q => !q.frame.isUnit) (discardSequence s)) {} (h.discard s hs)
      exact h.setActivity .standby (by simpa using hf) hd
    · exact h.setActivity .active (by simpa using hf) (h.raise _ s hs)
    all_goals exact hs

theorem realignBy_run {s : State} {d : BitVec 16} (hd : s.realignBy = some d) : s.ctl.run ≠ .fault := by
  unfold State.realignBy at hd
  dsimp only at hd
  split at hd
  · cases hd
  · split at hd
    · rename_i hc
      simp only [Bool.and_eq_true, bne_iff_ne] at hc
      exact hc.1.1.1
    · cases hd

theorem peerTests (h : StepKept P) : Keeps P peerTests := by
  intro s hs
  have h1 := h.standbyTest _ (h.refreshLevels s hs)
  unfold Machine.peerTests realignTest
  split
  · rename_i d hd
    exact h.standbyTest _ (h.refreshLevels _ (h.drainTest _ (h.realign d _ (realignBy_run hd) h1)))
  · exact h1

theorem modifyRow (h : StepKept P) (n : Fin 8) (f : PeerRow → PeerRow) : Keeps P (modifyRow n f) := fun _ => h.same _ _ {}

theorem duplicateReport (h : StepKept P) : Keeps P duplicateReport := by
  intro s hs
  unfold Machine.duplicateReport
  split
  · exact h.fault _ s hs
  all_goals first | exact h.raise _ s hs | exact hs

theorem takeFrame (h : StepKept P) (hd : FrameHead) (hail : Option HailBody) {content : State → State} (hc : Keeps P content) :
    Keeps P (takeFrame hd hail content) := by
  intro s hs
  unfold Machine.takeFrame actOnFrame
  split
  · have he : P (endFrame (some hd.sender) s) := h.same s _ {} hs
    split
    · exact hc _ he
    · split
      · exact h.duplicateReport _ he
      · exact hc _ (h.peerTests _ (h.modifyRow _ _ _ he))
  · exact hs

theorem obey (h : StepKept P) (hd : ConsoleHead) {act : State → State} (ha : Keeps P act) : Keeps P (obey hd act) :=
  h.takeFrame _ _ fun s hs => by split <;> [exact ha s hs; exact hs]

theorem fromActiveSource (_h : StepKept P) (hd : FrameHead) {content : Fin 8 → Role → State → State}
    (hc : ∀ n r s, s.ctl.run ≠ .fault → P s → P (content n r s)) : Keeps P (fromActiveSource hd content) := by
  intro s hs
  unfold Machine.fromActiveSource
  split
  · exact hs
  · split
    · split
      · rename_i hf
        simp only [Bool.and_eq_true, bne_iff_ne] at hf
        exact hc _ _ s hf.2 hs
      · exact hs
    · exact hs

theorem reportAhead (h : StepKept P) (n : Fin 8) : Keeps P (reportAhead n) := fun s hs => h.peerTests _ (h.modifyRow _ _ s hs)

theorem reportLate (h : StepKept P) : Keeps P reportLate := fun _ => h.same _ _ {}

theorem tableEntry (h : StepKept P) (b : EntryBody) (n : Fin 8) (r : Role) (s : State) (hf : s.ctl.run ≠ .fault) (hs : P s) :
    P (tableEntry b n r s) := by
  unfold Machine.tableEntry
  split
  · split
    · exact h.entry _ s hf ‹_› hs
    · exact h.reportLate s hs
    · exact h.reportAhead n s hs
  · exact hs

theorem tableValue (h : StepKept P) (b : ValueBody) (n : Fin 8) (r : Role) (s : State) (hf : s.ctl.run ≠ .fault) (hs : P s) :
    P (tableValue b n r s) := by
  unfold Machine.tableValue
  split
  · split
    · split
      · exact h.value _ _ _ s hf ‹_› hs
      · exact hs
    · exact h.reportLate s hs
    · exact h.reportAhead n s hs
  · exact hs

theorem tableVerdict (h : StepKept P) (b : VerdictBody) (n : Fin 8) (r : Role) (s : State) (_hf : s.ctl.run ≠ .fault) (hs : P s) : P (tableVerdict b n r s) := by
  unfold Machine.tableVerdict
  repeat' split
  all_goals first | exact hs | exact h.reportAhead n s hs

/-! ### Run Control -/

theorem runMode (h : StepKept P) : Keeps P runMode := by
  intro s hs
  unfold Machine.runMode
  split
  · exact hs
  · exact hs
  · exact h.raise _ s hs
  · split
    · exact h.setStation _ (.inl (.inr (.inr ⟨.inl ‹_›, .inr (.inl rfl)⟩))) hs
    · exact h.raise _ s hs
  · split
    · exact h.setStation _ (.inl (.inr (.inr ⟨.inr (.inr ‹_›), .inr (.inl rfl)⟩))) hs
    · exact h.raise _ s hs
  · exact h.setStation _ (.inl (.inr (.inr ⟨.inr (.inl ‹_›), .inr (.inl rfl)⟩))) hs

theorem haltMode (h : StepKept P) (m : HaltMode) : Keeps P (haltMode m) := by
  intro s hs
  unfold Machine.haltMode
  split
  all_goals first
    | exact hs
    | exact h.raise _ s hs
    | exact h.setStation _ (.inl (.inr (.inr ⟨.inr (.inl ‹_›), .inr (.inr rfl)⟩))) hs

theorem drainMode (h : StepKept P) : Keeps P drainMode := by
  intro s hs
  unfold Machine.drainMode
  split
  all_goals first
    | exact hs
    | exact h.raise _ s hs
    | skip
  have hw : Working s.ctl.run := .inr (.inl ‹_›)
  split
  all_goals first
    | exact hs
    | exact h.setStation _ (.inl (.inr (.inr ⟨hw, .inr (.inr rfl)⟩))) hs
    | exact h.setStation _ (.inl (.inr (.inr ⟨hw, .inr (.inl rfl)⟩))) hs

theorem setupFrame (h : StepKept P) (b : Bool) {act : State → State} (ha : ∀ s, s.ctl.run = .config → P s → P (act s)) :
    Keeps P (setupFrame b act) := by
  intro s hs
  unfold Machine.setupFrame
  split
  all_goals first
    | exact hs
    | exact h.raise _ s hs
    | skip
  split
  · exact hs
  · exact ha s ‹_› hs

theorem finishSetup (h : StepKept P) (s : State) (hr : s.ctl.run = .config) (hs : P s) : P (finishSetup s) := by
  unfold Machine.finishSetup
  split
  · exact h.setStation _ (.inl (.inr (.inl ⟨hr, rfl, ‹_›⟩))) hs
  · exact h.raise _ s hs

/-- R175: an item of the SETUP row other than POSITION and the GATE_POS items leaves these alone. -/
theorem writeItem_limits {item : BitVec 8} {v : Dev} {x y : Items} (hw : writeItem item v x = some y) :
    (movesLimit item = false ∧ y.position = x.position ∧ y.gatePos = x.gatePos)
      ∨ (movesLimit item = true ∧ (y = writePosition v x ∨ ∃ g, y = writeGatePos g v x)) := by
  unfold writeItem at hw
  unfold movesLimit
  split at hw
  case h_24 =>
    split at hw
    · rename_i hg
      cases hw
      exact .inr ⟨by simp [hg], .inr ⟨_, rfl⟩⟩
    · cases hw
  case h_1 hi => cases hw; exact .inr ⟨by simp [hi], .inl rfl⟩
  all_goals rename_i hi; cases hw; exact .inl ⟨by simp [hi], rfl, rfl⟩

theorem setupItem (h : StepKept P) (item : BitVec 8) (v : Dev) (s : State) (hr : s.ctl.run = .config) (hs : P s) : P (setupItem item v s) := by
  unfold Machine.setupItem
  split
  · rename_i x hx
    rcases writeItem_limits hx with ⟨hm, hp, hg⟩ | ⟨hm, rfl | ⟨g, rfl⟩⟩
    · rw [hm]; exact h.same s _ { position := hp, gatePos := hg } hs
    · rw [hm]; exact h.position v s hr hs
    · rw [hm]; exact h.gatePos g v s hr hs
  · split
    · exact h.finishSetup s hr hs
    · exact h.raise _ s hs

theorem muteFrame (_h : StepKept P) {act : State → State} (ha : ∀ s, s.ctl.run ≠ .fault → P s → P (act s)) : Keeps P (muteFrame act) := by
  intro s hs
  unfold Machine.muteFrame
  split
  · exact hs
  · rename_i hr; exact ha s (fun hf => hr (.inr hf)) hs

theorem muteStation (h : StepKept P) (s : State) (hf : s.ctl.run ≠ .fault) (hs : P s) : P (muteStation s) := by
  unfold Machine.muteStation enterMuted
  split
  · exact hs
  · have hd := h.discard s hs
    have hm : P (if (discardSequence s).role = some .sort then muteGates (discardSequence s) else discardSequence s) := by
      split
      · exact h.mute _ (by simpa using hf) hd
      · exact hd
    exact h.setActivity .muted (by split <;> simpa using hf) (h.same _ _ {} hm)

theorem unmuteStation (h : StepKept P) (s : State) (hf : s.ctl.run ≠ .fault) (hs : P s) : P (unmuteStation s) := by
  unfold Machine.unmuteStation
  split
  · exact h.setActivity _ hf hs
  · exact hs

theorem enterListen (h : StepKept P) (s : State) (hr : s.ctl.run = .listen) (hs : P s) : P (enterListen s) := by
  unfold Machine.enterListen
  exact h.hail _ (by simp) (h.same s _ { run := by simp [hr] } hs)

theorem restartStation (h : StepKept P) : Keeps P restartStation := by
  intro s hs
  unfold Machine.restartStation
  split
  · exact hs
  · rename_i hf
    let x := Machine.setActivity .active ((restartClears s).withCtl { (restartClears s).ctl with cause := .restart })
    have hr : x.ctl.run = s.ctl.run := by simp [x]
    have hx : P x := h.setActivity _ (by simpa using hf) (h.same _ _ {} (h.restart s hf hs))
    have hst : P (Machine.setStation (restartState (restartClears s).ctl.run) false x) := by
      refine h.setStation false ?_ hx
      rw [restartClears_ctl, hr, MayEnter, hr]
      cases hc : s.ctl.run <;> simp_all [restartState, Working]
    show P (if _ = StationState.listen then Machine.enterListen (Machine.setStation _ false x) else Machine.setStation _ false x)
    split
    · exact h.enterListen _ ‹_› hst
    · exact hst

theorem expireListen (h : StepKept P) : Keeps P expireListen := by
  intro s hs
  unfold Machine.expireListen endListen
  split
  · rename_i hc
    exact h.setStation _ (.inl (.inl ⟨hc.1, rfl⟩)) (h.same s _ {} hs)
  · exact hs

/-! ### The recipe store, the alert unit and the queries touch none of the parts -/

theorem recipeFrame (h : StepKept P) (page : BitVec 4) {act : Fin 4 → State → State} (ha : ∀ p, Keeps P (act p)) : Keeps P (recipeFrame page act) := by
  intro s hs
  unfold Machine.recipeFrame
  split
  · exact hs
  · split
    · exact h.raise _ s hs
    · exact ha _ s hs

theorem query (_h : StepKept P) {reply : State → State} (hr : Keeps P reply) : Keeps P (query reply) := by
  intro s hs
  unfold Machine.query
  split
  · exact hs
  · exact hr s hs

theorem silencePeer (h : StepKept P) (n : Fin 8) : Keeps P (silencePeer n) := by
  intro s hs
  unfold Machine.silencePeer
  split
  · exact h.peerTests _ (h.modifyRow _ _ s hs)
  · exact hs

theorem discardFrame (h : StepKept P) (sender : Option (BitVec 4)) : Keeps P (discardFrame sender) := by
  intro s hs
  unfold Machine.discardFrame countDiscard
  split
  · have he : P (endFrame sender s) := h.same s _ {} hs
    split
    · split
      · exact he
      · exact h.peerTests _ (h.modifyRow _ _ _ he)
    · exact he
  · exact hs

theorem collide (h : StepKept P) : Keeps P collide := by
  intro s hs
  unfold Machine.collide
  split
  · dsimp only
    split
    · exact h.duplicateReport _ (h.same s _ {} hs)
    · exact h.same s _ {} hs
  · exact hs

/-! ### Every command -/

theorem exec (h : StepKept P) (c : Instr) {s u : State} (hs : P s) (he : exec c s = .next u) : P u := by
  cases c with
  | indexEvent t pins =>
    have ha : P (advance t s) := h.same s _ {} hs
    cases he
    split
    · exact h.settle _ (h.index pins _ ha)
    · exact ha
  | resetAssert t => cases he; exact h.same s _ {} hs
  | hardReset t cause node role page => cases he; exact h.settle _ (h.reset t cause node role page s)
  | settleExpiry t => exact h.event h.endSettle hs he
  | contactTestEnd t m => exact h.event (h.endContactTest m) hs he
  | offIntervalExpiry t => exact h.event h.endOffInterval hs he
  | conversionEnd t x std => exact h.event (h.endConversion x std) hs he
  | gapExpiry t => exact h.event h.endGap hs he
  | temperatureSampleEnd t r => exact h.event (h.endTemperature r) hs he
  | measLimitExpiry t => exact h.event h.expireLimit hs he
  | fireDelayExpiry t g => exact h.event (h.expireDelay g) hs he
  | pullInEnd t g => exact h.event (h.expirePullIn g) hs he
  | pulseEnd t g => exact h.event (h.expirePulse g) hs he
  | hailTimerExpiry t => exact h.event h.expireHail hs he
  | listenExpiry t => exact h.event h.expireListen hs he
  | peerSilence t n => exact h.event (h.silencePeer n) hs he
  | lineIdle t => exact h.event (fun s => h.same s _ {}) hs he
  | deferralWaitExpiry t => exact h.event (fun s => h.same s _ {}) hs he
  | claimLost t => exact h.event (fun s => h.same s _ {}) hs he
  | collision t => exact h.event h.collide hs he
  | frameSent t => exact h.event (fun s => h.same s _ {}) hs he
  | frameDiscard t sender => exact h.event (h.discardFrame sender) hs he
  | entryReceived t hd b => exact h.event (h.takeFrame _ _ (h.fromActiveSource _ (h.tableEntry b))) hs he
  | valueReceived t hd b => exact h.event (h.takeFrame _ _ (h.fromActiveSource _ (h.tableValue b))) hs he
  | verdictReceived t hd b => exact h.event (h.takeFrame _ _ (h.fromActiveSource _ (h.tableVerdict b))) hs he
  | hailReceived t hd b => exact h.event (h.takeFrame _ _ fun _ => id) hs he
  | alertFrameReceived t hd w => exact h.event (h.takeFrame _ _ fun _ => id) hs he
  | statusReceived t hd b => exact h.event (h.takeFrame _ _ fun _ => id) hs he
  | run t hd => exact h.event (h.obey _ h.runMode) hs he
  | halt t hd m => exact h.event (h.obey _ (h.haltMode m)) hs he
  | drain t hd => exact h.event (h.obey _ h.drainMode) hs he
  | setup t hd item v => exact h.event (h.obey _ (h.setupFrame _ (h.setupItem item v))) hs he
  | setupPosition t hd v => exact h.event (h.obey _ (h.setupFrame _ (h.position v))) hs he
  | setupGatePos t hd g v => exact h.event (h.obey _ (h.setupFrame _ (h.gatePos g v))) hs he
  | done t hd v => exact h.event (h.obey _ (h.setupFrame _ h.finishSetup)) hs he
  | loadParameter t hd page field v => exact h.event (h.obey _ (h.recipeFrame _ fun p s => h.same s _ {})) hs he
  | loadBin t hd page bin lower upper gate capacity lo hi => exact h.event (h.obey _ (h.recipeFrame _ fun p s => h.same s _ {})) hs he
  | loadBinRemove t hd page bin => exact h.event (h.obey _ (h.recipeFrame _ fun p s => h.same s _ {})) hs he
  | lock t hd page digest => exact h.event (h.obey _ (h.recipeFrame _ fun p s => h.same s _ {})) hs he
  | erase t hd page => exact h.event (h.obey _ (h.recipeFrame _ fun p s => h.same s _ {})) hs he
  | binClear t hd page bin => exact h.event (h.obey _ fun s => h.same s _ {}) hs he
  | clearAlertFlags t hd form => exact h.event (h.obey _ fun s => h.same s _ {}) hs he
  | mask t hd word master => exact h.event (h.obey _ fun s => h.same s _ {}) hs he
  | mute t hd => exact h.event (h.obey _ (h.muteFrame h.muteStation)) hs he
  | unmute t hd => exact h.event (h.obey _ (h.muteFrame h.unmuteStation)) hs he
  | restart t hd => exact h.event (h.obey _ h.restartStation) hs he
  | queryState t hd item arg => exact h.event (h.obey _ (h.query fun s => h.same s _ {})) hs he
  | queryAlertWord t hd arg => exact h.event (h.obey _ (h.query fun s => h.same s _ {})) hs he
  | queryPeerRow t hd arg => exact h.event (h.obey _ (h.query fun s => h.same s _ {})) hs he
  | queryBinTally t hd arg page bin => exact h.event (h.obey _ (h.query fun s => h.same s _ {})) hs he
  | queryReasonTally t hd arg => exact h.event (h.obey _ (h.query fun s => h.same s _ {})) hs he
  | queryEntry t hd arg tag => exact h.event (h.obey _ (h.query fun s => h.same s _ {})) hs he
  | queryDriftSlot t hd arg => exact h.event (h.obey _ (h.query fun s => h.same s _ {})) hs he
  | frameStart t => exact h.event (fun s => h.same s _ {}) hs he

/-- A property for which the operations keep it is kept by every step. -/
theorem step (h : StepKept P) {s u : State} (hs : P s) (he : step s = .next u) : P u := by
  unfold Machine.step at he
  split at he
  · cases he; exact hs
  · exact h.exec _ (h.same s _ {} hs) he

end StepKept

end Sys2Proof.Machine
end

section
/-! Settles O52: the engine is sound after every step, and a station in FAULT stays at rest. -/

namespace Sys2Proof.Machine

/-! ### The engine (R10, R11, R40, R57) -/

theorem EngineOk.congr {a b : State} (hm : b.idx.measReq = a.idx.measReq) (hc : b.eng.ctx = a.eng.ctx) (hx : b.eng.excitation = a.eng.excitation)
    (h : EngineOk a) : EngineOk b := by
  unfold EngineOk
  rw [hm, hc, hx]
  exact h

/-- A station that measures nothing, its request clear and its excitation off. -/
theorem EngineOk.idle {s : State} (hm : s.idx.measReq = false) (hc : s.eng.ctx = none) (hx : s.eng.excitation = .off) : EngineOk s := by
  simp [EngineOk, hm, hc, hx]

theorem engineOk_iff_of_ctx {s : State} {c : Ctx} (hc : s.eng.ctx = some c) : EngineOk s ↔ s.idx.measReq = true ∧ s.eng.excitation = c.state.drives := by
  simp [EngineOk, hc]

@[simp] theorem turnOff_excitation (s : State) : (turnOff s).eng.excitation = .off := by
  unfold turnOff
  split
  · assumption
  · rfl

@[simp] theorem closeSequence_ctx (s : State) : (closeSequence s).eng.ctx = none := rfl

@[simp] theorem closeSequence_excitation (s : State) : (closeSequence s).eng.excitation = .off := by simp [closeSequence]

@[simp] theorem closeSequence_measReq (s : State) : (closeSequence s).idx.measReq = false := rfl

/-- R55, R57: the end of a sequence leaves the engine sound whatever it was before. -/
theorem engineOk_closeSequence (s : State) : EngineOk (closeSequence s) := .idle rfl rfl (by simp)

theorem engineOk_computeEnding (e : Ending) (c : Ctx) : Keeps EngineOk (computeEnding e c) := fun _ => .congr (by simp) (by simp) (by simp)

theorem engineOk_endEarly (e : Ending) (c : Ctx) (s : State) : EngineOk (endEarly e c s) := engineOk_computeEnding e c _ (engineOk_closeSequence s)

theorem engineOk_endRunning (e : Ending) : Keeps EngineOk (endRunning e) := by
  intro s hs
  unfold endRunning
  split
  · exact engineOk_endEarly _ _ _
  · exact hs

theorem engineOk_discardSequence : Keeps EngineOk discardSequence := by
  intro s hs
  unfold discardSequence
  split
  · exact hs
  · exact (engineOk_closeSequence s).congr rfl rfl rfl

/-- A step of a running sequence: the new state calls for the excitation that flows. -/
theorem EngineOk.next {s u : State} {c : Ctx} (hs : EngineOk s) (hc : s.eng.ctx.isSome = true) (hm : u.idx.measReq = s.idx.measReq)
    (hu : u.eng.ctx = some c) (hx : u.eng.excitation = c.state.drives) : EngineOk u :=
  (engineOk_iff_of_ctx hu).mpr ⟨by rw [hm, hs.1, hc], hx⟩

/-- The running context of a step that has ended. -/
theorem stepEnded_ctx {s : State} {p : SeqState → Bool} {c : Ctx} (h : s.stepEnded p = some c) : s.eng.ctx = some c ∧ p c.state = true := by
  unfold State.stepEnded at h
  split at h
  · split at h
    · rename_i hc hp
      cases h
      simp only [Bool.and_eq_true] at hp
      exact ⟨hc, hp.1⟩
    · cases h
  · cases h

/-- A running sequence whose state stays one of the same excitation. -/
theorem EngineOk.setCtx {s : State} {c d : Ctx} (hs : EngineOk s) (hc : s.eng.ctx = some c) (hd : d.state.drives = c.state.drives) :
    EngineOk (setCtx d s) :=
  hs.next (c := d) (by simp [hc]) rfl rfl (by rw [hd]; exact ((engineOk_iff_of_ctx hc).mp hs).2)

theorem EngineOk.beginPhase {s : State} {c : Ctx} (d : Ctx) {x : Excitation} {st : SeqState} (hs : EngineOk s) (hc : s.eng.ctx = some c)
    (hx : x = st.drives) : EngineOk (beginPhase x st d s) :=
  hs.next (by simp [hc]) rfl rfl hx

theorem EngineOk.enterFwd {s : State} {c : Ctx} (hs : EngineOk s) (hc : s.eng.ctx = some c) (hoff : c.state.drives = .off) : EngineOk (enterFwd c s) := by
  unfold Machine.enterFwd
  split
  · split
    · exact hs.setCtx hc hoff.symm
    · exact hs.beginPhase c hc rfl
  · exact hs.beginPhase c hc rfl

theorem engineOk_endContactTest (m : Nat) : Keeps EngineOk (endContactTest m) := by
  intro s hs
  unfold endContactTest
  split
  · exact hs
  · rename_i c hc
    obtain ⟨hc, hp⟩ := stepEnded_ctx hc
    split
    · rename_i closed hst
      split
      · exact hs.enterFwd hc (by rw [hst]; rfl)
      · exact engineOk_endEarly _ _ _
      · exact engineOk_endEarly _ _ _
    · exact hs.setCtx hc (by cases hst : c.state <;> simp_all [SeqState.drives])

theorem engineOk_endConversion (x std : BitVec 24) : Keeps EngineOk (endConversion x std) := by
  intro s hs
  unfold endConversion
  split
  · exact hs
  · rename_i c hc
    obtain ⟨hc, hp⟩ := stepEnded_ctx hc
    dsimp only
    split
    · exact hs.setCtx hc rfl
    · split
      · exact (engineOk_endEarly (.overload (x == 0x7FFFFF#24)) c s).congr (by simp) (by simp) (by simp)
      · split
        · exact hs.setCtx hc rfl
        · unfold endPhase
          dsimp only
          split
          · rename_i hst
            exact hs.setCtx hc (by rw [hst]; rfl)
          · split
            · exact (engineOk_closeSequence s).congr (by simp [computeCoarse]) (by simp [computeCoarse]) (by simp [computeCoarse])
            · exact hs.next (by simp [hc]) (by simp) rfl (by simp [SeqState.drives])

theorem engineOk_timeOut (c : Ctx) (s : State) : EngineOk (timeOut c s) := by
  unfold timeOut
  split <;> exact engineOk_endEarly _ _ _

/-- R40, R42, R49: a sequence starts with its excitation off. -/
theorem engineOk_startSequence (k : WorkKind) (tag : BitVec 16) (st : PageStamp) (b : Bool) (s : State) (hx : s.eng.excitation = .off) :
    EngineOk (startSequence k tag st b s) :=
  (engineOk_iff_of_ctx rfl).mpr ⟨rfl, by rw [startSequence_eng_excitation, hx]; rfl⟩

/-- R28, R45: the station with the entry of the unit MEASURING, under the assumed page where it had none. -/
def unitMarked (tag : BitVec 16) (s : State) : State :=
  if ((s.entryOf tag).bind (·.stamp)).isSome then markMeasuring tag none false s
  else assumePage tag s.assumedStamp (markMeasuring tag none false s)

/-- An entry that is marked leaves everything but the table alone. -/
theorem unitMarked_eq_withTable (tag : BitVec 16) (s : State) : ∃ x, unitMarked tag s = s.withTable x ∧ x.lastRemoved = s.table.lastRemoved := by
  have hmark : ∃ x, markMeasuring tag none false s = s.withTable x ∧ x.lastRemoved = s.table.lastRemoved := by
    unfold markMeasuring
    split <;> exact ⟨_, rfl, rfl⟩
  obtain ⟨x, hx, hl⟩ := hmark
  unfold unitMarked
  rw [hx]
  split
  · exact ⟨x, rfl, hl⟩
  · unfold assumePage
    split
    · exact ⟨_, rfl, hl⟩
    · exact ⟨x, rfl, hl⟩

/-- R45, R48: the start of UNIT work: a sequence starts, or a VALUE of quality NO_RECIPE is delivered. -/
theorem startUnit_cases (tag : BitVec 16) (s : State) :
    (∃ st assumed, startUnit tag s = startSequence .unit tag st assumed (unitMarked tag s))
      ∨ ∃ assumed, startUnit tag s = deliverValue (valueless (s.role == some .thermal) tag .noRecipe none false assumed) (unitMarked tag s) := by
  unfold startUnit
  dsimp only
  split
  · split
    · exact .inl ⟨_, _, rfl⟩
    · exact .inr ⟨_, rfl⟩
  · exact .inr ⟨_, rfl⟩

/-- R43 to R48, R64: what an event may find to do at the own position. -/
inductive Taken (s : State) (tag : BitVec 16) : Prop where
  | nothing (h : takeWork s = s)
  | coarse (hr : s.role = some .probe) (h : takeWork s = startCoarse tag s)
  | unit (k : Slot) (hk : s.role.bind slotOfRole = some k) (h : takeWork s = startUnit tag s)
  | check (h : takeWork s = startCheck tag s)
  | skipped (h : takeWork s = skipUnit tag s)

/-- R43: work is taken for the unit at the own position, in RUN and ACTIVE alone. -/
theorem takeWork_cases (s : State) :
    takeWork s = s ∨ ∃ p, s.position = some p ∧ s.ctl.run = .run ∧ s.ctl.activity = .active ∧ Taken s (s.idx.count - BitVec.ofNat 16 p) := by
  have hmeasure : ∀ tag, chooseMeasure tag s = startUnit tag s ∨ chooseMeasure tag s = startCheck tag s ∨ chooseMeasure tag s = skipUnit tag s := by
    intro tag
    unfold chooseMeasure
    split <;> simp
  have hretest : ∀ tag, chooseRetest tag s = s ∨ chooseRetest tag s = startUnit tag s ∨ chooseRetest tag s = startCheck tag s
      ∨ chooseRetest tag s = skipUnit tag s := by
    intro tag
    unfold chooseRetest
    repeat' split
    all_goals simp
  cases hp : s.position with
  | none => left; simp [takeWork, hp]
  | some p =>
    by_cases ha : s.ctl.run = .run ∧ s.ctl.activity = .active
    · refine .inr ⟨p, rfl, ha.1, ha.2, ?_⟩
      cases hr : s.role with
      | none => exact .nothing (by simp [takeWork, hp, hr])
      | some r =>
        cases r with
        | probe => exact .coarse hr (by simp [takeWork, hp, ha, hr])
        | precise =>
          have e : takeWork s = chooseMeasure (s.idx.count - BitVec.ofNat 16 p) s := by simp [takeWork, hp, ha, hr]
          rcases hmeasure (s.idx.count - BitVec.ofNat 16 p) with h | h | h
          · exact .unit .cold (by rw [hr]; rfl) (e.trans h)
          · exact .check (e.trans h)
          · exact .skipped (e.trans h)
        | retest =>
          have e : takeWork s = chooseRetest (s.idx.count - BitVec.ofNat 16 p) s := by simp [takeWork, hp, ha, hr]
          rcases hretest (s.idx.count - BitVec.ofNat 16 p) with h | h | h | h
          · exact .nothing (e.trans h)
          · exact .unit .retest (by rw [hr]; rfl) (e.trans h)
          · exact .check (e.trans h)
          · exact .skipped (e.trans h)
        | thermal =>
          have e : takeWork s = chooseMeasure (s.idx.count - BitVec.ofNat 16 p) s := by simp [takeWork, hp, ha, hr]
          rcases hmeasure (s.idx.count - BitVec.ofNat 16 p) with h | h | h
          · exact .unit .hot (by rw [hr]; rfl) (e.trans h)
          · exact .check (e.trans h)
          · exact .skipped (e.trans h)
        | sort => exact .nothing (by simp [takeWork, hp, hr])
    · left
      simp [takeWork, hp, ha]

/-- R43: the work of an idle station at an index event. -/
theorem engineOk_takeWork {s : State} (hs : EngineOk s) (hc : s.eng.ctx = none) : EngineOk (takeWork s) := by
  have hx : s.eng.excitation = .off := by simpa [hc] using hs.2
  rcases takeWork_cases s with h | ⟨p, _, _, _, h | ⟨_, h⟩ | ⟨_, _, h⟩ | h | h⟩
  · rw [h]; exact hs
  · rw [h]; exact hs
  · rw [h]; exact engineOk_startSequence _ _ _ _ _ (by simp [hx])
  · obtain ⟨x, he, _⟩ := unitMarked_eq_withTable (s.idx.count - BitVec.ofNat 16 p) s
    rw [h]
    rcases startUnit_cases (s.idx.count - BitVec.ofNat 16 p) s with ⟨_, _, hu⟩ | ⟨_, hu⟩ <;> rw [hu, he]
    · exact engineOk_startSequence _ _ _ _ _ (by simpa)
    · exact hs.congr (by simp) (by simp) (by simp)
  · rw [h]
    unfold startCheck
    dsimp only
    split
    · exact engineOk_startSequence _ _ _ _ _ (by simp [hx])
    · exact hs.congr (by simp) (by simp) (by simp)
  · rw [h]; exact hs.congr (by simp) (by simp) (by simp)

/-- R60: after the abort nothing is measured. -/
@[simp] theorem abortRunning_ctx (s : State) : (abortRunning s).eng.ctx = none := by
  rw [abortRunning, raiseIf_eng]
  exact (endRunning_leaves .aborted s).2.2.1

/-- What the index event does before the work of the role: the count, the marks, the page pins, the queue and the staleness counts (R2, R8, R14, R146, R96). -/
def counted (pins : BitVec 2) (s : State) : State := ageStandards (ageQueue (samplePage pins (markEdge (countEdge s))))

theorem indexEffect_eq (pins : BitVec 2) (s : State) :
    indexEffect pins s
      = if (counted pins s).role = some .sort then sortIndexEvent (abortRunning (counted pins s))
        else takeWork (retireEntries (abortRunning (counted pins s))) := rfl

theorem engineOk_indexEffect (pins : BitVec 2) : Keeps EngineOk (indexEffect pins) := by
  intro s hs
  have hcounted : EngineOk (counted pins s) := hs.congr (by simp [counted]) (by simp [counted]) (by simp [counted])
  have habort : EngineOk (abortRunning (counted pins s)) :=
    (engineOk_endRunning .aborted _ hcounted).congr (by simp [abortRunning]) (by simp [abortRunning]) (by simp [abortRunning])
  rw [indexEffect_eq]
  split
  · exact habort.congr (by simp) (by simp) (by simp)
  · exact engineOk_takeWork (habort.congr (by simp) (by simp) (by simp)) (by simp)

theorem engineOk_clearAll (t : Instant) (cause : HardCause) (node role : BitVec 3) (page : BitVec 2) (s : State) :
    EngineOk (clearAll t cause node role page s) := .idle rfl rfl rfl

theorem engineOk_enterFault (r : FaultReason) : Keeps EngineOk (enterFault r) := by
  intro s hs
  refine EngineOk.idle (by simp [enterFault, setMeasReq]) ?_ ?_
  all_goals
    simp only [enterFault, State.withCtl_eng, State.withWork_eng, raise_eng, setMeasReq_eng, keepQueued_eng, clearFirings_eng]
    unfold discardSequence
    split
  · assumption
  · rfl
  · rename_i hc; simpa [hc] using hs.2
  · simp

/-- The engine is sound after every operation that touches it. -/
theorem engineOk_kept : StepKept EngineOk where
  same _ _ h := .congr (by rw [h.idx]) (by rw [h.eng]) (by rw [h.eng])
  hail _ _ := .congr (by simp) (by simp) (by simp)
  expireHail _ := .congr (by simp) (by simp) (by simp)
  station _ _ _ _ := .congr (by simp) (by simp) (by simp)
  position _ _ _ := .congr (by simp) (by simp) (by simp)
  gatePos _ _ _ _ := .congr (by simp) (by simp) (by simp)
  index := engineOk_indexEffect
  reset t cause node role page s := by
    unfold startUp
    split
    · exact (engineOk_clearAll t cause node role page s).congr (by simp) (by simp) (by simp)
    · exact engineOk_enterFault _ _ (engineOk_clearAll t cause node role page s)
  endSettle s hs := by
    unfold endSettle
    split
    · rename_i c hc
      obtain ⟨hc, hp⟩ := stepEnded_ctx hc
      exact hs.setCtx hc (by rw [beq_iff_eq.mp hp]; rfl)
    · exact hs
  endContactTest := engineOk_endContactTest
  endOffInterval s hs := by
    unfold endOffInterval
    split
    · exact hs.beginPhase _ (stepEnded_ctx ‹_›).1 rfl
    · exact hs
  endConversion := engineOk_endConversion
  endGap s hs := by
    unfold endGap
    split
    · exact hs.beginPhase _ (stepEnded_ctx ‹_›).1 rfl
    · exact hs
  endTemperature r s hs := by
    unfold endTemperature
    split
    · exact hs
    · exact (engineOk_closeSequence s).congr (by simp) (by simp) (by simp)
  expireLimit s hs := by
    unfold expireLimit
    split
    · rename_i c _
      split
      · exact (engineOk_timeOut c s).congr (by simp) (by simp) (by simp)
      · exact hs
    · exact hs
  expireDelay _ _ := .congr (by simp) (by simp) (by simp)
  expirePullIn _ _ := .congr (by simp) (by simp) (by simp)
  expirePulse _ _ := .congr (by simp) (by simp) (by simp)
  fault := engineOk_enterFault
  discard := engineOk_discardSequence
  mute _ _ := .congr (by simp) (by simp) (by simp)
  realign d s _ hs := by
    have h : EngineOk (realignTable (forgetOffsets (moveCount d s))) := hs.congr (by simp) (by simp) (by simp)
    exact (engineOk_endRunning .doubt _ h).congr (by simp) (by simp) (by simp)
  entry _ _ _ _ := .congr (by simp) (by simp) (by simp)
  value _ _ _ _ _ _ := .congr (by simp) (by simp) (by simp)
  restart s _ _ := .idle (by simp [restartClears, releaseEngine, setMeasReq, emptyTable]) (by simp [restartClears, releaseEngine, emptyTable])
    (by simp [restartClears, releaseEngine, emptyTable])

/-! ### FAULT (R180) -/

theorem FaultOk.of_run {s : State} (h : s.ctl.run ≠ .fault) : FaultOk s := fun hf => absurd hf h

/-- An operation that finds nothing to do at a station that measures nothing and holds no firing. -/
theorem faultOk_of_fixed {f : State → State} (hrun : ∀ s, (f s).ctl.run = s.ctl.run)
    (hfix : ∀ s, s.ctl.run = .fault → s.eng.ctx = none → s.gates.drivers = Vector.replicate 16 .idle → f s = s) : Keeps FaultOk f := by
  intro s hs hf
  rw [hrun] at hf
  obtain ⟨hctx, _, hdrivers, _⟩ := hs hf
  rw [hfix s hf hctx hdrivers]
  exact hs hf

theorem stepEnded_idle {s : State} (h : s.eng.ctx = none) (p : SeqState → Bool) : s.stepEnded p = none := by simp [State.stepEnded, h]

theorem cutAll_idle {s : State} (h : s.gates.firings = []) : cutAll s = s := by simp [cutAll, h]

theorem dropPassed_idle {s : State} (h : s.gates.firings = []) : dropPassed s = s := by simp [dropPassed, h]

theorem startDue_idle {s : State} (h : s.gates.firings = []) : startDue s = s := by simp [startDue, h]

theorem decideUnit_fault {s : State} (h : s.ctl.run = .fault) : decideUnit s = s := by
  unfold decideUnit
  split
  · rfl
  · simp [h]

theorem faultOk_indexEffect (pins : BitVec 2) : Keeps FaultOk (indexEffect pins) := by
  intro s hs hf
  have hrun : s.ctl.run = .fault := by simpa using hf
  obtain ⟨hctx, hfirings, hdrivers, hmeas, hreq, hhail⟩ := hs hrun
  have habort : abortRunning (counted pins s) = counted pins s := by simp [abortRunning, endRunning, counted, hctx, raiseIf]
  rw [indexEffect_eq, habort]
  split
  · have he : sortIndexEvent (counted pins s) = removeEntries (counted pins s).leavesSort (counted pins s) := by
      unfold sortIndexEvent
      rw [cutAll_idle (by simpa [counted]), dropPassed_idle (by simpa [counted]), decideUnit_fault (by simpa [counted]),
        startDue_idle (by simpa [counted])]
    rw [he]
    simp [counted, hctx, hfirings, hdrivers, hmeas, hreq, hhail]
  · have he : takeWork (retireEntries (counted pins s)) = retireEntries (counted pins s) := by
      rcases takeWork_cases (retireEntries (counted pins s)) with h | ⟨_, _, h, _⟩
      · exact h
      · simp [counted, hrun] at h
    rw [he]
    simp [counted, hctx, hfirings, hdrivers, hmeas, hreq, hhail]

theorem discardSequence_ctx (s : State) : (discardSequence s).eng.ctx = none := by
  unfold discardSequence
  split
  · assumption
  · rfl

theorem faultOk_enterFault (r : FaultReason) (s : State) : FaultOk (enterFault r s) := fun _ => by
  simp [enterFault, setMeasReq, setFiringReq, clearFirings, discardSequence_ctx]

/-- A station in FAULT is at rest after every operation. -/
theorem faultOk_kept : StepKept FaultOk where
  same a b h ha hb := by
    rw [h.eng, h.firings, h.drivers, h.idx, h.hailDue]
    exact ha (h.run ▸ hb)
  hail _ hr _ := .of_run (by simpa using hr)
  expireHail := by
    intro s hs
    by_cases hf : s.ctl.run = .fault
    · obtain ⟨_, _, _, _, _, hhail⟩ := hs hf
      rw [show expireHail s = s by simp [expireHail, hhail, timerEnded]]
      exact hs
    · exact .of_run (by simpa using hf)
  station _ _ s hm _ := .of_run (by rcases hm with ⟨_, rfl⟩ | ⟨_, rfl, _⟩ | ⟨_, rfl | rfl | rfl⟩ <;> simp)
  position _ _ hr _ := .of_run (by simp [hr])
  gatePos _ _ _ hr _ := .of_run (by simp [hr])
  index := faultOk_indexEffect
  reset t cause node role page s := by
    unfold startUp
    split
    · exact .of_run (by simp [enterListen, offerHail])
    · exact faultOk_enterFault _ _
  endSettle := faultOk_of_fixed (by simp) fun s _ h _ => by simp [endSettle, stepEnded_idle h]
  endContactTest m := faultOk_of_fixed (by simp) fun s _ h _ => by simp [endContactTest, stepEnded_idle h]
  endOffInterval := faultOk_of_fixed (by simp) fun s _ h _ => by simp [endOffInterval, stepEnded_idle h]
  endConversion x y := faultOk_of_fixed (by simp) fun s _ h _ => by simp [endConversion, stepEnded_idle h]
  endGap := faultOk_of_fixed (by simp) fun s _ h _ => by simp [endGap, stepEnded_idle h]
  endTemperature r := faultOk_of_fixed (by simp) fun s _ h _ => by simp [endTemperature, stepEnded_idle h]
  expireLimit := faultOk_of_fixed (by simp) fun s _ h _ => by simp [expireLimit, h]
  expireDelay g := faultOk_of_fixed (by simp) fun s _ _ h => by simp [expireDelay, h]
  expirePullIn g := faultOk_of_fixed (by simp) fun s _ _ h => by simp [expirePullIn, h]
  expirePulse g := faultOk_of_fixed (by simp) fun s _ _ h => by simp [expirePulse, h]
  fault r s _ := faultOk_enterFault r s
  discard := faultOk_of_fixed (by simp) fun s _ h _ => by simp [discardSequence, h]
  mute _ hr _ := .of_run (by simpa using hr)
  realign _ _ hr _ := .of_run (by simpa using hr)
  entry _ _ hr _ _ := .of_run (by simpa using hr)
  value _ _ _ _ hr _ _ := .of_run (by simpa using hr)
  restart _ hr _ := .of_run (by simpa using hr)

/-- Settles O52: each of the two properties is kept by every operation that a command is made of. -/
theorem stepKeepsEngine : Obligations.StepKeepsEngine := by
  unfold Obligations.StepKeepsEngine
  exact ⟨fun _ _ hs he => engineOk_kept.step hs he, fun _ _ hs he => faultOk_kept.step hs he⟩

end Sys2Proof.Machine
end

section
/-! Settles O56: the Unit Table keeps its order and its range. The order and the range are those of the tags held, so what an operation does to the list of tags decides. -/

namespace Sys2Proof.Machine

/-! ### Positions and the retire limit (R5, R6) -/

theorem posOf_lt (s : State) (x : BitVec 16) : s.posOf x < 65536 := (s.idx.count - x).isLt

theorem posOf_congr {a b : State} (h : b.idx.count = a.idx.count) (x : BitVec 16) : b.posOf x = a.posOf x := by simp [State.posOf, h]

/-- R6: two tags at one position are one tag. -/
theorem posOf_inj {s : State} {x y : BitVec 16} (h : s.posOf x = s.posOf y) : x = y :=
  sub_right_injective (BitVec.eq_of_toNat_eq h)

/-- R6, R16: the position of a tag under a count that has moved by `d`. -/
theorem toNat_add_sub (c d x : BitVec 16) : (c + d - x).toNat = ((c - x).toNat + d.toNat) % 65536 := by
  rw [show c + d - x = c - x + d by ring, BitVec.toNat_add]

/-- R4: the unit at a position. -/
theorem posOf_sub (s : State) {p : Nat} (hp : p < 65536) : s.posOf (s.idx.count - BitVec.ofNat 16 p) = p := by
  rw [State.posOf, show s.idx.count - (s.idx.count - BitVec.ofNat 16 p) = BitVec.ofNat 16 p by ring, BitVec.toNat_ofNat, Nat.mod_eq_of_lt hp]

/-- R6: in range is at or before the retire limit, and not ahead. -/
theorem classify_inRange_iff (s : State) (x : BitVec 16) :
    s.classify x = .inRange ↔ s.posOf x < 32768 ∧ ∃ r, s.idx.retireLimit = some r ∧ s.posOf x ≤ r := by
  unfold State.classify
  cases hr : s.idx.retireLimit with
  | none => by_cases h : 32768 ≤ s.posOf x <;> simp [h]
  | some r =>
    by_cases h : 32768 ≤ s.posOf x
    · simp [h, Nat.not_lt.mpr h]
    · by_cases h2 : s.posOf x ≤ r <;> simp [h, h2, Nat.not_le.mp h]

theorem retireLimitOf_congr {r : BitVec 3} {x y : Items} (hp : y.position = x.position) (hg : y.gatePos = x.gatePos) :
    retireLimitOf r y = retireLimitOf r x := by simp [retireLimitOf, hp, hg]

/-- R5: the retire limit is absent with POSITION, and lies between POSITION and the greatest of the items. -/
theorem retireLimitOf_some {role : BitVec 3} {x : Items} {r : Nat} (h : retireLimitOf role x = some r) :
    ∃ p, x.position = some p ∧ p ≤ r ∧ ((∀ g : Fin 16, x.gatePos[g] ≤ 31) → p ≤ 31 → r ≤ 31) := by
  unfold retireLimitOf at h
  split at h
  · cases h
  · rename_i p hp
    split at h <;> cases h
    · obtain ⟨hge, -, hmem⟩ := foldl_max_spec x.gatePos.toList p
      refine ⟨p, hp, hge, fun hg hp31 => ?_⟩
      rcases hmem with hm | hm
      · omega
      · obtain ⟨i, hi, he⟩ := List.mem_iff_getElem.mp hm
        have hlt : i < 16 := by simpa using hi
        rw [← he]
        exact hg ⟨i, hlt⟩
    · exact ⟨_, hp, Nat.le_refl _, fun _ h31 => h31⟩

/-! ### The tags held -/

/-- The tags of the entries, in their order. -/
def State.heldTags (s : State) : List (BitVec 16) := s.table.entries.map Entry.tag

/-- R5: the retire limit is that of the role and the items, which lie in their ranges. -/
structure LimitsOk (s : State) : Prop where
  limit : s.idx.retireLimit = retireLimitOf s.ctl.role s.ctl.items
  position : ∀ p, s.ctl.items.position = some p → p ≤ 31
  gatePos : ∀ g : Fin 16, s.ctl.items.gatePos[g] ≤ 31

/-- R18, R34: sound limits, the tags in strictly falling position, none more than `k` beyond the retire limit. -/
structure RangeOk (k : Nat) (s : State) : Prop extends LimitsOk s where
  sorted : s.heldTags.Pairwise (fun a b => s.posOf b < s.posOf a)
  within : ∀ x ∈ s.heldTags, ∃ r, s.idx.retireLimit = some r ∧ s.posOf x ≤ r + k

theorem tableOk_iff (s : State) : TableOk s ↔ RangeOk 0 s := by
  constructor
  · rintro ⟨hl, hp, hg, hs, hw⟩
    exact ⟨⟨hl, hp, hg⟩, List.pairwise_map.mpr hs, by simpa [State.heldTags] using hw⟩
  · rintro ⟨⟨hl, hp, hg⟩, hs, hw⟩
    exact ⟨hl, hp, hg, List.pairwise_map.mp hs, by simpa [State.heldTags] using hw⟩

theorem LimitsOk.limit_le {s : State} (h : LimitsOk s) {r : Nat} (hr : s.idx.retireLimit = some r) : r ≤ 31 := by
  obtain ⟨p, hp, -, hle⟩ := retireLimitOf_some (h.limit ▸ hr)
  exact hle h.gatePos (h.position p hp)

/-- R5: where POSITION is present, so is the retire limit, not below it. -/
theorem LimitsOk.position_le {s : State} (h : LimitsOk s) {p : Nat} (hp : s.ctl.items.position = some p) :
    p ≤ 31 ∧ ∃ r, s.idx.retireLimit = some r ∧ p ≤ r := by
  have hsome : ∃ r, s.idx.retireLimit = some r := by
    rw [h.limit, retireLimitOf, hp]
    dsimp only
    split <;> exact ⟨_, rfl⟩
  obtain ⟨r, hr⟩ := hsome
  obtain ⟨q, hq, hle, -⟩ := retireLimitOf_some (h.limit ▸ hr)
  rw [hp] at hq
  cases hq
  exact ⟨h.position p hp, r, hr, hle⟩

/-- From `a` to `b` entries may leave or change, but none comes, and neither count nor limits move. -/
structure Shrinks (a b : State) : Prop where
  tags : b.heldTags.Sublist a.heldTags
  count : b.idx.count = a.idx.count := by simp
  limit : b.idx.retireLimit = a.idx.retireLimit := by simp
  role : b.ctl.role = a.ctl.role := by simp
  position : b.ctl.items.position = a.ctl.items.position := by simp
  gatePos : b.ctl.items.gatePos = a.ctl.items.gatePos := by simp

theorem Shrinks.refl (s : State) : Shrinks s s := ⟨.refl _, rfl, rfl, rfl, rfl, rfl⟩

theorem Shrinks.trans {a b c : State} (h1 : Shrinks a b) (h2 : Shrinks b c) : Shrinks a c :=
  ⟨h2.tags.trans h1.tags, h2.count.trans h1.count, h2.limit.trans h1.limit, h2.role.trans h1.role, h2.position.trans h1.position,
    h2.gatePos.trans h1.gatePos⟩

theorem Shrinks.limitsOk {a b : State} (h : Shrinks a b) (ha : LimitsOk a) : LimitsOk b where
  limit := by rw [h.limit, ha.limit, h.role, retireLimitOf_congr h.position h.gatePos]
  position := by rw [h.position]; exact ha.position
  gatePos := by rw [h.gatePos]; exact ha.gatePos

theorem Shrinks.rangeOk {a b : State} (h : Shrinks a b) {k : Nat} (ha : RangeOk k a) : RangeOk k b where
  toLimitsOk := h.limitsOk ha.toLimitsOk
  sorted := by
    simp only [posOf_congr h.count]
    exact ha.sorted.sublist h.tags
  within x hx := by
    rw [h.limit, posOf_congr h.count]
    exact ha.within x (h.tags.subset hx)

theorem Shrinks.of_table {a b : State} (ht : b.table.entries = a.table.entries) (hc : b.idx.count = a.idx.count := by simp)
    (hl : b.idx.retireLimit = a.idx.retireLimit := by simp) (hr : b.ctl.role = a.ctl.role := by simp)
    (hp : b.ctl.items.position = a.ctl.items.position := by simp) (hg : b.ctl.items.gatePos = a.ctl.items.gatePos := by simp) : Shrinks a b :=
  ⟨by rw [State.heldTags, ht, State.heldTags], hc, hl, hr, hp, hg⟩

theorem Shrinks.foldl {α : Type} {op : State → α → State} (h : ∀ a x, Shrinks a (op a x)) (l : List α) (s : State) : Shrinks s (l.foldl op s) := by
  induction l generalizing s with
  | nil => exact .refl s
  | cons x xs ih => exact (h s x).trans (ih _)

/-! ### What each operation does to the tags held -/

theorem offerUnit_shrinks (f : QFrame) (s : State) : Shrinks s (offerUnit f s) := .of_table (by simp)

theorem RangeOk.offerUnit {k : Nat} {s : State} (f : QFrame) (h : RangeOk k s) : RangeOk k (offerUnit f s) := (offerUnit_shrinks f s).rangeOk h

theorem removeEntries_entries (gone : Entry → Bool) (s : State) : (removeEntries gone s).table.entries = s.table.entries.filter (fun e => !gone e) := rfl

theorem removeEntries_shrinks (gone : Entry → Bool) (s : State) : Shrinks s (removeEntries gone s) where
  tags := List.filter_sublist.map _

theorem removeTag_shrinks (tag : BitVec 16) (s : State) : Shrinks s (removeTag tag s) := removeEntries_shrinks _ s

theorem modifyEntry_heldTags {tag : BitVec 16} {f : Entry → Entry} (hf : ∀ e, (f e).tag = e.tag) (s : State) :
    (modifyEntry tag f s).heldTags = s.heldTags := by
  simp only [State.heldTags, modifyEntry, State.withTable_table, List.map_map]
  refine List.map_congr_left fun e _ => ?_
  simp only [Function.comp]
  split <;> simp [hf]

theorem modifyEntry_shrinks {tag : BitVec 16} {f : Entry → Entry} (hf : ∀ e, (f e).tag = e.tag) (s : State) : Shrinks s (modifyEntry tag f s) where
  tags := by rw [modifyEntry_heldTags hf]

theorem setStage_shrinks (tag : BitVec 16) (st : OwnStage) (s : State) : Shrinks s (setStage tag st s) := modifyEntry_shrinks (by intro e; rfl) s

@[simp] theorem fillSlot_tag (e : Entry) (k : Slot) (v : HeldValue) : (e.fillSlot k v).tag = e.tag := by
  unfold Entry.fillSlot
  split
  · rfl
  · cases k <;> rfl

theorem entryOf_none_iff (s : State) (x : BitVec 16) : s.entryOf x = none ↔ x ∉ s.heldTags := by
  simp [State.entryOf, State.heldTags]

/-- R18: a new entry stands among the others in tag order. -/
theorem insertEntry_tags_perm (pos : BitVec 16 → Nat) (e : Entry) (l : List Entry) : (insertEntry pos e l).Perm (e :: l) := by
  induction l with
  | nil => exact .refl _
  | cons x xs ih =>
    unfold insertEntry
    split
    · exact (ih.cons x).trans (.swap e x xs)
    · exact .refl _

theorem insertEntry_sorted {pos : BitVec 16 → Nat} {e : Entry} {l : List Entry} (hl : l.Pairwise (fun a b => pos b.tag < pos a.tag))
    (he : ∀ x ∈ l, pos x.tag ≠ pos e.tag) : (insertEntry pos e l).Pairwise (fun a b => pos b.tag < pos a.tag) := by
  induction l with
  | nil => exact List.pairwise_singleton _ _
  | cons x xs ih =>
    obtain ⟨hx, hxs⟩ := List.pairwise_cons.mp hl
    unfold insertEntry
    split
    · rename_i hlt
      refine List.pairwise_cons.mpr ⟨fun y hy => ?_, ih hxs fun y hy => he y (List.mem_cons_of_mem _ hy)⟩
      rcases List.mem_cons.mp ((insertEntry_tags_perm pos e xs).subset hy) with rfl | hy
      · exact hlt
      · exact hx y hy
    · rename_i hge
      have hne := he x List.mem_cons_self
      refine List.pairwise_cons.mpr ⟨fun y hy => ?_, hl⟩
      rcases List.mem_cons.mp hy with rfl | hy
      · omega
      · have := hx y hy
        omega

/-- R18, R23: an entry for a tag in range that has none keeps order and range. -/
theorem RangeOk.addEntry {k : Nat} {s : State} {e : Entry} (h : RangeOk k s) (hin : s.classify e.tag = .inRange) (hno : s.entryOf e.tag = none) :
    RangeOk k (addEntry e s) where
  limit := by simpa using h.limit
  position := by simpa using h.position
  gatePos := by simpa using h.gatePos
  sorted := by
    refine List.pairwise_map.mpr (insertEntry_sorted (List.pairwise_map.mp h.sorted) fun x hx hp => ?_)
    exact (entryOf_none_iff s e.tag).mp hno (posOf_inj hp ▸ List.mem_map_of_mem hx)
  within x hx := by
    rw [State.heldTags] at hx
    obtain ⟨y, hy, rfl⟩ := List.mem_map.mp hx
    rcases List.mem_cons.mp ((insertEntry_tags_perm _ _ _).subset hy) with rfl | hy
    · obtain ⟨-, r, hr, hle⟩ := (classify_inRange_iff s _).mp hin
      exact ⟨r, hr, Nat.le_add_right_of_le hle⟩
    · exact h.within _ (List.mem_map_of_mem hy)

theorem rangeOk_putEntryRecord {k : Nat} (r : EntryRecord) (s : State) (hin : s.classify r.tag = .inRange) (h : RangeOk k s) :
    RangeOk k (putEntryRecord r s) := by
  unfold putEntryRecord
  split
  · exact h.addEntry hin ‹_›
  · split
    · exact (modifyEntry_shrinks (by intro e; rfl) s).rangeOk h
    · exact h

theorem rangeOk_putValue {k : Nat} (tag : BitVec 16) (j : Slot) (v : HeldValue) (s : State) (hin : s.classify tag = .inRange) (h : RangeOk k s) :
    RangeOk k (putValue tag j v s) := by
  have ht : ((Entry.blank tag .none).fillSlot j (v.forSlot j)).tag = tag := by simp [Entry.blank]
  unfold putValue
  split
  · exact h.addEntry (by rwa [ht]) (by rwa [ht])
  · exact (modifyEntry_shrinks (by simp) s).rangeOk h

theorem rangeOk_deliverValue {k : Nat} (r : ValueRecord) : Keeps (RangeOk k) (deliverValue r) := by
  intro s h
  have hput : RangeOk k (match s.role.bind slotOfRole with
      | some j => if s.classify r.tag = .inRange then putValue r.tag j (r.held s.ctl.node) s else s
      | none => s) := by
    split
    · split
      · exact rangeOk_putValue _ _ _ s ‹_› h
      · exact h
    · exact h
  exact (setStage_shrinks r.tag .done _).rangeOk hput |>.offerUnit _

theorem rangeOk_deliverEntry {k : Nat} (r : EntryRecord) : Keeps (RangeOk k) (deliverEntry r) := by
  intro s h
  have hput : RangeOk k (if s.classify r.tag = .inRange then putEntryRecord r s else s) := by
    split
    · exact rangeOk_putEntryRecord r s ‹_› h
    · exact h
  exact (setStage_shrinks r.tag .done _).rangeOk hput |>.offerUnit _

theorem rangeOk_endEarly {k : Nat} (e : Ending) (c : Ctx) : Keeps (RangeOk k) (endEarly e c) := by
  intro s h
  have hc : RangeOk k (closeSequence s) := (Shrinks.of_table (by simp)).rangeOk h
  unfold endEarly computeEnding
  split
  · exact rangeOk_deliverValue _ _ hc
  · exact rangeOk_deliverEntry _ _ hc
  · exact (setStage_shrinks _ _ _).rangeOk hc

theorem rangeOk_endRunning {k : Nat} (e : Ending) : Keeps (RangeOk k) (endRunning e) := by
  intro s h
  unfold endRunning
  split
  · exact rangeOk_endEarly _ _ _ h
  · exact h

/-! ### The firings that take their entries with them -/

theorem cutFiring_shrinks (s : State) (f : Firing) : Shrinks s (cutFiring s f) :=
  (Shrinks.of_table (by simp) : Shrinks s (raise .gateOverrun (dropFiring f.tag (setDriver f.gate .idle s)))).trans (removeTag_shrinks _ _)

theorem missFiring_shrinks (s : State) (f : Firing) : Shrinks s (missFiring s f) :=
  (Shrinks.of_table (by simp) : Shrinks s (raise .gateMissed (dropFiring f.tag s))).trans (removeTag_shrinks _ _)

theorem cutAll_shrinks (s : State) : Shrinks s (cutAll s) := by
  unfold cutAll
  dsimp only
  split
  · exact .refl s
  · exact (Shrinks.foldl cutFiring_shrinks (s.gates.firings.filter (fun f => f.stage != .waiting)) s).trans (.of_table (by simp))

theorem dropPassed_shrinks (s : State) : Shrinks s (dropPassed s) := .foldl missFiring_shrinks _ s

theorem muteGates_shrinks (s : State) : Shrinks s (muteGates s) :=
  (Shrinks.foldl missFiring_shrinks s.gates.firings s).trans (.of_table (clearFirings_table _ ▸ rfl))

theorem endPulse_shrinks (g : Fin 16) (tag : BitVec 16) (s : State) : Shrinks s (endPulse g tag s) := by
  rw [endPulse_eq]
  exact (Shrinks.of_table rfl : Shrinks s (s.withGates _)).trans ((removeTag_shrinks tag _).trans (.of_table rfl))

/-- R126: a firing for the gate that a verdict resolves to, if it resolves to one. -/
def scheduleAt (tag : BitVec 16) (gate : Option (Fin 16)) (page : Option (Fin 4)) (s : State) : State :=
  match gate with
  | some o => schedule tag o page s
  | none => s

/-- R122 to R127: a verdict on the entry. -/
def Entry.judged (v : Verdict) (e : Entry) : Entry := { e with verdict := some v, ownStage := .done }

/-- R122, R125: the verdict that a provisional one leads to. -/
def finalVerdict (v : Provisional) (s : State) : Verdict :=
  { reason := (capacityCheck s v).reason, bin := (capacityCheck s v).bin, gate := (resolveGate s (capacityCheck s v).gate).1 }

theorem resolveGate_congr {a b : State} (h : b.ctl.items = a.ctl.items) (g : Fin 17) : resolveGate b g = resolveGate a g := by
  have hi : ∀ g, b.installed g = a.installed g := fun g => by unfold State.installed State.gatePosOf; rw [h]
  have hf : b.fallback = a.fallback := by unfold State.fallback; rw [h]
  unfold resolveGate
  rw [hi, hf, hi]

/-- R122 to R127: the acts of a verdict in their order. -/
theorem completeVerdict_eq (tag : BitVec 16) (v : Provisional) (s : State) :
    completeVerdict tag v s
      = offerUnit (.verdict tag (finalVerdict v s))
          (modifyEntry tag (Entry.judged (finalVerdict v s))
            (scheduleAt tag (resolveGate s (capacityCheck s v).gate).2.1 (capacityCheck s v).page
              (raiseIf (resolveGate s (capacityCheck s v).gate).2.2 .gateMissed (countVerdict (capacityCheck s v) s)))) := by
  unfold completeVerdict finalVerdict
  dsimp only
  rw [resolveGate_congr (a := s) (by simp)]
  rfl

theorem scheduleAt_shrinks (tag : BitVec 16) (o : Option (Fin 16)) (page : Option (Fin 4)) (s : State) : Shrinks s (scheduleAt tag o page s) := by
  cases o with
  | none => exact .refl s
  | some o => exact .of_table (by simp [scheduleAt]) (by simp [scheduleAt]) (by simp [scheduleAt]) (by simp [scheduleAt]) (by simp [scheduleAt]) (by simp [scheduleAt])

theorem completeVerdict_shrinks (tag : BitVec 16) (v : Provisional) (s : State) : Shrinks s (completeVerdict tag v s) := by
  rw [completeVerdict_eq]
  have hcount : Shrinks s (raiseIf (resolveGate s (capacityCheck s v).gate).2.2 .gateMissed (countVerdict (capacityCheck s v) s)) := .of_table (by simp)
  exact ((hcount.trans (scheduleAt_shrinks _ _ _ _)).trans (modifyEntry_shrinks (by intro e; rfl) _)).trans (offerUnit_shrinks _ _)

theorem decideUnit_shrinks (s : State) : Shrinks s (decideUnit s) := by
  unfold decideUnit
  split
  · exact .refl s
  · split
    · dsimp only
      split
      · split
        · exact .refl s
        · exact completeVerdict_shrinks _ _ s
      · split
        · exact .refl s
        · exact completeVerdict_shrinks _ _ s
    · exact .refl s

/-! ### The index event (R2, R34, R35) -/

/-- R2: with one more index event every unit held stands one position further. -/
theorem posOf_countEdge {s : State} {x : BitVec 16} (h : s.posOf x < 65535) : (countEdge s).posOf x = s.posOf x + 1 := by
  have e := toNat_add_sub s.idx.count 1 x
  rw [show (1 : BitVec 16).toNat = 1 from rfl, Nat.mod_eq_of_lt (by simp only [State.posOf] at h; omega)] at e
  exact e

theorem RangeOk.pos_le {k : Nat} {s : State} (h : RangeOk k s) {x : BitVec 16} (hx : x ∈ s.heldTags) : s.posOf x ≤ 31 + k := by
  obtain ⟨r, hr, hle⟩ := h.within x hx
  have := h.toLimitsOk.limit_le hr
  omega

theorem RangeOk.countEdge {s : State} (h : RangeOk 0 s) : RangeOk 1 (countEdge s) := by
  have hpos : ∀ x ∈ s.heldTags, (Machine.countEdge s).posOf x = s.posOf x + 1 := fun x hx => posOf_countEdge (by have := h.pos_le hx; omega)
  refine ⟨⟨by simpa using h.limit, by simpa using h.position, by simpa using h.gatePos⟩, ?_, fun x hx => ?_⟩
  · refine h.sorted.imp_of_mem fun {a b} ha hb hab => ?_
    rw [hpos a ha, hpos b hb]
    omega
  · obtain ⟨r, hr, hle⟩ := h.within x hx
    exact ⟨r, by simpa using hr, by rw [hpos x hx]; omega⟩

/-- R34, R35: where all that lies beyond the retire limit leaves, the range is kept. -/
theorem RangeOk.retire {k : Nat} {s : State} (h : RangeOk k s) {gone : Entry → Bool}
    (hg : ∀ e ∈ s.table.entries, ∀ r, s.idx.retireLimit = some r → r < s.posOf e.tag → gone e = true) : RangeOk 0 (removeEntries gone s) := by
  have hk := (removeEntries_shrinks gone s).rangeOk h
  refine ⟨hk.toLimitsOk, hk.sorted, fun x hx => ?_⟩
  obtain ⟨r, hr, -⟩ := hk.within x hx
  refine ⟨r, hr, ?_⟩
  rw [State.heldTags, removeEntries_entries] at hx
  obtain ⟨e, he, rfl⟩ := List.mem_map.mp hx
  obtain ⟨he, hng⟩ := List.mem_filter.mp he
  rw [removeEntries_idx] at hr
  rw [posOf_congr (a := s) (by simp)]
  by_contra hlt
  simp [hg e he r hr (by omega)] at hng

theorem retireEntries_rangeOk {k : Nat} {s : State} (h : RangeOk k s) : RangeOk 0 (retireEntries s) := by
  unfold retireEntries
  split
  · rename_i r hr
    exact h.retire fun e _ q hq hlt => by rw [hr] at hq; cases hq; simpa using hlt
  · rename_i hn
    refine ⟨h.toLimitsOk, h.sorted, fun x hx => ?_⟩
    obtain ⟨r, hr, -⟩ := h.within x hx
    rw [hn] at hr
    cases hr

theorem rangeOk_sortIndexEvent {k : Nat} {s : State} (h : RangeOk k s) : RangeOk 0 (sortIndexEvent s) := by
  unfold sortIndexEvent
  have h1 := (((cutAll_shrinks s).trans (dropPassed_shrinks _)).trans (decideUnit_shrinks _)).rangeOk h
  have h2 : RangeOk 0 (removeEntries (decideUnit (dropPassed (cutAll s))).leavesSort (decideUnit (dropPassed (cutAll s)))) :=
    h1.retire fun e _ r hr hlt => by unfold State.leavesSort; rw [hr, Bool.or_eq_true]; exact .inl (by simpa using hlt)
  exact (Shrinks.of_table (by simp)).rangeOk h2

/-- R21, R27: the unit at the own position is in range. -/
theorem LimitsOk.own_inRange {s : State} (h : LimitsOk s) {p : Nat} (hp : s.position = some p) :
    s.classify (s.idx.count - BitVec.ofNat 16 p) = .inRange := by
  obtain ⟨h31, r, hr, hle⟩ := h.position_le hp
  rw [classify_inRange_iff, posOf_sub s (by omega)]
  exact ⟨by omega, r, hr, hle⟩

theorem rangeOk_markMeasuring {k : Nat} {s : State} (tag : BitVec 16) (st : Option PageStamp) (b : Bool) (hin : s.classify tag = .inRange)
    (h : RangeOk k s) : RangeOk k (markMeasuring tag st b s) := by
  unfold markMeasuring
  split
  · exact h.addEntry hin ‹_›
  · exact (setStage_shrinks _ _ s).rangeOk h

theorem rangeOk_unitMarked {k : Nat} {s : State} (tag : BitVec 16) (hin : s.classify tag = .inRange) (h : RangeOk k s) :
    RangeOk k (unitMarked tag s) := by
  have hm := rangeOk_markMeasuring tag none false hin h
  unfold unitMarked assumePage
  split
  · exact hm
  · split
    · exact (modifyEntry_shrinks (by intro e; split <;> rfl) _).rangeOk hm
    · exact hm

theorem rangeOk_startSequence {j : Nat} (k : WorkKind) (tag : BitVec 16) (st : PageStamp) (b : Bool) : Keeps (RangeOk j) (startSequence k tag st b) :=
  fun _ h => (Shrinks.of_table (by simp)).rangeOk h

theorem rangeOk_takeWork {k : Nat} : Keeps (RangeOk k) takeWork := by
  intro s h
  rcases takeWork_cases s with e | ⟨p, hp, -, -, ht⟩
  · rw [e]; exact h
  · have hin := h.toLimitsOk.own_inRange hp
    rcases ht with e | ⟨-, e⟩ | ⟨_, -, e⟩ | e | e <;> rw [e]
    · exact h
    · exact rangeOk_startSequence _ _ _ _ _ (rangeOk_markMeasuring _ _ _ hin h)
    · rcases startUnit_cases (s.idx.count - BitVec.ofNat 16 p) s with ⟨_, _, hu⟩ | ⟨_, hu⟩ <;> rw [hu]
      · exact rangeOk_startSequence _ _ _ _ _ (rangeOk_unitMarked _ hin h)
      · exact rangeOk_deliverValue _ _ (rangeOk_unitMarked _ hin h)
    · unfold startCheck
      dsimp only
      split
      · exact rangeOk_startSequence _ _ _ _ _ ((setStage_shrinks _ _ s).rangeOk h)
      · exact (setStage_shrinks _ _ s).rangeOk h
    · exact (setStage_shrinks _ _ s).rangeOk h

theorem rangeOk_abortRunning {k : Nat} : Keeps (RangeOk k) abortRunning := fun s h =>
  (Shrinks.of_table (by simp [abortRunning]) (by simp [abortRunning]) (by simp [abortRunning])).rangeOk (rangeOk_endRunning .aborted s h)

theorem rangeOk_indexEffect (pins : BitVec 2) : Keeps (RangeOk 0) (indexEffect pins) := by
  intro s h
  have hc : RangeOk 1 (counted pins s) := 
    (Shrinks.of_table (by simp [counted]) (by simp [counted]) (by simp [counted]) (by simp [counted]) (by simp [counted]) (by simp [counted])).rangeOk
      h.countEdge
  have ha := rangeOk_abortRunning _ hc
  rw [indexEffect_eq]
  split
  · exact rangeOk_sortIndexEvent ha
  · exact rangeOk_takeWork _ (retireEntries_rangeOk ha)

/-! ### The realign (R16, R37) -/

/-- R37: the entries in range under the moved count keep their order. -/
theorem RangeOk.realigned {s : State} (d : BitVec 16) (h : RangeOk 0 s) : RangeOk 0 (realignTable (forgetOffsets (moveCount d s))) := by
  let a := forgetOffsets (moveCount d s)
  have hpos : ∀ x, a.posOf x = (s.posOf x + d.toNat) % 65536 := fun x => by
    have e : a.idx.count = s.idx.count + d := by simp [a, moveCount]
    rw [State.posOf, e, toNat_add_sub, State.posOf]
  have htags : (realignTable a).heldTags = s.heldTags.filter (fun x => a.classify x == .inRange) := by
    have : (realignTable a).heldTags = ((a.table.entries.filter (fun e => !(a.classify e.tag != .inRange))).map (fun e => { e with doubt := true })).map Entry.tag := rfl
    rw [this, List.map_map, State.heldTags, List.filter_map]
    have ht : a.table = s.table := by simp [a]
    rw [ht]
    congr 1
    refine List.filter_congr fun e _ => ?_
    simp [bne]
  have hcount : (realignTable a).idx = a.idx := by simp
  have hpos' : ∀ x, (realignTable a).posOf x = a.posOf x := posOf_congr (by rw [hcount])
  have hlim : a.idx.retireLimit = s.idx.retireLimit := by simp [a]
  have hin : ∀ x ∈ (realignTable a).heldTags, x ∈ s.heldTags ∧ ∃ r, s.idx.retireLimit = some r ∧ a.posOf x ≤ r := by
    intro x hx
    rw [htags, List.mem_filter, beq_iff_eq, classify_inRange_iff, hlim] at hx
    exact ⟨hx.1, hx.2.2⟩
  have hlimits : LimitsOk (realignTable a) :=
    ⟨by simpa [a] using h.limit, by simpa [a] using h.position, by simpa [a] using h.gatePos⟩
  refine ⟨hlimits, ?_, fun x hx => ?_⟩
  · refine (h.sorted.sublist (htags ▸ List.filter_sublist)).imp_of_mem fun {x y} hx hy hxy => ?_
    obtain ⟨hx, r, hr, hxr⟩ := hin x hx
    obtain ⟨hy, q, hq, hyq⟩ := hin y hy
    rw [hr] at hq
    cases hq
    have h31 := h.toLimitsOk.limit_le hr
    have hx31 := h.pos_le hx
    have hy31 := h.pos_le hy
    show (realignTable a).posOf y < (realignTable a).posOf x
    rw [hpos] at hxr hyq
    rw [hpos', hpos', hpos, hpos]
    omega
  · obtain ⟨-, r, hr, hle⟩ := hin x hx
    exact ⟨r, by rw [hcount, hlim, hr], (hpos' x).trans_le hle⟩

/-! ### SETUP (R4, R5, R175) -/

/-- R5, R34: with items in their ranges, a new retire limit leaves a sound table. -/
theorem rangeOk_recomputeRetire {s : State} (hp : ∀ p, s.ctl.items.position = some p → p ≤ 31) (hg : ∀ g : Fin 16, s.ctl.items.gatePos[g] ≤ 31)
    (hs : s.heldTags.Pairwise (fun a b => s.posOf b < s.posOf a)) (hn : s.ctl.items.position = none → s.heldTags = []) :
    RangeOk 0 (recomputeRetire s) := by
  have hk : ∀ r, retireLimitOf s.ctl.role s.ctl.items = some r →
      ∃ k, RangeOk k (s.withIdx { s.idx with retireLimit := retireLimitOf s.ctl.role s.ctl.items }) := fun r hr =>
    ⟨65536, ⟨rfl, hp, hg⟩, hs, fun x _ => ⟨r, hr, by have := posOf_lt (s.withIdx { s.idx with retireLimit := retireLimitOf s.ctl.role s.ctl.items }) x; omega⟩⟩
  unfold recomputeRetire
  dsimp only
  split
  · rename_i hlim
    have hpos : s.ctl.items.position = none := by
      by_contra hsome
      obtain ⟨p, hp⟩ := Option.ne_none_iff_exists'.mp hsome
      rw [retireLimitOf, hp] at hlim
      dsimp only at hlim
      split at hlim <;> cases hlim
    exact ⟨⟨rfl, hp, hg⟩, hs, fun x hx => absurd (show x ∈ s.heldTags from hx) (by rw [hn hpos]; simp)⟩
  · rename_i r hlim
    obtain ⟨k, hk⟩ := hk r hlim
    exact hk.retire fun e _ q hq hlt => by simp only [State.withIdx_idx, hlim] at hq; cases hq; simpa using hlt

theorem clampGatePos_le (p : Option Nat) (v : Dev) : clampGatePos p v ≤ 31 := by
  unfold clampGatePos
  split <;> omega

theorem rangeOk_setPosition (v : Dev) : Keeps (RangeOk 0) (setPosition v) := by
  intro s h
  refine rangeOk_recomputeRetire (fun p hp => ?_) h.gatePos h.sorted (by simp [setItems, writePosition])
  cases hp
  unfold clampUnsigned
  split <;> omega

theorem rangeOk_setGatePos (g : Fin 16) (v : Dev) : Keeps (RangeOk 0) (setGatePos g v) := by
  intro s h
  refine rangeOk_recomputeRetire h.position (fun k => ?_) h.sorted (fun hn => ?_)
  · simp only [setItems, writeGatePos, State.withCtl_ctl, Fin.getElem_fin, Vector.getElem_set]
    split
    · exact clampGatePos_le _ _
    · exact h.gatePos k
  · refine List.eq_nil_iff_forall_not_mem.mpr fun x hx => ?_
    obtain ⟨r, hr, -⟩ := h.within x hx
    have hpos : s.ctl.items.position = none := hn
    rw [h.limit, retireLimitOf, hpos] at hr
    cases hr

/-! ### Every step -/

/-- An operation on other parts. -/
theorem rangeOk_of_table {k : Nat} {f : State → State} (ht : ∀ s, (f s).table.entries = s.table.entries) (hc : ∀ s, (f s).idx.count = s.idx.count)
    (hl : ∀ s, (f s).idx.retireLimit = s.idx.retireLimit) (hr : ∀ s, (f s).ctl.role = s.ctl.role)
    (hi : ∀ s, (f s).ctl.items = s.ctl.items) : Keeps (RangeOk k) f := fun s h =>
  (Shrinks.of_table (ht s) (hc s) (hl s) (hr s) (by rw [hi]) (by rw [hi])).rangeOk h

theorem rangeOk_endPhase {k : Nat} (c : Ctx) (avg : Pair) : Keeps (RangeOk k) (endPhase c avg) := by
  intro s h
  unfold endPhase
  split
  · exact (Shrinks.of_table (by simp)).rangeOk h
  · split
    · exact rangeOk_deliverEntry _ _ ((Shrinks.of_table (by simp)).rangeOk h)
    · exact (Shrinks.of_table (by simp)).rangeOk h

theorem rangeOk_endContactTest {k : Nat} (m : Nat) : Keeps (RangeOk k) (endContactTest m) := by
  intro s h
  unfold endContactTest
  split
  · exact h
  · split
    · split
      · exact (Shrinks.of_table (by simp)).rangeOk h
      · exact rangeOk_endEarly _ _ s h
      · exact rangeOk_endEarly _ _ s h
    · exact (Shrinks.of_table (by simp)).rangeOk h

theorem rangeOk_endConversion {k : Nat} (x y : BitVec 24) : Keeps (RangeOk k) (endConversion x y) := by
  intro s h
  unfold endConversion
  dsimp only
  split
  · exact h
  · split
    · exact (Shrinks.of_table (by simp)).rangeOk h
    · rename_i c _ _
      split
      · exact (Shrinks.of_table (by simp)).rangeOk (rangeOk_endEarly (.overload (x == 0x7FFFFF#24)) c s h)
      · split
        · exact (Shrinks.of_table (by simp)).rangeOk h
        · exact rangeOk_endPhase _ _ s h

theorem rangeOk_endTemperature {k : Nat} (r : BitVec 12) : Keeps (RangeOk k) (endTemperature r) := by
  intro s h
  unfold endTemperature computeRelease
  dsimp only
  split
  · exact h
  · split
    · exact (Shrinks.of_table (by simp)).trans (setStage_shrinks _ _ _) |>.rangeOk h
    · exact rangeOk_deliverValue _ _ ((Shrinks.of_table (by simp)).rangeOk h)
    · exact rangeOk_deliverValue _ _ ((Shrinks.of_table (by simp)).rangeOk h)

theorem rangeOk_expireLimit {k : Nat} : Keeps (RangeOk k) expireLimit := by
  intro s h
  have hout : ∀ c, RangeOk k (timeOut c s) := by
    intro c
    unfold timeOut
    split
    · exact rangeOk_endEarly _ _ s h
    · exact rangeOk_endEarly _ _ _ ((Shrinks.of_table (by simp)).rangeOk h)
  unfold expireLimit
  split
  · rename_i c _
    split
    · exact (Shrinks.of_table (by simp)).rangeOk (hout c)
    · exact h
  · exact h

theorem rangeOk_startUp (t : Instant) (cause : HardCause) (node role : BitVec 3) (page : BitVec 2) (s : State) :
    RangeOk 0 (startUp (clearAll t cause node role page s)) := by
  have hc : RangeOk 0 (clearAll t cause node role page s) :=
    ⟨⟨rfl, (fun _ h => by cases h), fun g => by simp [clearAll, State.cleared, Items.cleared]⟩, List.Pairwise.nil, fun _ h => by cases h⟩
  exact (Shrinks.of_table (by simp)).rangeOk hc

theorem rangeOk_kept : StepKept (RangeOk 0) where
  same _ _ h := (Shrinks.of_table h.entries (by rw [h.idx]) (by rw [h.idx]) h.role h.position h.gatePos).rangeOk
  hail _ _ := (Shrinks.of_table (by simp)).rangeOk
  expireHail _ := (Shrinks.of_table (by simp)).rangeOk
  station _ _ _ _ := (Shrinks.of_table (by simp)).rangeOk
  position v s _ := rangeOk_setPosition v s
  gatePos g v s _ := rangeOk_setGatePos g v s
  index := rangeOk_indexEffect
  reset := rangeOk_startUp
  endSettle _ := (Shrinks.of_table (by simp)).rangeOk
  endContactTest := rangeOk_endContactTest
  endOffInterval _ := (Shrinks.of_table (by simp)).rangeOk
  endConversion := rangeOk_endConversion
  endGap _ := (Shrinks.of_table (by simp)).rangeOk
  endTemperature := rangeOk_endTemperature
  expireLimit := rangeOk_expireLimit
  expireDelay _ _ := (Shrinks.of_table (by simp)).rangeOk
  expirePullIn g s := by
    unfold expirePullIn
    split
    · split
      · exact id
      · split
        · exact (Shrinks.of_table (by simp)).rangeOk
        · exact (endPulse_shrinks _ _ s).rangeOk
    all_goals exact id
  expirePulse g s := by
    unfold expirePulse
    split
    all_goals first
      | exact id
      | (split <;> [exact (endPulse_shrinks _ _ s).rangeOk; exact id])
  fault _ _ := (Shrinks.of_table (by simp)).rangeOk
  discard _ := (Shrinks.of_table (by simp)).rangeOk
  mute s _ := (muteGates_shrinks s).rangeOk
  realign d s _ h := (dropPassed_shrinks _).rangeOk (rangeOk_endRunning .doubt _ (h.realigned d))
  entry r s _ := rangeOk_putEntryRecord r s
  value tag k v s _ := rangeOk_putValue tag k v s
  restart s _ h := by
    have ht : (restartClears s).table.entries = [] := by simp [restartClears, emptyTable]
    refine Shrinks.rangeOk (a := s) ⟨by rw [State.heldTags, ht]; exact List.nil_sublist _, ?_, ?_, ?_, ?_, ?_⟩ h <;> simp

/-- Settles O56: order and range of the table are kept by every operation that a command is made of. -/
theorem stepKeepsTable : Obligations.StepKeepsTable := by
  unfold Obligations.StepKeepsTable
  intro s u hs he
  exact (tableOk_iff u).mpr (rangeOk_kept.step ((tableOk_iff s).mp hs) he)

end Sys2Proof.Machine
end

section
/-! What the acts of the Gate Scheduler do to the firing list, the drivers, the entries and the flags, said once each (R120, R126, R128 to R132). -/

namespace Sys2Proof.Machine

/-! ### Folds that filter a list -/

/-- A fold whose every step filters a list filters it by all of its steps. -/
theorem foldl_filters {α β : Type} {op : State → α → State} (g : State → List β) (keep : α → β → Bool)
    (h : ∀ s x, g (op s x) = (g s).filter (keep x)) (l : List α) (s : State) :
    g (l.foldl op s) = (g s).filter (fun y => l.all (fun x => keep x y)) := by
  induction l generalizing s with
  | nil => simp
  | cons x xs ih => rw [List.foldl_cons, ih, h, List.filter_filter]; simp [Bool.and_comm]

/-- Firings of distinct tags: the tags of those that `p` names are the tags of no other. -/
theorem filter_tag_of_nodup {l : List Firing} (hn : (l.map Firing.tag).Nodup) (p : Firing → Bool) :
    l.filter (fun f => (l.filter p).all (fun x => f.tag != x.tag)) = l.filter (fun f => !p f) := by
  refine List.filter_congr fun f hf => ?_
  rw [Bool.eq_iff_iff, List.all_eq_true, Bool.not_eq_true']
  constructor
  · intro h
    by_contra hp
    simpa using h f (List.mem_filter.mpr ⟨hf, by simpa using hp⟩)
  · intro hp x hx
    obtain ⟨hxl, hpx⟩ := List.mem_filter.mp hx
    rw [bne_iff_ne]
    intro he
    rw [List.inj_on_of_nodup_map hn hf hxl he, hpx] at hp
    cases hp

/-! ### Cutting off, dropping, starting -/

@[simp] theorem cutFiring_firings (s : State) (f : Firing) : (cutFiring s f).gates.firings = s.gates.firings.filter (fun x => x.tag != f.tag) := by
  simp [cutFiring, dropFiring]

@[simp] theorem missFiring_firings (s : State) (f : Firing) : (missFiring s f).gates.firings = s.gates.firings.filter (fun x => x.tag != f.tag) := by
  simp [missFiring, dropFiring]

@[simp] theorem cutFiring_drivers (s : State) (f : Firing) : (cutFiring s f).gates.drivers = s.gates.drivers.set f.gate .idle := by
  simp [cutFiring, setDriver]

theorem cutFiring_entries (s : State) (f : Firing) : (cutFiring s f).table.entries = s.table.entries.filter (fun e => e.tag != f.tag) := by
  simp [cutFiring, removeTag_entries]

theorem missFiring_entries (s : State) (f : Firing) : (missFiring s f).table.entries = s.table.entries.filter (fun e => e.tag != f.tag) := by
  simp [missFiring, removeTag_entries]

/-- R131: cutting off takes firings off the list and their gates' drivers to IDLE. -/
theorem foldl_cutFiring_drivers (l : List Firing) (s : State) (g : Fin 16) :
    (l.foldl cutFiring s).gates.drivers[g] = if ∃ f ∈ l, f.gate = g then .idle else s.gates.drivers[g] := by
  induction l generalizing s with
  | nil => simp
  | cons f l ih =>
    rw [List.foldl_cons, ih, cutFiring_drivers]
    simp only [Fin.getElem_fin, Vector.getElem_set, List.exists_mem_cons_iff, Fin.val_inj]
    by_cases h1 : ∃ f ∈ l, f.gate = g <;> by_cases h2 : f.gate = g <;> simp [h1, h2]

/-- R128 step 1: the WAITING firings stay. -/
theorem cutAll_firings {s : State} (hn : (s.gates.firings.map Firing.tag).Nodup) :
    (cutAll s).gates.firings = s.gates.firings.filter (fun f => f.stage == .waiting) := by
  have hfold := foldl_filters (fun s => s.gates.firings) (fun x y : Firing => y.tag != x.tag) cutFiring_firings
    (s.gates.firings.filter (fun f => f.stage != .waiting)) s
  rw [filter_tag_of_nodup hn, show (fun f : Firing => !(f.stage != .waiting)) = (fun f => f.stage == .waiting) by simp [bne]] at hfold
  unfold cutAll
  dsimp only
  split
  · rename_i he
    rw [List.isEmpty_iff, List.filter_eq_nil_iff] at he
    rw [List.filter_eq_self.mpr]
    intro f hf
    simpa using he f hf
  · simpa using hfold

/-- R132: of the firings those stay that are in progress or have not passed their gate. -/
theorem dropPassed_firings {s : State} (hn : (s.gates.firings.map Firing.tag).Nodup) :
    (dropPassed s).gates.firings = s.gates.firings.filter (fun f => !(f.stage == .waiting && s.passedGate f)) := by
  have hfold := foldl_filters (fun s => s.gates.firings) (fun x y : Firing => y.tag != x.tag) missFiring_firings
    (s.gates.firings.filter (fun f => f.stage == .waiting && s.passedGate f)) s
  rw [filter_tag_of_nodup hn] at hfold
  exact hfold

/-- R129: the driver of a firing that falls due. -/
def startedDriver (s : State) (f : Firing) : Driver :=
  if s.ctl.items.fireDelay = 0 then
    .pullIn f.tag (s.now + us (100 * min s.ctl.items.pullIn s.ctl.items.pulseWidth)) (s.now + us (100 * s.ctl.items.pulseWidth))
  else .delay f.tag (s.now + us (100 * s.ctl.items.fireDelay))

/-- R129: the stage of a firing that falls due. -/
def startedStage (s : State) : FiringStage := if s.ctl.items.fireDelay = 0 then .pullIn else .delay

theorem startedStage_ne_waiting (s : State) : startedStage s ≠ .waiting := by
  unfold startedStage
  split <;> simp

theorem startFiring_eq (f : Firing) (s : State) :
    startFiring f s
      = s.withGates
          { s.gates with
            drivers := s.gates.drivers.set f.gate (startedDriver s f)
            firings := s.gates.firings.map (fun x => if x.tag == f.tag then { x with stage := startedStage s } else x) } := by
  unfold startFiring startedDriver startedStage
  split <;> rfl

theorem startedDriver_congr {a b : State} (hn : b.now = a.now) (hi : b.ctl.items = a.ctl.items) : startedDriver b = startedDriver a := by
  funext f
  simp [startedDriver, hn, hi]

theorem startedStage_congr {a b : State} (hi : b.ctl.items = a.ctl.items) : startedStage b = startedStage a := by simp [startedStage, hi]

/-- R129: the firings that start enter their stage, the others keep theirs. -/
theorem foldl_startFiring_firings (l : List Firing) (s : State) :
    (l.foldl (fun a f => startFiring f a) s).gates.firings
      = s.gates.firings.map (fun x => if l.any (fun f => x.tag == f.tag) then { x with stage := startedStage s } else x) := by
  induction l generalizing s with
  | nil => simp
  | cons f l ih =>
    rw [List.foldl_cons, ih, startedStage_congr (a := s) (by simp), startFiring_eq, State.withGates_gates, List.map_map]
    refine List.map_congr_left fun x _ => ?_
    by_cases h1 : x.tag == f.tag <;> by_cases h2 : l.any (fun f => x.tag == f.tag) <;> simp_all

/-- R129: a gate at which nothing starts keeps its driver. -/
theorem foldl_startFiring_drivers_other (l : List Firing) (s : State) {g : Fin 16} (h : ∀ f ∈ l, f.gate ≠ g) :
    (l.foldl (fun a f => startFiring f a) s).gates.drivers[g] = s.gates.drivers[g] := by
  induction l generalizing s with
  | nil => rfl
  | cons f l ih =>
    rw [List.foldl_cons, ih _ fun x hx => h x (List.mem_cons_of_mem _ hx), startFiring_eq]
    have hne : f.gate.val ≠ g.val := fun he => h f List.mem_cons_self (Fin.ext he)
    simp [hne]

/-- R129: of firings at different gates each has its gate's driver. -/
theorem foldl_startFiring_drivers (l : List Firing) (s : State) (hl : (l.map Firing.gate).Nodup) {f : Firing} (hf : f ∈ l) :
    (l.foldl (fun a f => startFiring f a) s).gates.drivers[f.gate] = startedDriver s f := by
  induction l generalizing s with
  | nil => cases hf
  | cons x l ih =>
    obtain ⟨hx, hl⟩ := List.nodup_cons.mp hl
    rw [List.foldl_cons]
    rcases List.mem_cons.mp hf with rfl | hf
    · rw [foldl_startFiring_drivers_other _ _ fun y hy he => hx (List.mem_map.mpr ⟨y, hy, he⟩), startFiring_eq]
      simp
    · rw [ih _ hl hf, startedDriver_congr (a := s) (by simp) (by simp)]

/-- R128 step 4: the WAITING firings whose unit stands at its gate. -/
def State.dueFirings (s : State) : List Firing := s.gates.firings.filter (fun f => f.stage == .waiting && s.posOf f.tag == s.gatePosOf f.gate)

theorem startDue_eq (s : State) :
    startDue s
      = if s.dueFirings = [] then s else setFiringReq true (s.dueFirings.foldl (fun a f => startFiring f a) s) := by
  unfold startDue
  dsimp only
  rw [show s.gates.firings.filter (fun f => f.stage == .waiting && s.posOf f.tag == s.gatePosOf f.gate) = s.dueFirings from rfl]
  by_cases h : s.dueFirings = [] <;> simp [h]

theorem mem_dueFirings {s : State} {f : Firing} :
    f ∈ s.dueFirings ↔ f ∈ s.gates.firings ∧ f.stage = .waiting ∧ s.posOf f.tag = s.gatePosOf f.gate := by
  simp [State.dueFirings]

/-- R128 step 4: a WAITING firing whose unit stands at its gate starts, every other stays as it is. -/
theorem startDue_firings {s : State} (hn : (s.gates.firings.map Firing.tag).Nodup) :
    (startDue s).gates.firings
      = s.gates.firings.map (fun f => if f.stage = .waiting ∧ s.posOf f.tag = s.gatePosOf f.gate then { f with stage := startedStage s } else f) := by
  have hdue : ∀ f ∈ s.gates.firings, s.dueFirings.any (fun x => f.tag == x.tag) = true ↔ f.stage = .waiting ∧ s.posOf f.tag = s.gatePosOf f.gate := by
    intro f hf
    rw [List.any_eq_true]
    constructor
    · rintro ⟨x, hx, he⟩
      obtain ⟨hxl, hw, hp⟩ := mem_dueFirings.mp hx
      rw [List.inj_on_of_nodup_map hn hf hxl (beq_iff_eq.mp he)]
      exact ⟨hw, hp⟩
    · exact fun h => ⟨f, mem_dueFirings.mpr ⟨hf, h.1, h.2⟩, by simp⟩
  rw [startDue_eq]
  split
  · rename_i he
    symm
    refine (List.map_congr_left fun f hf => ?_).trans (List.map_id _)
    rw [if_neg]
    · rfl
    · rw [← hdue f hf, he]
      simp
  · rw [setFiringReq_gates, foldl_startFiring_firings]
    refine List.map_congr_left fun f hf => ?_
    simp only [hdue f hf]

/-- R120: where distinct tags stand at one position only one stands, so firings due at one event are at different gates. -/
theorem dueFirings_gates_nodup {s : State} (hn : (s.gates.firings.map Firing.tag).Nodup) : (s.dueFirings.map Firing.gate).Nodup := by
  refine List.Nodup.map_on (fun x hx y hy he => ?_) ((List.Nodup.of_map _ hn).filter _)
  obtain ⟨hx, -, hpx⟩ := mem_dueFirings.mp hx
  obtain ⟨hy, -, hpy⟩ := mem_dueFirings.mp hy
  exact List.inj_on_of_nodup_map hn hx hy (posOf_inj (by rw [hpx, hpy, he]))

/-- R129: the driver of a gate at which a firing falls due. -/
theorem startDue_driver_due {s : State} (hn : (s.gates.firings.map Firing.tag).Nodup) {f : Firing} (hf : f ∈ s.dueFirings) :
    (startDue s).gates.drivers[f.gate] = startedDriver s f := by
  rw [startDue_eq, if_neg (List.ne_nil_of_mem hf), setFiringReq_gates]
  exact foldl_startFiring_drivers _ _ (dueFirings_gates_nodup hn) hf

/-- R129: the other drivers stay as they are. -/
theorem startDue_driver_other {s : State} {g : Fin 16} (hg : ∀ f ∈ s.dueFirings, f.gate ≠ g) : (startDue s).gates.drivers[g] = s.gates.drivers[g] := by
  rw [startDue_eq]
  split
  · rfl
  · exact foldl_startFiring_drivers_other _ _ hg

/-- R12: the firing request stands from the first firing that starts. -/
theorem startDue_firingReq (s : State) : (startDue s).idx.firingReq = (s.idx.firingReq || !s.dueFirings.isEmpty) := by
  rw [startDue_eq]
  split
  · rename_i h
    simp [h]
  · rename_i h
    simp [setFiringReq, h]

/-! ### Scheduling -/

/-- R120: a firing is placed among the others. -/
theorem insertFiring_perm (le : Firing → Firing → Bool) (f : Firing) (l : List Firing) : (insertFiring le f l).Perm (f :: l) := by
  induction l with
  | nil => exact .refl _
  | cons x xs ih =>
    unfold insertFiring
    split
    · exact (ih.cons x).trans (.swap f x xs)
    · exact .refl _

/-- R120: in an ordered list a firing is placed in order. -/
theorem insertFiring_pairwise {r : Firing → Firing → Prop} {le : Firing → Firing → Bool} {f : Firing} {l : List Firing} (hl : l.Pairwise r)
    (hle : ∀ x ∈ l, le x f = true → r x f) (hnle : ∀ x ∈ l, le x f = false → r f x)
    (ht : ∀ x ∈ l, ∀ y ∈ l, r f x → r x y → r f y) : (insertFiring le f l).Pairwise r := by
  induction l with
  | nil => exact List.pairwise_singleton _ _
  | cons x xs ih =>
    obtain ⟨hx, hxs⟩ := List.pairwise_cons.mp hl
    unfold insertFiring
    split
    · rename_i hc
      refine List.pairwise_cons.mpr ⟨fun y hy => ?_, ih hxs (fun z hz => hle z (List.mem_cons_of_mem _ hz))
        (fun z hz => hnle z (List.mem_cons_of_mem _ hz))
        fun z hz w hw => ht z (List.mem_cons_of_mem _ hz) w (List.mem_cons_of_mem _ hw)⟩
      rcases List.mem_cons.mp ((insertFiring_perm le f xs).subset hy) with rfl | hy
      · exact hle x List.mem_cons_self hc
      · exact hx y hy
    · rename_i hc
      have hfx : r f x := hnle x List.mem_cons_self (by simpa using hc)
      refine List.pairwise_cons.mpr ⟨fun y hy => ?_, hl⟩
      rcases List.mem_cons.mp hy with rfl | hy
      · exact hfx
      · exact ht x List.mem_cons_self y (List.mem_cons_of_mem _ hy) hfx (hx y hy)

theorem firingOf_none_iff (s : State) (x : BitVec 16) : s.firingOf x = none ↔ ∀ f ∈ s.gates.firings, f.tag ≠ x := by simp [State.firingOf]

/-- R126: what scheduling does to the list: a firing joins where the tag has none and the list has room. -/
theorem schedule_firings (tag : BitVec 16) (o : Fin 16) (page : Option (Fin 4)) (s : State) :
    (schedule tag o page s).gates.firings
      = if s.firingOf tag = none ∧ s.gates.firings.length < 32 then
          insertFiring s.firesBefore { tag := tag, gate := o, page := page, stage := .waiting } s.gates.firings
        else s.gates.firings := by
  unfold schedule
  split
  · rename_i h
    rw [if_neg]
    rintro ⟨hn, -⟩
    rw [hn] at h
    cases h
  · rename_i h
    have hn : s.firingOf tag = none := by simpa using h
    split
    · rename_i hc
      rw [if_neg fun hh => absurd hh.2 (Nat.not_lt.mpr hc), raise_gates]
    · rename_i hc
      rw [if_pos ⟨hn, Nat.not_le.mp hc⟩, State.withGates_gates]

end Sys2Proof.Machine
end

section
/-! Settles O55: firings, drivers and the firing request stay matched, and the firings stay in due order. -/

namespace Sys2Proof.Machine

/-! ### Firings and drivers matched (R12, R120) -/

theorem GatesOk.congr {a b : State} (hf : b.gates.firings = a.gates.firings) (hd : b.gates.drivers = a.gates.drivers)
    (hr : b.idx.firingReq = a.idx.firingReq) (h : GatesOk a) : GatesOk b := by
  unfold GatesOk
  rw [hf, hd, hr]
  exact h

theorem GatesOk.nodup {s : State} (h : GatesOk s) : (s.gates.firings.map Firing.tag).Nodup := h.2.1

/-- Two firings of one tag are one firing. -/
theorem GatesOk.tag_inj {s : State} (h : GatesOk s) {f g : Firing} (hf : f ∈ s.gates.firings) (hg : g ∈ s.gates.firings) (he : f.tag = g.tag) :
    f = g := List.inj_on_of_nodup_map h.nodup hf hg he

theorem GatesOk.empty {s : State} (hf : s.gates.firings = []) (hd : s.gates.drivers = Vector.replicate 16 .idle) (hr : s.idx.firingReq = false) :
    GatesOk s := by
  unfold GatesOk
  rw [hf, hd, hr]
  refine ⟨by simp, by simp, by simp, fun g hg => absurd ?_ hg, by simp⟩
  simp

/-- R120: a driver serves no WAITING firing, and an IDLE one serves none. -/
theorem serves_tag {d : Driver} {f : Firing} (h : serves d f) : f.stage ≠ .waiting ∧ d.tag = some f.tag := by
  unfold serves at h
  split at h
  all_goals first
    | (rename_i hs; subst h; exact ⟨by rw [hs]; simp, rfl⟩)
    | exact h.elim

/-- The firing that a driver serves. -/
theorem GatesOk.served {s : State} (h : GatesOk s) {g : Fin 16} {tag : BitVec 16} (hd : s.gates.drivers[g].tag = some tag) :
    ∃ f ∈ s.gates.firings, f.gate = g ∧ f.tag = tag ∧ serves s.gates.drivers[g] f := by
  have hne : s.gates.drivers[g] ≠ .idle := by
    intro hi
    rw [hi] at hd
    cases hd
  obtain ⟨f, hf, hg, hs⟩ := h.2.2.2.1 g hne
  rw [(serves_tag hs).2] at hd
  exact ⟨f, hf, hg, by injection hd, hs⟩

/-- R132: WAITING firings may leave. -/
theorem GatesOk.drop {a b : State} (h : GatesOk a) {keep : Firing → Bool} (hf : b.gates.firings = a.gates.firings.filter keep)
    (hk : ∀ f ∈ a.gates.firings, f.stage ≠ .waiting → keep f = true) (hd : b.gates.drivers = a.gates.drivers) (hr : b.idx.firingReq = a.idx.firingReq) :
    GatesOk b := by
  obtain ⟨hlen, hn, hserved, hserving, hreq⟩ := h
  unfold GatesOk
  rw [hf, hd, hr]
  refine ⟨(List.length_filter_le _ _).trans hlen, hn.sublist (List.filter_sublist.map _), fun f hf => hserved f (List.mem_filter.mp hf).1,
    fun g hg => ?_, ?_⟩
  · obtain ⟨f, hf, hfg, hs⟩ := hserving g hg
    exact ⟨f, List.mem_filter.mpr ⟨hf, hk f hf (serves_tag hs).1⟩, hfg, hs⟩
  · rw [hreq, Bool.eq_iff_iff, List.any_eq_true, List.any_eq_true]
    refine exists_congr fun f => ?_
    rw [List.mem_filter, bne_iff_ne]
    exact ⟨fun ⟨hm, hw⟩ => ⟨⟨hm, hk f hm hw⟩, hw⟩, fun ⟨⟨hm, _⟩, hw⟩ => ⟨hm, hw⟩⟩

theorem gatesOk_dropPassed : Keeps GatesOk dropPassed := fun _ h =>
  h.drop (dropPassed_firings h.nodup) (fun _ _ hw => by simp [hw]) (by simp) (by simp)

theorem cutAll_firingReq {s : State} (h : GatesOk s) : (cutAll s).idx.firingReq = false := by
  unfold cutAll
  dsimp only
  split
  · rename_i he
    rw [h.2.2.2.2, ← Bool.not_eq_true, List.any_eq_true]
    rintro ⟨f, hf, hw⟩
    rw [List.isEmpty_iff, List.filter_eq_nil_iff] at he
    exact he f hf hw
  · rfl

/-- R131: after the cut-offs every driver is IDLE. -/
theorem cutAll_drivers {s : State} (h : GatesOk s) (g : Fin 16) : (cutAll s).gates.drivers[g] = .idle := by
  have hfold := foldl_cutFiring_drivers (s.gates.firings.filter (fun f => f.stage != .waiting)) s g
  by_cases hg : s.gates.drivers[g] = .idle
  · unfold cutAll
    dsimp only
    split
    · exact hg
    · refine Eq.trans ?_ (hfold.trans (by simp [hg]))
      rfl
  · obtain ⟨f, hf, hfg, hs⟩ := h.2.2.2.1 g hg
    have hmem : f ∈ s.gates.firings.filter (fun f => f.stage != .waiting) := List.mem_filter.mpr ⟨hf, by simpa using (serves_tag hs).1⟩
    unfold cutAll
    dsimp only
    rw [if_neg (by simpa using List.ne_nil_of_mem hmem)]
    refine Eq.trans ?_ (hfold.trans (if_pos ⟨f, hmem, hfg⟩))
    rfl

/-- R120: a list of WAITING firings, every driver IDLE and the request clear: what the cut-offs leave. -/
structure AllWaiting (s : State) : Prop where
  length : s.gates.firings.length ≤ 32
  nodup : (s.gates.firings.map Firing.tag).Nodup
  waiting : ∀ f ∈ s.gates.firings, f.stage = .waiting
  drivers : ∀ g : Fin 16, s.gates.drivers[g] = .idle
  firingReq : s.idx.firingReq = false

theorem AllWaiting.gatesOk {s : State} (h : AllWaiting s) : GatesOk s := by
  refine ⟨h.length, h.nodup, fun f hf hw => absurd (h.waiting f hf) hw, fun g hg => absurd (h.drivers g) hg, ?_⟩
  rw [h.firingReq, eq_comm, ← Bool.not_eq_true, List.any_eq_true]
  rintro ⟨f, hf, hw⟩
  simp [h.waiting f hf] at hw

theorem GatesOk.cutAll {s : State} (h : GatesOk s) : AllWaiting (cutAll s) where
  length := by rw [cutAll_firings h.nodup]; exact (List.length_filter_le _ _).trans h.1
  nodup := by rw [cutAll_firings h.nodup]; exact h.nodup.sublist (List.filter_sublist.map _)
  waiting f hf := by
    rw [cutAll_firings h.nodup] at hf
    simpa using (List.mem_filter.mp hf).2
  drivers := cutAll_drivers h
  firingReq := cutAll_firingReq h

theorem AllWaiting.dropPassed {s : State} (h : AllWaiting s) : AllWaiting (dropPassed s) where
  length := by rw [dropPassed_firings h.nodup]; exact (List.length_filter_le _ _).trans h.length
  nodup := by rw [dropPassed_firings h.nodup]; exact h.nodup.sublist (List.filter_sublist.map _)
  waiting f hf := by
    rw [dropPassed_firings h.nodup] at hf
    exact h.waiting f (List.mem_filter.mp hf).1
  drivers := by simpa using h.drivers
  firingReq := by simpa using h.firingReq

theorem AllWaiting.congr {a b : State} (h : AllWaiting a) (hf : b.gates.firings = a.gates.firings) (hd : b.gates.drivers = a.gates.drivers)
    (hr : b.idx.firingReq = a.idx.firingReq) : AllWaiting b where
  length := by rw [hf]; exact h.length
  nodup := by rw [hf]; exact h.nodup
  waiting := by rw [hf]; exact h.waiting
  drivers := by rw [hd]; exact h.drivers
  firingReq := by rw [hr]; exact h.firingReq

theorem AllWaiting.schedule {s : State} (h : AllWaiting s) (tag : BitVec 16) (o : Fin 16) (page : Option (Fin 4)) :
    AllWaiting (schedule tag o page s) := by
  by_cases hc : s.firingOf tag = none ∧ s.gates.firings.length < 32
  · have hf := schedule_firings tag o page s
    rw [if_pos hc] at hf
    have hperm := insertFiring_perm s.firesBefore { tag := tag, gate := o, page := page, stage := .waiting } s.gates.firings
    refine ⟨?_, ?_, fun f hm => ?_, by simpa using h.drivers, by simpa using h.firingReq⟩
    · rw [hf, hperm.length_eq]
      exact hc.2
    · rw [hf, (hperm.map _).nodup_iff, List.map_cons, List.nodup_cons]
      refine ⟨fun hm => ?_, h.nodup⟩
      obtain ⟨f, hm, he⟩ := List.mem_map.mp hm
      exact (firingOf_none_iff s tag).mp hc.1 f hm he
    · rw [hf] at hm
      rcases List.mem_cons.mp (hperm.subset hm) with rfl | hm
      · rfl
      · exact h.waiting f hm
  · exact h.congr (by rw [schedule_firings, if_neg hc]) (by simp) (by simp)

/-- R126: what a verdict does to the gates is to schedule a firing. -/
theorem completeVerdict_gates (tag : BitVec 16) (v : Provisional) (s : State) :
    (completeVerdict tag v s).gates.firings
      = (scheduleAt tag (resolveGate s (capacityCheck s v).gate).2.1 (capacityCheck s v).page
          (raiseIf (resolveGate s (capacityCheck s v).gate).2.2 .gateMissed (countVerdict (capacityCheck s v) s))).gates.firings := by
  rw [completeVerdict_eq, offerUnit_gates, modifyEntry_gates]

theorem AllWaiting.scheduleAt {s : State} (h : AllWaiting s) (tag : BitVec 16) (o : Option (Fin 16)) (page : Option (Fin 4)) :
    AllWaiting (scheduleAt tag o page s) := by
  cases o with
  | none => exact h
  | some o => exact h.schedule tag o page

theorem AllWaiting.completeVerdict {s : State} (h : AllWaiting s) (tag : BitVec 16) (v : Provisional) : AllWaiting (completeVerdict tag v s) := by
  rw [completeVerdict_eq]
  have hr : AllWaiting (raiseIf (resolveGate s (capacityCheck s v).gate).2.2 .gateMissed (countVerdict (capacityCheck s v) s)) :=
    h.congr (by simp) (by simp) (by simp)
  exact (hr.scheduleAt tag (resolveGate s (capacityCheck s v).gate).2.1 (capacityCheck s v).page).congr (by simp) (by simp) (by simp)

/-- R113: what is to be decided for a tag: an entry without a verdict by the table of reasons, a tag without entry and firing as NO_ENTRY. -/
def State.provisional (s : State) (tag : BitVec 16) : Option Provisional :=
  match s.entryOf tag with
  | some e => if e.verdict.isSome then none else some (judge s e)
  | none => if (s.firingOf tag).isSome then none else some { page := none, reason := .noEntry, bin := none, gate := s.fallback }

theorem provisional_of_entry {s : State} {tag : BitVec 16} {e : Entry} (he : s.entryOf tag = some e) :
    s.provisional tag = if e.verdict.isSome then none else some (judge s e) := by simp [State.provisional, he]

theorem provisional_of_none {s : State} {tag : BitVec 16} (he : s.entryOf tag = none) :
    s.provisional tag
      = if (s.firingOf tag).isSome then none else some { page := none, reason := .noEntry, bin := none, gate := s.fallback } := by
  simp [State.provisional, he]

/-- R113: the states in which the station decides. -/
def State.mayDecide (s : State) : Prop := s.ctl.activity = .active ∧ (s.ctl.run = .run ∨ s.ctl.run = .halt)

/-- R113: an event decides the unit that has just passed the SORT position, or nothing. -/
theorem decideUnit_cases (s : State) :
    (decideUnit s = s ∧ ∀ p, s.position = some p → s.mayDecide → s.provisional (s.idx.count - BitVec.ofNat 16 p - 1) = none)
      ∨ ∃ p v, s.position = some p ∧ s.mayDecide ∧ s.provisional (s.idx.count - BitVec.ofNat 16 p - 1) = some v
          ∧ decideUnit s = completeVerdict (s.idx.count - BitVec.ofNat 16 p - 1) v s := by
  unfold decideUnit
  split
  · rename_i hp
    exact .inl ⟨rfl, fun p h => by rw [hp] at h; cases h⟩
  · rename_i p hp
    split
    · rename_i ha
      dsimp only
      split
      · rename_i e he
        split
        · rename_i hv
          refine .inl ⟨rfl, fun q hq _ => ?_⟩
          rw [hp] at hq
          cases hq
          rw [provisional_of_entry he, if_pos hv]
        · rename_i hv
          exact .inr ⟨p, _, hp, ha, (provisional_of_entry he).trans (if_neg hv), rfl⟩
      · rename_i he
        split
        · rename_i hf
          refine .inl ⟨rfl, fun q hq _ => ?_⟩
          rw [hp] at hq
          cases hq
          rw [provisional_of_none he, if_pos hf]
        · rename_i hf
          exact .inr ⟨p, _, hp, ha, (provisional_of_none he).trans (if_neg hf), rfl⟩
    · rename_i ha
      exact .inl ⟨rfl, fun _ _ h => absurd h ha⟩

theorem AllWaiting.decideUnit {s : State} (h : AllWaiting s) : AllWaiting (decideUnit s) := by
  rcases decideUnit_cases s with ⟨e, -⟩ | ⟨p, v, -, -, -, e⟩ <;> rw [e]
  · exact h
  · exact h.completeVerdict _ v

/-- R129: the driver of a firing that starts serves it. -/
theorem serves_started (s : State) (f : Firing) : serves (startedDriver s f) { f with stage := startedStage s } := by
  unfold startedDriver startedStage
  split <;> simp [serves]

theorem AllWaiting.startDue {s : State} (h : AllWaiting s) : GatesOk (startDue s) := by
  have hfir := startDue_firings h.nodup
  have hdue : ∀ f ∈ s.gates.firings, (f.stage = .waiting ∧ s.posOf f.tag = s.gatePosOf f.gate) → f ∈ s.dueFirings := fun f hf hp =>
    mem_dueFirings.mpr ⟨hf, hp⟩
  refine ⟨?_, ?_, fun f hf hw => ?_, fun g hg => ?_, ?_⟩
  · rw [hfir, List.length_map]
    exact h.length
  · rw [hfir, List.map_map]
    convert h.nodup using 2
    funext f
    simp only [Function.comp]
    split <;> rfl
  · rw [hfir] at hf
    obtain ⟨x, hx, rfl⟩ := List.mem_map.mp hf
    split at hw
    · rename_i hp
      rw [if_pos hp]
      show serves (Machine.startDue s).gates.drivers[x.gate] _
      rw [startDue_driver_due h.nodup (hdue x hx hp)]
      exact serves_started s x
    · exact absurd (h.waiting x hx) hw
  · by_cases hg' : ∃ f ∈ s.dueFirings, f.gate = g
    · obtain ⟨f, hf, rfl⟩ := hg'
      obtain ⟨hm, hp⟩ := mem_dueFirings.mp hf
      rw [startDue_driver_due h.nodup hf]
      refine ⟨{ f with stage := startedStage s }, ?_, rfl, serves_started s f⟩
      rw [hfir]
      exact List.mem_map.mpr ⟨f, hm, if_pos hp⟩
    · rw [startDue_driver_other fun f hf he => hg' ⟨f, hf, he⟩] at hg
      exact absurd (h.drivers g) hg
  · rw [startDue_firingReq, h.firingReq, Bool.false_or, hfir, Bool.eq_iff_iff, List.any_eq_true]
    constructor
    · intro hne
      obtain ⟨f, hf⟩ := List.exists_mem_of_ne_nil s.dueFirings (by simpa using hne)
      obtain ⟨hm, hp⟩ := mem_dueFirings.mp hf
      exact ⟨_, List.mem_map.mpr ⟨f, hm, rfl⟩, by rw [if_pos hp]; simpa using startedStage_ne_waiting s⟩
    · rintro ⟨f, hf, hw⟩
      obtain ⟨x, hx, rfl⟩ := List.mem_map.mp hf
      split at hw
      · rename_i hp
        simpa using List.ne_nil_of_mem (hdue x hx hp)
      · simp [h.waiting x hx] at hw

/-- R128: the index event of a SORT station up to its decision. -/
theorem GatesOk.decided {s : State} (h : GatesOk s) : AllWaiting (Machine.decideUnit (Machine.dropPassed (Machine.cutAll s))) :=
  h.cutAll.dropPassed.decideUnit

theorem gatesOk_sortIndexEvent : Keeps GatesOk sortIndexEvent := fun _ h => (h.decided.congr (by simp) (by simp) (by simp)).startDue

theorem gatesOk_indexEffect (pins : BitVec 2) : Keeps GatesOk (indexEffect pins) := by
  intro s h
  have ha : GatesOk (abortRunning (counted pins s)) := h.congr (by simp [counted]) (by simp [counted]) (by simp [counted])
  rw [indexEffect_eq]
  split
  · exact gatesOk_sortIndexEvent _ ha
  · exact ha.congr (by simp) (by simp) (by simp)

/-- R129, R130: a firing in progress enters its next stage, and its gate's driver with it. -/
theorem GatesOk.stage {s : State} (h : GatesOk s) {g : Fin 16} {tag : BitVec 16} {st : FiringStage} {d : Driver} (hd : s.gates.drivers[g].tag = some tag)
    (hs : ∀ f : Firing, f.tag = tag → serves d { f with stage := st }) : GatesOk (setFiringStage tag st (setDriver g d s)) := by
  obtain ⟨f0, hf0, hg0, ht0, hs0⟩ := h.served hd
  obtain ⟨hlen, hn, hserved, hserving, hreq⟩ := id h
  have hst : st ≠ .waiting := (serves_tag (hs f0 ht0)).1
  have hgate : ∀ f ∈ s.gates.firings, f.gate ≠ g → f.stage ≠ .waiting → f.tag ≠ tag := fun f hf hne _ he =>
    hne (by rw [h.tag_inj hf hf0 (he.trans ht0.symm), hg0])
  refine ⟨?_, ?_, fun f hf hw => ?_, fun k hk => ?_, ?_⟩
  · simpa [setFiringStage] using hlen
  · simp only [setFiringStage, State.withGates_gates, setDriver_gates_firings, List.map_map]
    convert hn using 2
    funext f
    simp only [Function.comp]
    split <;> rfl
  · simp only [setFiringStage, State.withGates_gates, setDriver_gates_firings] at hf
    obtain ⟨x, hx, rfl⟩ := List.mem_map.mp hf
    by_cases he : x.tag = tag
    · have hxe : x = f0 := h.tag_inj hx hf0 (he.trans ht0.symm)
      subst hxe
      rw [if_pos (by simpa using he)]
      have : (setFiringStage tag st (setDriver g d s)).gates.drivers[x.gate] = d := by simp [setFiringStage, setDriver, hg0]
      show serves (setFiringStage tag st (setDriver g d s)).gates.drivers[x.gate] _
      rw [this]
      exact hs x he
    · rw [if_neg (by simpa using he)] at hw ⊢
      have hne : g ≠ x.gate := by
        intro hge
        have hsx := hserved x hx hw
        subst hge
        rw [(serves_tag hsx).2] at hd
        cases hd
        exact he rfl
      have : (setFiringStage tag st (setDriver g d s)).gates.drivers[x.gate] = s.gates.drivers[x.gate] := by
        simp [setFiringStage, setDriver, Fin.val_inj, hne]
      rw [this]
      exact hserved x hx hw
  · by_cases hkg : g = k
    · subst hkg
      refine ⟨{ f0 with stage := st }, ?_, hg0, ?_⟩
      · simp only [setFiringStage, State.withGates_gates, setDriver_gates_firings]
        exact List.mem_map.mpr ⟨f0, hf0, by rw [if_pos (by simpa using ht0)]⟩
      · have : (setFiringStage tag st (setDriver g d s)).gates.drivers[g] = d := by simp [setFiringStage, setDriver]
        rw [this]
        exact hs f0 ht0
    · have hsame : (setFiringStage tag st (setDriver g d s)).gates.drivers[k] = s.gates.drivers[k] := by
        simp [setFiringStage, setDriver, Fin.val_inj, hkg]
      rw [hsame] at hk ⊢
      obtain ⟨f, hf, hfg, hsf⟩ := hserving k hk
      refine ⟨f, ?_, hfg, hsf⟩
      simp only [setFiringStage, State.withGates_gates, setDriver_gates_firings]
      refine List.mem_map.mpr ⟨f, hf, if_neg ?_⟩
      simpa using hgate f hf (fun he => hkg (by rw [← he, hfg])) (serves_tag hsf).1
  · simp only [setFiringStage, State.withGates_idx, setDriver_idx, State.withGates_gates, setDriver_gates_firings]
    have htrue : s.idx.firingReq = true := by
      rw [hreq, List.any_eq_true]
      exact ⟨f0, hf0, by simpa using (serves_tag hs0).1⟩
    rw [htrue, eq_comm, List.any_eq_true]
    exact ⟨_, List.mem_map.mpr ⟨f0, hf0, rfl⟩, by rw [if_pos (by simpa using ht0)]; simpa using hst⟩

/-- R130: at the end of a pulse driver and firing go together. -/
theorem GatesOk.endPulse {s : State} (h : GatesOk s) {g : Fin 16} {tag : BitVec 16} (hd : s.gates.drivers[g].tag = some tag) :
    GatesOk (endPulse g tag s) := by
  obtain ⟨f0, hf0, hg0, ht0, hs0⟩ := h.served hd
  obtain ⟨hlen, hn, hserved, hserving, hreq⟩ := id h
  have hfir : (Machine.endPulse g tag s).gates.firings = s.gates.firings.filter (fun f => f.tag != tag) := by rw [endPulse_eq]; simp
  have hdrv : (Machine.endPulse g tag s).gates.drivers = s.gates.drivers.set g .idle := by rw [endPulse_eq]; simp
  have htrue : s.idx.firingReq = true := by
    rw [hreq, List.any_eq_true]
    exact ⟨f0, hf0, by simpa using (serves_tag hs0).1⟩
  have hreq' : (Machine.endPulse g tag s).idx.firingReq = (s.gates.firings.filter (fun f => f.tag != tag)).any (fun f => f.stage != .waiting) := by
    rw [endPulse_eq]
    simp only [State.withIdx_idx, htrue, Bool.true_and]
  unfold GatesOk
  rw [hfir, hdrv, hreq']
  refine ⟨(List.length_filter_le _ _).trans hlen, hn.sublist (List.filter_sublist.map _), fun f hf hw => ?_, fun k hk => ?_, rfl⟩
  · obtain ⟨hf, hne⟩ := List.mem_filter.mp hf
    have hsf := hserved f hf hw
    have hgf : g ≠ f.gate := by
      intro hge
      rw [hge, (serves_tag hsf).2] at hd
      cases hd
      simp at hne
    simpa [Vector.getElem_set, Fin.val_inj, hgf] using hsf
  · have hkg : g ≠ k := by
      rintro rfl
      simp at hk
    have hsame : (s.gates.drivers.set g .idle)[k] = s.gates.drivers[k] := by simp [Fin.val_inj, hkg]
    rw [hsame] at hk ⊢
    obtain ⟨f, hf, hfg, hsf⟩ := hserving k hk
    refine ⟨f, List.mem_filter.mpr ⟨hf, ?_⟩, hfg, hsf⟩
    rw [bne_iff_ne]
    intro he
    exact hkg (by rw [← hg0, ← hfg, h.tag_inj hf hf0 (he.trans ht0.symm)])

theorem gatesOk_kept : StepKept GatesOk where
  same _ _ h := .congr h.firings h.drivers (by rw [h.idx])
  hail _ _ := .congr (by simp) (by simp) (by simp)
  expireHail _ := .congr (by simp) (by simp) (by simp)
  station _ _ _ _ := .congr (by simp) (by simp) (by simp)
  position _ _ _ := .congr (by simp) (by simp) (by simp)
  gatePos _ _ _ _ := .congr (by simp) (by simp) (by simp)
  index := gatesOk_indexEffect
  reset t cause node role page s := by
    unfold startUp
    split
    · exact .empty (by simp [clearAll, State.cleared]) (by simp [clearAll, State.cleared]) (by simp [clearAll, State.cleared])
    · exact .empty (by simp [enterFault, clearFirings]) (by simp [enterFault, clearFirings]) (by simp [enterFault, clearFirings, setFiringReq])
  endSettle _ := .congr (by simp) (by simp) (by simp)
  endContactTest _ _ := .congr (by simp) (by simp) (by simp)
  endOffInterval _ := .congr (by simp) (by simp) (by simp)
  endConversion _ _ _ := .congr (by simp) (by simp) (by simp)
  endGap _ := .congr (by simp) (by simp) (by simp)
  endTemperature _ _ := .congr (by simp) (by simp) (by simp)
  expireLimit _ := .congr (by simp) (by simp) (by simp)
  expireDelay g s h := by
    unfold expireDelay
    split
    · rename_i tag due hd
      split
      · exact h.stage (by rw [hd]; rfl) fun f hf => by simp [serves, hf]
      · exact h
    all_goals exact h
  expirePullIn g s h := by
    unfold expirePullIn
    split
    · rename_i tag pullEnd pulseEnd hd
      split
      · exact h
      · split
        · exact h.stage (by rw [hd]; rfl) fun f hf => by simp [serves, hf]
        · exact h.endPulse (by rw [hd]; rfl)
    all_goals exact h
  expirePulse g s h := by
    unfold expirePulse
    split
    · rename_i hd
      split
      · exact h.endPulse (by rw [hd]; rfl)
      · exact h
    · rename_i hd
      split
      · exact h.endPulse (by rw [hd]; rfl)
      · exact h
    all_goals exact h
  fault r s _ := .empty (by simp [enterFault, clearFirings]) (by simp [enterFault, clearFirings]) (by simp [enterFault, clearFirings, setFiringReq])
  discard _ := .congr (by simp) (by simp) (by simp)
  mute s _ _ := .empty (by simp [muteGates, clearFirings]) (by simp [muteGates, clearFirings]) (by simp [muteGates, clearFirings, setFiringReq])
  realign d s _ h := gatesOk_dropPassed _ (h.congr (by simp) (by simp) (by simp))
  entry _ _ _ _ := .congr (by simp) (by simp) (by simp)
  value _ _ _ _ _ _ := .congr (by simp) (by simp) (by simp)
  restart s _ _ := .empty (by simp [restartClears, clearFirings]) (by simp [restartClears, clearFirings])
    (by simp [restartClears, clearFirings, setFiringReq])

end Sys2Proof.Machine
end

section
/-! Settles O55, the due order: a count that moves takes all waiting firings one way, and what has passed its gate leaves. -/

namespace Sys2Proof.Machine

/-! ### The order (R120) -/

theorem dueBefore_iff (s : State) (a b : Firing) :
    s.dueBefore a b
      ↔ (a.stage = .waiting ∧ b.stage = .waiting
            ∧ (s.eventsToGate a < s.eventsToGate b ∨ (s.eventsToGate a = s.eventsToGate b ∧ a.gate < b.gate)))
          ∨ (a.stage ≠ .waiting ∧ (b.stage = .waiting ∨ a.gate < b.gate)) := by
  unfold State.dueBefore
  cases a.stage <;> cases b.stage <;> simp

theorem dueBefore_congr {a b : State} (hc : b.idx.count = a.idx.count) (hg : b.ctl.items.gatePos = a.ctl.items.gatePos) : b.dueBefore = a.dueBefore := by
  have he : b.eventsToGate = a.eventsToGate := by
    funext f
    simp [State.eventsToGate, State.gatePosOf, State.posOf, hc, hg]
  funext x y
  simp [State.dueBefore, he]

/-- R125, R176: the installed gates of a SORT station that has been set up lie beyond its position. -/
def GatesBeyond (s : State) : Prop :=
  roleOfCode s.ctl.role = some .sort → Working s.ctl.run →
    ∀ p, s.ctl.items.position = some p → ∀ g : Fin 16, s.ctl.items.gatePos[g] ≠ 0 → p < s.ctl.items.gatePos[g]

/-- R125, R132: the unit of a WAITING firing has an installed gate before it or stands at it. -/
def GateAhead (s : State) (f : Firing) : Prop := s.ctl.items.gatePos[f.gate] ≠ 0 ∧ s.posOf f.tag ≤ s.ctl.items.gatePos[f.gate]

theorem dueOk_iff (s : State) :
    DueOk s
      ↔ (s.gates.firings ≠ [] → roleOfCode s.ctl.role = some .sort ∧ Working s.ctl.run) ∧ GatesBeyond s
          ∧ (∀ f ∈ s.gates.firings, f.stage = .waiting → GateAhead s f) ∧ s.gates.firings.Pairwise s.dueBefore := Iff.rfl

theorem GatesBeyond.congr {a b : State} (hr : b.ctl.role = a.ctl.role) (hrun : b.ctl.run = a.ctl.run)
    (hp : b.ctl.items.position = a.ctl.items.position) (hg : b.ctl.items.gatePos = a.ctl.items.gatePos) (h : GatesBeyond a) : GatesBeyond b := by
  unfold GatesBeyond
  rw [hr, hrun, hp, hg]
  exact h

theorem DueOk.beyond {s : State} (h : DueOk s) : GatesBeyond s := ((dueOk_iff s).mp h).2.1

theorem DueOk.congr {a b : State} (hf : b.gates.firings = a.gates.firings) (hc : b.idx.count = a.idx.count) (hr : b.ctl.role = a.ctl.role)
    (hrun : b.ctl.run = a.ctl.run) (hp : b.ctl.items.position = a.ctl.items.position) (hg : b.ctl.items.gatePos = a.ctl.items.gatePos)
    (h : DueOk a) : DueOk b := by
  unfold DueOk
  rw [hf, hr, hrun, hp, hg, dueBefore_congr hc hg]
  simp only [posOf_congr hc]
  exact h

/-- A station without firings, whose gates are beyond its position where it has been set up. -/
theorem DueOk.empty {s : State} (hf : s.gates.firings = []) (hg : GatesBeyond s) : DueOk s := by
  rw [dueOk_iff, hf]
  exact ⟨fun h => absurd rfl h, hg, by simp, List.Pairwise.nil⟩

/-- R136, R176: a station that has not been set up has no firings. -/
theorem DueOk.no_firings {s : State} (h : DueOk s) (hr : ¬(roleOfCode s.ctl.role = some .sort ∧ Working s.ctl.run)) : s.gates.firings = [] := by
  by_contra hne
  exact hr (h.1 hne)

/-- Firings may leave the list. -/
theorem DueOk.sublist {a b : State} (h : DueOk a) (hf : b.gates.firings.Sublist a.gates.firings) (hc : b.idx.count = a.idx.count)
    (hr : b.ctl.role = a.ctl.role) (hrun : b.ctl.run = a.ctl.run) (hi : b.ctl.items = a.ctl.items) : DueOk b := by
  obtain ⟨hsort, hbeyond, hahead, hord⟩ := (dueOk_iff a).mp h
  rw [dueOk_iff, GatesBeyond, hr, hrun, hi, dueBefore_congr hc (by rw [hi])]
  refine ⟨fun hne => hsort fun ha => hne ?_, hbeyond, fun f hm hw => ?_, hord.sublist hf⟩
  · rw [ha] at hf
    exact List.sublist_nil.mp hf
  · unfold GateAhead
    rw [hi, posOf_congr hc]
    exact hahead f (hf.subset hm) hw

/-- R129, R130: a firing in progress goes on in its place. -/
theorem DueOk.stage {s : State} (h : DueOk s) (hg : GatesOk s) {g : Fin 16} {tag : BitVec 16} {st : FiringStage} {d : Driver}
    (hd : s.gates.drivers[g].tag = some tag) (hst : st ≠ .waiting) : DueOk (setFiringStage tag st (setDriver g d s)) := by
  obtain ⟨f0, hf0, -, ht0, hs0⟩ := hg.served hd
  have hrun : ∀ f ∈ s.gates.firings, f.tag = tag → f.stage ≠ .waiting := fun f hf he => by
    rw [hg.tag_inj hf hf0 (he.trans ht0.symm)]
    exact (serves_tag hs0).1
  obtain ⟨hsort, hbeyond, hahead, hord⟩ := (dueOk_iff s).mp h
  have hmem : (setFiringStage tag st (setDriver g d s)).gates.firings = s.gates.firings.map (fun f => if f.tag == tag then { f with stage := st } else f) := by
    simp [setFiringStage]
  rw [dueOk_iff, hmem, dueBefore_congr (a := s) (by simp) (by simp)]
  refine ⟨fun hne => by simpa using hsort (by simpa using hne), by simpa [GatesBeyond] using hbeyond, fun f hf hw => ?_, ?_⟩
  · obtain ⟨x, hx, rfl⟩ := List.mem_map.mp hf
    by_cases he : x.tag = tag
    · simp [he, hst] at hw
    · rw [if_neg (by simpa using he)] at hw ⊢
      simpa [GateAhead, State.posOf] using hahead x hx hw
  · rw [List.pairwise_map]
    refine hord.imp_of_mem fun {x y} hx hy hxy => ?_
    have key : ∀ z ∈ s.gates.firings, (if z.tag == tag then { z with stage := st } else z).stage = .waiting ↔ z.stage = .waiting := by
      intro z hz
      by_cases he : z.tag = tag
      · simp [he, hst, hrun z hz he]
      · simp [he]
    have kg : ∀ z : Firing, (if z.tag == tag then { z with stage := st } else z).gate = z.gate := fun z => by split <;> rfl
    have ke : ∀ z : Firing, s.eventsToGate (if z.tag == tag then { z with stage := st } else z) = s.eventsToGate z := fun z => by
      split <;> rfl
    rw [dueBefore_iff] at hxy ⊢
    simp only [ne_eq, key x hx, key y hy, kg, ke]
    exact hxy

/-! ### A count that moves (R2, R16, R120) -/

/-- R120: the index events to come of a unit that has not passed its gate. -/
theorem eventsToGate_eq {s : State} {f : Firing} (h : s.posOf f.tag ≤ s.ctl.items.gatePos[f.gate]) (h31 : s.ctl.items.gatePos[f.gate] ≤ 31) :
    s.eventsToGate f = s.ctl.items.gatePos[f.gate] - s.posOf f.tag := by
  unfold State.eventsToGate State.gatePosOf
  omega

/-- R16, R120: units that have not passed their gates, before a count moves and after, keep their order. -/
theorem eventsToGate_moved {a b : State} {d : BitVec 16} (hc : b.idx.count = a.idx.count + d) (hg : b.ctl.items.gatePos = a.ctl.items.gatePos)
    (h31 : ∀ g : Fin 16, a.ctl.items.gatePos[g] ≤ 31) {x y : Firing} (hx : GateAhead a x) (hy : GateAhead a y) (hx' : GateAhead b x)
    (hy' : GateAhead b y) (hw : x.stage = .waiting ∧ y.stage = .waiting) (h : a.dueBefore x y) : b.dueBefore x y := by
  have hp : ∀ z, b.posOf z = (a.posOf z + d.toNat) % 65536 := fun z => by rw [State.posOf, hc, toNat_add_sub, State.posOf]
  rw [dueBefore_iff] at h ⊢
  obtain ⟨-, hxa⟩ := hx
  obtain ⟨-, hya⟩ := hy
  obtain ⟨-, hxb⟩ := hx'
  obtain ⟨-, hyb⟩ := hy'
  have h1 := h31 x.gate
  have h2 := h31 y.gate
  rw [eventsToGate_eq hxa h1, eventsToGate_eq hya h2] at h
  rw [eventsToGate_eq hxb (by rwa [hg]), eventsToGate_eq hyb (by rwa [hg])]
  rw [hg, hp] at hxb hyb ⊢
  rw [hp]
  rw [hg] at *
  have hd := d.isLt
  rcases h with ⟨-, -, h⟩ | ⟨hn, -⟩
  · refine .inl ⟨hw.1, hw.2, ?_⟩
    rcases h with h | ⟨he, hlt⟩
    · left; omega
    · right; exact ⟨by omega, hlt⟩
  · exact absurd hw.1 hn

/-- R16, R132: firings whose count has moved, once those that have passed their gate are dropped. -/
theorem DueOk.moved {a b : State} {d : BitVec 16} (h : DueOk a) (h31 : ∀ g : Fin 16, a.ctl.items.gatePos[g] ≤ 31)
    (hn : (a.gates.firings.map Firing.tag).Nodup) (hf : b.gates.firings = a.gates.firings) (hc : b.idx.count = a.idx.count + d)
    (hr : b.ctl.role = a.ctl.role) (hrun : b.ctl.run = a.ctl.run) (hi : b.ctl.items = a.ctl.items) : DueOk (dropPassed b) := by
  have hleft := dropPassed_firings (s := b) (by rwa [hf])
  obtain ⟨hsort, hbeyond, hahead, hord⟩ := (dueOk_iff a).mp h
  have hab : ∀ f ∈ (dropPassed b).gates.firings, f ∈ a.gates.firings ∧ (f.stage = .waiting → GateAhead b f) := by
    intro f hm
    rw [hleft, hf] at hm
    obtain ⟨hm, hk⟩ := List.mem_filter.mp hm
    refine ⟨hm, fun hw => ⟨by rw [hi]; exact (hahead f hm hw).1, ?_⟩⟩
    simp only [hw, beq_self_eq_true, Bool.true_and, State.passedGate, State.gatePosOf, Bool.not_eq_true'] at hk
    exact Nat.not_lt.mp (of_decide_eq_false hk)
  rw [dueOk_iff, dueBefore_congr (a := b) (by simp) (by simp)]
  refine ⟨fun hne => ?_, ?_, fun f hm hw => ?_, ?_⟩
  · simp only [dropPassed_ctl, hr, hrun]
    refine hsort fun ha => hne ?_
    rw [hleft, hf, ha]
    rfl
  · unfold GatesBeyond
    simp only [dropPassed_ctl, hr, hrun, hi]
    exact hbeyond
  · have := (hab f hm).2 hw
    simpa [GateAhead, State.posOf] using this
  · have hord' : (dropPassed b).gates.firings.Pairwise a.dueBefore := by
      rw [hleft, hf]
      exact hord.sublist List.filter_sublist
    refine hord'.imp_of_mem fun {x y} hx hy hxy => ?_
    obtain ⟨hx, hxb⟩ := hab x hx
    obtain ⟨hy, hyb⟩ := hab y hy
    by_cases hw : x.stage = .waiting ∧ y.stage = .waiting
    · exact eventsToGate_moved hc (by rw [hi]) h31 (hahead x hx hw.1) (hahead y hy hw.2) (hxb hw.1) (hyb hw.2) hw hxy
    · rw [dueBefore_iff] at hxy ⊢
      rcases hxy with ⟨h1, h2, -⟩ | h
      · exact absurd ⟨h1, h2⟩ hw
      · exact .inr h

/-! ### The index event of a SORT station -/

/-- R126: a firing that is scheduled joins in due order. -/
theorem DueOk.schedule {s : State} (h : DueOk s) (hall : AllWaiting s) (hsort : roleOfCode s.ctl.role = some .sort) (hrun : Working s.ctl.run)
    {tag : BitVec 16} {o : Fin 16} (page : Option (Fin 4)) (hg : GateAhead s { tag := tag, gate := o, page := page, stage := .waiting })
    (h31 : ∀ g : Fin 16, s.ctl.items.gatePos[g] ≤ 31) : DueOk (schedule tag o page s) := by
  by_cases hc : s.firingOf tag = none ∧ s.gates.firings.length < 32
  · have hf := schedule_firings tag o page s
    rw [if_pos hc] at hf
    obtain ⟨-, hbeyond, hahead, hord⟩ := (dueOk_iff s).mp h
    generalize hnew : ({ tag := tag, gate := o, page := page, stage := .waiting } : Firing) = new at hf hg
    have hnt : new.tag = tag := by rw [← hnew]
    have hnw : new.stage = .waiting := by rw [← hnew]
    have hmem := (insertFiring_perm s.firesBefore new s.gates.firings).subset
    rw [dueOk_iff, hf, dueBefore_congr (a := s) (by simp) (by simp)]
    refine ⟨fun _ => by simp [hsort, hrun], by simpa [GatesBeyond] using hbeyond, fun f hm hw => ?_, ?_⟩
    · have : GateAhead s f := by
        rcases List.mem_cons.mp (hmem hm) with rfl | hm
        · exact hg
        · exact hahead f hm hw
      simpa [GateAhead, State.posOf] using this
    · have hdiff : ∀ x ∈ s.gates.firings, ¬(s.eventsToGate x = s.eventsToGate new ∧ x.gate = new.gate) := by
        rintro x hx ⟨he, hge⟩
        have hxa := hahead x hx (hall.waiting x hx)
        rw [eventsToGate_eq hxa.2 (h31 _), eventsToGate_eq hg.2 (h31 _)] at he
        have hgx : s.ctl.items.gatePos[x.gate] = s.ctl.items.gatePos[new.gate] := by simp [hge]
        have h1 := hxa.2
        have h2 := hg.2
        exact (firingOf_none_iff s tag).mp hc.1 x hx (hnt ▸ posOf_inj (s := s) (by omega))
      refine insertFiring_pairwise hord (fun x hx hle => ?_) (fun x hx hle => ?_) (fun x hx y hy h1 h2 => ?_)
      · simp only [State.firesBefore, Bool.or_eq_true, Bool.and_eq_true, decide_eq_true_eq, beq_iff_eq] at hle
        refine (dueBefore_iff s x new).mpr (.inl ⟨hall.waiting x hx, hnw, hle.imp_right fun ⟨he, hge⟩ => ⟨he, lt_of_le_of_ne hge fun heq => ?_⟩⟩)
        exact hdiff x hx ⟨he, heq⟩
      · simp only [State.firesBefore, Bool.or_eq_false_iff, Bool.and_eq_false_iff, decide_eq_false_iff_not, beq_eq_false_iff_ne] at hle
        refine (dueBefore_iff s new x).mpr (.inl ⟨hnw, hall.waiting x hx, ?_⟩)
        obtain ⟨h1, h2⟩ := hle
        rcases h2 with h2 | h2
        · left; omega
        · by_cases he : s.eventsToGate x = s.eventsToGate new
          · exact .inr ⟨he.symm, Fin.lt_def.mpr (Nat.not_le.mp h2)⟩
          · left; omega
      · rw [dueBefore_iff] at h1 h2 ⊢
        have hxw := hall.waiting x hx
        have hyw := hall.waiting y hy
        simp only [hnw, hxw, hyw, true_and, ne_eq, not_true_eq_false, false_and, or_false] at h1 h2 ⊢
        rcases h1 with h1 | ⟨h1, g1⟩ <;> rcases h2 with h2 | ⟨h2, g2⟩
        · left; omega
        · left; omega
        · left; omega
        · right; exact ⟨by omega, g1.trans g2⟩
  · exact h.congr (by rw [schedule_firings, if_neg hc]) (by simp) (by simp) (by simp) (by simp) (by simp)

/-- R125: the gate of a verdict is an installed one. -/
theorem resolveGate_installed {s : State} {g : Fin 17} {o : Fin 16} (h : (resolveGate s g).2.1 = some o) : s.ctl.items.gatePos[o] ≠ 0 := by
  have hinst : ∀ k, s.installed k = some o → s.ctl.items.gatePos[o] ≠ 0 := by
    intro k hk
    unfold State.installed at hk
    split at hk
    · split at hk
      · cases hk
      · rename_i hz
        cases hk
        exact hz
    · cases hk
  unfold resolveGate at h
  split at h
  · cases h
  · split at h
    · rename_i he
      cases h
      exact hinst _ he
    · split at h
      · rename_i he
        cases h
        exact hinst _ he
      · cases h

/-- R4: the unit that has just passed the SORT position. -/
theorem posOf_decided {s : State} {p : Nat} (hp : p ≤ 31) : s.posOf (s.idx.count - BitVec.ofNat 16 p - 1) = p + 1 := by
  have he : s.idx.count - BitVec.ofNat 16 p - 1 = s.idx.count - BitVec.ofNat 16 (p + 1) := by
    rw [BitVec.ofNat_add, BitVec.sub_sub]
    rfl
  rw [he, posOf_sub s (by omega)]

theorem DueOk.decideUnit {s : State} (h : DueOk s) (hall : AllWaiting s) (hlim : LimitsOk s) (hsort : roleOfCode s.ctl.role = some .sort) :
    DueOk (decideUnit s) := by
  rcases decideUnit_cases s with ⟨e, -⟩ | ⟨p, v, hp, ⟨-, hrun⟩, -, e⟩ <;> rw [e]
  · exact h
  · have hw : Working s.ctl.run := hrun.elim (fun h => .inr (.inl h)) (fun h => .inr (.inr h))
    have hr : DueOk (raiseIf (resolveGate s (capacityCheck s v).gate).2.2 .gateMissed (countVerdict (capacityCheck s v) s)) :=
      h.congr (by simp) (by simp) (by simp) (by simp) (by simp) (by simp)
    rw [completeVerdict_eq]
    generalize hgate : (resolveGate s (capacityCheck s v).gate).2.1 = o
    refine DueOk.congr (by simp) (by simp) (by simp) (by simp) (by simp) (by simp) 
      (a := scheduleAt (s.idx.count - BitVec.ofNat 16 p - 1) o (capacityCheck s v).page
        (raiseIf (resolveGate s (capacityCheck s v).gate).2.2 .gateMissed (countVerdict (capacityCheck s v) s))) ?_
    cases o with
    | none => exact hr
    | some o =>
      refine hr.schedule (hall.congr (by simp) (by simp) (by simp)) (by simpa) (by simpa) _ ?_ (by simpa using hlim.gatePos)
      have hz := resolveGate_installed hgate
      have hbeyond := h.2.1 hsort hw p hp o hz
      refine ⟨by simpa using hz, ?_⟩
      have hpos := posOf_decided (s := s) (hlim.position p hp)
      rw [posOf_congr (a := s) (by simp), hpos]
      simpa using hbeyond

/-- R128 step 4: those that start were the first of the list. -/
theorem DueOk.startDue {s : State} (h : DueOk s) (hall : AllWaiting s) (hlim : LimitsOk s) : DueOk (startDue s) := by
  obtain ⟨hsort, hbeyond, hahead, hord⟩ := (dueOk_iff s).mp h
  have hf := startDue_firings hall.nodup
  rw [dueOk_iff, hf, dueBefore_congr (a := s) (by simp) (by simp)]
  refine ⟨fun hne => by simpa using hsort (by simpa using hne), by simpa [GatesBeyond] using hbeyond, fun f hm hw => ?_, ?_⟩
  · obtain ⟨x, hx, rfl⟩ := List.mem_map.mp hm
    split at hw
    · exact absurd hw (startedStage_ne_waiting s)
    · rename_i hnd
      rw [if_neg hnd]
      simpa [GateAhead, State.posOf] using hahead x hx hw
  · rw [List.pairwise_map]
    refine hord.imp_of_mem fun {x y} hx hy hxy => ?_
    have hxw := hall.waiting x hx
    have hyw := hall.waiting y hy
    have hst := startedStage_ne_waiting s
    have hxe := eventsToGate_eq (hahead x hx hxw).2 (hlim.gatePos _)
    have hye := eventsToGate_eq (hahead y hy hyw).2 (hlim.gatePos _)
    have hxa := (hahead x hx hxw).2
    have hya := (hahead y hy hyw).2
    have hlt : s.eventsToGate x < s.eventsToGate y ∨ (s.eventsToGate x = s.eventsToGate y ∧ x.gate < y.gate) := by
      rw [dueBefore_iff] at hxy
      simpa [hxw, hyw] using hxy
    have hgx : s.gatePosOf x.gate = s.ctl.items.gatePos[x.gate] := rfl
    have hgy : s.gatePosOf y.gate = s.ctl.items.gatePos[y.gate] := rfl
    by_cases hdx : x.stage = .waiting ∧ s.posOf x.tag = s.gatePosOf x.gate <;>
      by_cases hdy : y.stage = .waiting ∧ s.posOf y.tag = s.gatePosOf y.gate
    · rw [if_pos hdx, if_pos hdy, dueBefore_iff]
      refine .inr ⟨hst, .inr ?_⟩
      rcases hlt with hlt | hlt
      · omega
      · exact hlt.2
    · rw [if_pos hdx, if_neg hdy, dueBefore_iff]
      exact .inr ⟨hst, .inl hyw⟩
    · have hnx : s.posOf x.tag ≠ s.gatePosOf x.gate := fun hh => hdx ⟨hxw, hh⟩
      exfalso
      rcases hlt with hlt | hlt <;> omega
    · rw [if_neg hdx, if_neg hdy]
      exact hxy

/-- Firings, table and due order sound together. -/
def AllOk (s : State) : Prop := GatesOk s ∧ RangeOk 0 s ∧ DueOk s

/-- R128: the index event of a SORT station whose count has just moved. -/
theorem dueOk_sortIndexEvent {a b : State} (h : DueOk a) (hl : LimitsOk b) (hg : GatesOk b) (hf : b.gates.firings = a.gates.firings)
    (hc : b.idx.count = a.idx.count + 1) (hr : b.ctl.role = a.ctl.role) (hrun : b.ctl.run = a.ctl.run) (hi : b.ctl.items = a.ctl.items)
    (hsort : roleOfCode a.ctl.role = some .sort) : DueOk (sortIndexEvent b) := by
  have hl' : ∀ c : State, c.ctl = b.ctl → c.idx.retireLimit = b.idx.retireLimit → LimitsOk c := fun c hctl hlim =>
    ⟨by rw [hlim, hctl]; exact hl.limit, by rw [hctl]; exact hl.position, by rw [hctl]; exact hl.gatePos⟩
  have hcut : DueOk (a.withGates (cutAll b).gates) := by
    refine h.sublist ?_ rfl rfl rfl rfl
    rw [State.withGates_gates, cutAll_firings hg.nodup, hf]
    exact List.filter_sublist
  have hdrop : DueOk (dropPassed (cutAll b)) :=
    hcut.moved (d := 1) (by simpa [← hi] using hl.gatePos) hg.cutAll.nodup rfl (by simpa using hc) (by simpa using hr) (by simpa using hrun)
      (by simpa using hi)
  have hdec := hdrop.decideUnit hg.cutAll.dropPassed (hl' _ (by simp) (by simp)) (by simpa [hr] using hsort)
  have hrem : DueOk (removeEntries (decideUnit (dropPassed (cutAll b))).leavesSort (decideUnit (dropPassed (cutAll b)))) :=
    hdec.congr (by simp) (by simp) (by simp) (by simp) (by simp) (by simp)
  exact hrem.startDue (hg.decided.congr (by simp) (by simp) (by simp)) (hl' _ (by simp) (by simp))

theorem dueOk_indexEffect (pins : BitVec 2) (s : State) (h : AllOk s) : DueOk (indexEffect pins s) := by
  obtain ⟨hg, hr, hd⟩ := h
  rw [indexEffect_eq]
  split
  · rename_i hrole
    exact dueOk_sortIndexEvent hd ⟨by simpa [counted] using hr.limit, by simpa [counted] using hr.position, by simpa [counted] using hr.gatePos⟩
      (hg.congr (by simp [counted]) (by simp [counted]) (by simp [counted])) (by simp [counted]) (by simp [counted, countEdge])
      (by simp [counted]) (by simp [counted]) (by simp [counted]) (by simpa [counted, State.role] using hrole)
  · rename_i hrole
    have hsort : roleOfCode s.ctl.role ≠ some .sort := by simpa [counted, State.role] using hrole
    exact .empty (by simpa [counted] using hd.no_firings fun hh => hsort hh.1) fun hh => absurd hh (by simpa [counted, State.role] using hsort)

/-! ### Every step -/

theorem dueOk_endPulse {s : State} (h : DueOk s) (g : Fin 16) (tag : BitVec 16) : DueOk (endPulse g tag s) := by
  refine h.sublist ?_ (by simp) (by simp) (by simp) (by simp)
  rw [endPulse_eq]
  simp

/-- R176: a valid configuration has its installed gates beyond the position. -/
theorem configValid_gates {x : Items} (h : configValid (some .sort) x = true) {p : Nat} (hp : x.position = some p) (g : Fin 16)
    (hg : x.gatePos[g] ≠ 0) : p < x.gatePos[g] := by
  simp only [configValid, hp, bne_self_eq_false, Bool.false_or, Bool.and_eq_true, List.all_eq_true, Bool.or_eq_true, beq_iff_eq,
    decide_eq_true_eq] at h
  exact (h.1.2 x.gatePos[g] (by simp)).resolve_left hg

theorem allOk_station (st : StationState) (d : Bool) (s : State) (hm : MayEnter s st) (h : AllOk s) :
    DueOk (s.withCtl { s.ctl with run := st, drain := d }) := by
  obtain ⟨-, -, hd⟩ := h
  rcases hm with ⟨hr, rfl⟩ | ⟨hr, rfl, hv⟩ | ⟨hr, hst⟩
  · exact .empty (hd.no_firings (by simp [hr, Working])) fun _ hw => by rcases hw with hw | hw | hw <;> cases hw
  · refine .empty (hd.no_firings (by simp [hr, Working])) fun hsort _ p hp g hg => ?_
    rw [State.role, show roleOfCode s.ctl.role = some .sort from hsort] at hv
    exact configValid_gates hv hp g hg
  · obtain ⟨hsort, hbeyond, hahead, hord⟩ := (dueOk_iff s).mp hd
    exact ⟨fun hne => ⟨(hsort hne).1, hst⟩, fun hs _ => hbeyond hs hr, hahead, hord⟩

/-- In CONFIG there are no firings, and gates may lie anywhere. -/
theorem dueOk_config {a b : State} (h : DueOk a) (hr : a.ctl.run = .config) (hf : b.gates.firings = a.gates.firings) (hb : b.ctl.run = a.ctl.run) :
    DueOk b :=
  .empty (hf.trans (h.no_firings (by simp [hr, Working]))) fun _ hw => by rw [hb, hr] at hw; rcases hw with hw | hw | hw <;> cases hw

theorem allOk_kept : StepKept AllOk where
  same a b h hs := ⟨gatesOk_kept.same a b h hs.1, rangeOk_kept.same a b h hs.2.1,
    hs.2.2.congr h.firings (by rw [h.idx]) h.role h.run h.position h.gatePos⟩
  hail s hf hs := ⟨gatesOk_kept.hail s hf hs.1, rangeOk_kept.hail s hf hs.2.1,
    hs.2.2.congr (by simp) (by simp) (by simp) (by simp) (by simp) (by simp)⟩
  expireHail s hs := ⟨gatesOk_kept.expireHail s hs.1, rangeOk_kept.expireHail s hs.2.1,
    hs.2.2.congr (by simp) (by simp) (by simp) (by simp) (by simp) (by simp)⟩
  station st d s hm hs := ⟨gatesOk_kept.station st d s hm hs.1, rangeOk_kept.station st d s hm hs.2.1, allOk_station st d s hm hs⟩
  position v s hr hs := ⟨gatesOk_kept.position v s hr hs.1, rangeOk_kept.position v s hr hs.2.1, dueOk_config hs.2.2 hr (by simp) (by simp)⟩
  gatePos g v s hr hs := ⟨gatesOk_kept.gatePos g v s hr hs.1, rangeOk_kept.gatePos g v s hr hs.2.1, dueOk_config hs.2.2 hr (by simp) (by simp)⟩
  index pins s hs := ⟨gatesOk_kept.index pins s hs.1, rangeOk_kept.index pins s hs.2.1, dueOk_indexEffect pins s hs⟩
  reset t cause node role page s := by
    refine ⟨gatesOk_kept.reset t cause node role page s, rangeOk_kept.reset t cause node role page s, ?_⟩
    unfold startUp
    split
    · exact .empty (by simp [clearAll, State.cleared]) fun _ hw => by
        simp [enterListen, offerHail] at hw
        rcases hw with hw | hw | hw <;> cases hw
    · exact .empty (by simp [enterFault, clearFirings]) fun _ hw => by
        simp [enterFault] at hw
        rcases hw with hw | hw | hw <;> cases hw
  endSettle s hs := ⟨gatesOk_kept.endSettle s hs.1, rangeOk_kept.endSettle s hs.2.1,
    hs.2.2.congr (by simp) (by simp) (by simp) (by simp) (by simp) (by simp)⟩
  endContactTest m s hs := ⟨gatesOk_kept.endContactTest m s hs.1, rangeOk_kept.endContactTest m s hs.2.1,
    hs.2.2.congr (by simp) (by simp) (by simp) (by simp) (by simp) (by simp)⟩
  endOffInterval s hs := ⟨gatesOk_kept.endOffInterval s hs.1, rangeOk_kept.endOffInterval s hs.2.1,
    hs.2.2.congr (by simp) (by simp) (by simp) (by simp) (by simp) (by simp)⟩
  endConversion x y s hs := ⟨gatesOk_kept.endConversion x y s hs.1, rangeOk_kept.endConversion x y s hs.2.1,
    hs.2.2.congr (by simp) (by simp) (by simp) (by simp) (by simp) (by simp)⟩
  endGap s hs := ⟨gatesOk_kept.endGap s hs.1, rangeOk_kept.endGap s hs.2.1,
    hs.2.2.congr (by simp) (by simp) (by simp) (by simp) (by simp) (by simp)⟩
  endTemperature r s hs := ⟨gatesOk_kept.endTemperature r s hs.1, rangeOk_kept.endTemperature r s hs.2.1,
    hs.2.2.congr (by simp) (by simp) (by simp) (by simp) (by simp) (by simp)⟩
  expireLimit s hs := ⟨gatesOk_kept.expireLimit s hs.1, rangeOk_kept.expireLimit s hs.2.1,
    hs.2.2.congr (by simp) (by simp) (by simp) (by simp) (by simp) (by simp)⟩
  expireDelay g s hs := by
    refine ⟨gatesOk_kept.expireDelay g s hs.1, rangeOk_kept.expireDelay g s hs.2.1, ?_⟩
    unfold expireDelay
    split
    · rename_i hd
      split
      · exact hs.2.2.stage hs.1 (by rw [hd]; rfl) (by simp)
      · exact hs.2.2
    all_goals exact hs.2.2
  expirePullIn g s hs := by
    refine ⟨gatesOk_kept.expirePullIn g s hs.1, rangeOk_kept.expirePullIn g s hs.2.1, ?_⟩
    unfold expirePullIn
    split
    · rename_i hd
      split
      · exact hs.2.2
      · split
        · exact hs.2.2.stage hs.1 (by rw [hd]; rfl) (by simp)
        · exact dueOk_endPulse hs.2.2 _ _
    all_goals exact hs.2.2
  expirePulse g s hs := by
    refine ⟨gatesOk_kept.expirePulse g s hs.1, rangeOk_kept.expirePulse g s hs.2.1, ?_⟩
    unfold expirePulse
    split
    · split <;> [exact dueOk_endPulse hs.2.2 _ _; exact hs.2.2]
    · split <;> [exact dueOk_endPulse hs.2.2 _ _; exact hs.2.2]
    all_goals exact hs.2.2
  fault r s hs := by
    refine ⟨gatesOk_kept.fault r s hs.1, rangeOk_kept.fault r s hs.2.1, .empty (by simp [enterFault, clearFirings]) fun _ hw => ?_⟩
    simp [enterFault] at hw
    rcases hw with hw | hw | hw <;> cases hw
  discard s hs := ⟨gatesOk_kept.discard s hs.1, rangeOk_kept.discard s hs.2.1,
    hs.2.2.congr (by simp) (by simp) (by simp) (by simp) (by simp) (by simp)⟩
  mute s hf hs := ⟨gatesOk_kept.mute s hf hs.1, rangeOk_kept.mute s hf hs.2.1,
    .empty (by simp [muteGates, clearFirings]) (hs.2.2.beyond.congr (by simp) (by simp) (by simp) (by simp))⟩
  realign d s hf hs := ⟨gatesOk_kept.realign d s hf hs.1, rangeOk_kept.realign d s hf hs.2.1,
    hs.2.2.moved (d := d) hs.2.1.gatePos hs.1.nodup (by simp) (by simp [moveCount]) (by simp) (by simp) (by simp)⟩
  entry r s hf hin hs := ⟨gatesOk_kept.entry r s hf hin hs.1, rangeOk_kept.entry r s hf hin hs.2.1,
    hs.2.2.congr (by simp) (by simp) (by simp) (by simp) (by simp) (by simp)⟩
  value tag k v s hf hin hs := ⟨gatesOk_kept.value tag k v s hf hin hs.1, rangeOk_kept.value tag k v s hf hin hs.2.1,
    hs.2.2.congr (by simp) (by simp) (by simp) (by simp) (by simp) (by simp)⟩
  restart s hf hs := ⟨gatesOk_kept.restart s hf hs.1, rangeOk_kept.restart s hf hs.2.1,
    .empty (by simp [restartClears, clearFirings]) (hs.2.2.beyond.congr (by simp) (by simp) (by simp) (by simp))⟩

/-- Settles O55: every operation keeps firings and drivers matched, and, where the table is sound too, the firings in due order. -/
theorem stepKeepsGates : Obligations.StepKeepsGates := by
  unfold Obligations.StepKeepsGates
  exact ⟨fun _ _ hs he => gatesOk_kept.step hs he,
    fun s _ hg ht hd he => (allOk_kept.step ⟨hg, (tableOk_iff s).mp ht, hd⟩ he).2.2⟩

end Sys2Proof.Machine
end

section
/-! Settles O57, O3, O7 and O28: the state after reset, RESET held low, the pins, and the ends of FIRE_DELAY and PULL_IN. -/

namespace Sys2Proof.Machine

/-! ### The state after reset (O57) -/

theorem pageOk_cleared (n : Fin 4) : PageOk n Page.cleared := by
  refine ⟨by decide, by decide, by decide, List.Pairwise.nil, ?_⟩
  rw [if_neg (by decide)]
  rfl

theorem reset_pages (n : Fin 4) : State.reset.pages[n] = Page.cleared := by simp [State.reset, State.cleared]

theorem reset_drift (k : Fin 4) : State.reset.drift[k] = { baseline := none, ring := [], staleness := 0 } := by simp [State.reset, State.cleared]

theorem reset_drivers (g : Fin 16) : State.reset.gates.drivers[g] = .idle := by simp [State.reset, State.cleared]

theorem reset_gatePos (g : Fin 16) : State.reset.ctl.items.gatePos[g] = 0 := by simp [State.reset, State.cleared, Items.cleared]

theorem queueOk_reset : QueueOk State.reset :=
  ⟨by decide, by simp [State.reset, QFrame.isUnit], by simp [State.reset, State.cleared], by simp [State.reset, State.cleared], rfl⟩

theorem gatesOk_reset : GatesOk State.reset :=
  ⟨Nat.zero_le _, List.nodup_nil, by simp [State.reset, State.cleared], fun g hg => absurd (reset_drivers g) hg, rfl⟩

theorem tableOk_reset : TableOk State.reset :=
  ⟨rfl, by simp [State.reset, State.cleared, Items.cleared], fun g => by rw [reset_gatePos]; exact Nat.zero_le _, List.Pairwise.nil, by simp [State.reset, State.cleared]⟩

theorem driftOk_reset : DriftOk State.reset := fun k => by rw [reset_drift]; simp

/-- Settles O57, part by part. -/
theorem resetSound : Obligations.ResetSound := by
  unfold Obligations.ResetSound
  exact ⟨⟨rfl, rfl⟩, queueOk_reset, fun n => by rw [reset_pages]; exact pageOk_cleared n, gatesOk_reset, tableOk_reset, driftOk_reset,
    ⟨by decide, by decide⟩, fun h => by simp [State.reset, State.cleared] at h,
    .empty rfl fun _ _ _ _ g hg => absurd (reset_gatePos g) hg⟩

/-! ### RESET held low (O3) -/

/-- On a line that the station does not drive, the frame of a command moves the clock alone. -/
theorem advance_silent {t : Instant} {s : State} (h : s.link.tx = none) : advance t s = s.withNow (max s.now t) := by
  simp [advance, winClaim, h]

theorem indexEvent_held {t : Instant} {pins : BitVec 2} {s : State} (h : s.resetHeld = true) : execIndexEvent t pins s = .next (advance t s) := by
  simp [execIndexEvent, h]

theorem assertReset_held {s : State} (h : s.resetHeld = true) (ht : s.link.tx = none) (hr : s.link.rx = none) : assertReset s = s := by
  have hl : { s.link with tx := none, rx := none } = s.link := by rw [← ht, ← hr]
  calc
    assertReset s = (s.withResetHeld s.resetHeld).withLink s.link := by rw [h]; exact congrArg _ hl
    _ = s := rfl

/-- R172: under a held RESET every command but a hard reset moves the clock alone. -/
theorem exec_held {c : Instr} {s : State} (h : s.resetHeld = true) (ht : s.link.tx = none) (hr : s.link.rx = none)
    (hc : ∀ t cause node role page, c ≠ .hardReset t cause node role page) : exec c s = .next (advance c.instant s) := by
  cases c with
  | hardReset t cause node role page => exact absurd rfl (hc t cause node role page)
  | indexEvent t pins => exact indexEvent_held h
  | resetAssert t =>
    have hs : (advance t s).link = s.link := advance_link t s ht
    exact congrArg Host.Outcome.next (assertReset_held (by simpa using h) (by rw [hs, ht]) (by rw [hs, hr]))
  | _ => exact event_held _ _ s h

/-- Settles O3: while RESET is low only the model's clock moves. -/
theorem heldResetIgnoresCommands : Obligations.HeldResetIgnoresCommands := by
  unfold Obligations.HeldResetIgnoresCommands
  intro c s h ht hr hc
  rw [exec_held h ht hr hc, advance_silent ht]

/-! ### The pins (O7) -/

/-- R182: the flags, by falling bit. -/
def AlertFlag.all : List AlertFlag :=
  [.dupNode, .badRole, .configIncomplete, .runRefused, .consoleError, .pageLockRefused, .pageInUse, .peerSilent, .peerDistrusted,
    .indexDoubt, .indexRealign, .txqOverflow, .frameStale, .measTimeout, .measAbort, .overload, .stdLow, .driftLimit, .driftStale,
    .tempFault, .binFull, .unitLate, .gateOverrun, .gateMissed, .takeover]

/-- R182: every assigned bit is that of a flag. -/
theorem flag_of_assigned {i : Nat} (h : assignedMask.getLsbD i = true) : ∃ f : AlertFlag, 32 - f.pos = i := by
  have hall : ∀ k : Fin 32, assignedMask.getLsbD k = true → AlertFlag.all.any (fun f => 32 - f.pos == k.val) = true := by decide
  have hlt : i < 32 := BitVec.lt_of_getLsbD h
  obtain ⟨f, -, hf⟩ := List.any_eq_true.mp (hall ⟨i, hlt⟩ h)
  exact ⟨f, beq_iff_eq.mp hf⟩

theorem assignedMask_flag (f : AlertFlag) : assignedMask.getLsbD (32 - f.pos) = true := by cases f <;> rfl

/-- R182, R184: the assigned positions that a word and a mask share are flags. -/
theorem masked_iff (w m : BitVec 32) : (w &&& m &&& assignedMask) ≠ 0 ↔ ∃ f : AlertFlag, flagIn w f = true ∧ flagIn m f = true := by
  constructor
  · intro h
    by_contra hn
    refine h (BitVec.eq_of_getLsbD_eq fun i _ => ?_)
    rw [BitVec.getLsbD_and, BitVec.getLsbD_and, show BitVec.getLsbD (0 : BitVec 32) i = false from BitVec.getLsbD_zero]
    by_contra hb
    simp only [Bool.not_eq_false, Bool.and_eq_true] at hb
    obtain ⟨⟨hw, hm⟩, ha⟩ := hb
    obtain ⟨f, rfl⟩ := flag_of_assigned ha
    exact hn ⟨f, hw, hm⟩
  · rintro ⟨f, hw, hm⟩ h
    have hb : (w &&& m &&& assignedMask).getLsbD (32 - f.pos) = true := by
      rw [BitVec.getLsbD_and, BitVec.getLsbD_and, assignedMask_flag, Bool.and_true, Bool.and_eq_true]
      exact ⟨hw, hm⟩
    rw [h] at hb
    simp at hb

theorem gateDrive_released {u : State} (h : u.resetHeld = true) (g : Fin 16) : u.gateDrive g = .off := by simp [State.gateDrive, h]

theorem gateDrive_delay {u : State} {g : Fin 16} {tag : BitVec 16} {due : Instant} (h : u.gates.drivers[g] = .delay tag due) :
    u.gateDrive g = .off := by
  unfold State.gateDrive
  split
  · rfl
  · rw [h]

theorem gateDrive_pullIn {u : State} (hr : u.resetHeld = false) {g : Fin 16} {tag : BitVec 16} {d₁ d₂ : Instant}
    (h : u.gates.drivers[g] = .pullIn tag d₁ d₂) : u.gateDrive g = .full := by
  unfold State.gateDrive
  rw [if_neg (by simp [hr]), h]

theorem gateDrive_holding {u : State} (hr : u.resetHeld = false) {g : Fin 16} {tag : BitVec 16} {due : Instant}
    (h : u.gates.drivers[g] = .holding tag due) : u.gateDrive g = .duty u.ctl.items.holdDuty := by
  unfold State.gateDrive
  rw [if_neg (by simp [hr]), h]

/-- Settles O7: the pins of a station that runs, and of one whose RESET goes low. -/
theorem resetAssertReleasesOutputs : Obligations.ResetAssertReleasesOutputs := by
  unfold Obligations.ResetAssertReleasesOutputs
  constructor
  · intro b hb
    refine ⟨by simp [State.pullsHold, hb], ?_, fun g => ⟨gateDrive_idle, fun tag t₁ t₂ => ?_⟩, fun k => by simp [State.slotRelay, hb],
      by simp [State.unitRelay, hb], by simp [State.checkRelay, hb]⟩
    · rw [← masked_iff]
      simp [State.assertsAlert, hb]
    · exact ⟨gateDrive_delay, gateDrive_pullIn hb, gateDrive_holding hb⟩
  · intro t s
    have hheld : (assertReset (advance t s)).resetHeld = true := rfl
    refine ⟨assertReset (advance t s), rfl, hheld, ?_⟩
    simp only [gateDrive_released hheld]
    simp [State.pullsHold, State.assertsAlert, State.slotRelay, State.unitRelay, State.checkRelay,
      State.excitationOut, State.contactOut, State.lineOut, State.cellOut, assertReset]

/-! ### The ends of FIRE_DELAY and PULL_IN (O28) -/

theorem expireDelay_due {s : State} {g : Fin 16} {tag : BitVec 16} {due : Instant} (h : s.gates.drivers[g] = .delay tag due)
    (hd : due ≤ s.now) : expireDelay g s = enterPullIn g tag s := by
  unfold expireDelay
  rw [h]
  exact if_pos hd

theorem expirePullIn_holds {s : State} {g : Fin 16} {tag : BitVec 16} {pullEnd pulseEnd : Instant}
    (h : s.gates.drivers[g] = .pullIn tag pullEnd pulseEnd) (hd : pullEnd ≤ s.now) (hlt : pullEnd < pulseEnd) :
    expirePullIn g s = setFiringStage tag .holding (setDriver g (.holding tag pulseEnd) s) := by
  unfold expirePullIn
  rw [h]
  dsimp only
  rw [if_neg (Nat.not_lt.mpr hd), if_pos hlt]

theorem expirePullIn_ends {s : State} {g : Fin 16} {tag : BitVec 16} {pullEnd pulseEnd : Instant}
    (h : s.gates.drivers[g] = .pullIn tag pullEnd pulseEnd) (hd : pullEnd ≤ s.now) (hle : pulseEnd ≤ pullEnd) :
    expirePullIn g s = endPulse g tag s := by
  unfold expirePullIn
  rw [h]
  dsimp only
  rw [if_neg (Nat.not_lt.mpr hd), if_neg (Nat.not_lt.mpr hle)]

theorem staged_eq (tag : BitVec 16) (st : FiringStage) (g : Fin 16) (d : Driver) (s : State) :
    setFiringStage tag st (setDriver g d s)
      = s.withGates { s.gates with
          drivers := s.gates.drivers.set g d
          firings := s.gates.firings.map (fun f => if f.tag = tag then { f with stage := st } else f) } := by
  simp [setFiringStage, setDriver, State.withGates]

/-- R130: the end of a pulse, with its lists as propositions choose them. -/
theorem endPulse_ended (g : Fin 16) (tag : BitVec 16) (s : State) :
    endPulse g tag s
      = (removeTag tag (s.withGates { s.gates with
            drivers := s.gates.drivers.set g .idle
            firings := s.gates.firings.filter (fun f => f.tag ≠ tag) })).withIdx
          { s.idx with firingReq := s.idx.firingReq && (s.gates.firings.filter (fun f => f.tag ≠ tag)).any (fun f => f.stage ≠ .waiting) } := by
  rw [endPulse_eq]
  simp [bne, beq_eq_decide]

theorem entryOf_removed {u : State} {tag : BitVec 16} {l : List Entry} (h : u.table.entries = l.filter (fun e => e.tag != tag)) :
    u.entryOf tag = none := by
  rw [entryOf_none_iff, State.heldTags, h]
  simp

/-- Settles O28. -/
theorem delayAndPullInEnd : Obligations.DelayAndPullInEnd := by
  unfold Obligations.DelayAndPullInEnd
  intro t g tag s hr
  refine ⟨fun due hd hle => ?_, fun pullEnd pulseEnd hd hle hlt => ?_, fun pullEnd pulseEnd hd hle hge => ?_⟩
  · obtain ⟨u, he, ht⟩ := event_tail t (expireDelay g) s hr
    rw [expireDelay_due (by simpa using hd) (by simpa using hle), enterPullIn, staged_eq] at ht
    have hu : u.gates.drivers[g] = .pullIn tag (max s.now t + us (100 * min s.ctl.items.pullIn s.ctl.items.pulseWidth))
        (max s.now t + us (100 * s.ctl.items.pulseWidth)) := by rw [ht.gates]; simp
    exact ⟨u, he, by simpa using ht, gateDrive_pullIn (by rw [ht.resetHeld]; simpa using hr) hu⟩
  · obtain ⟨u, he, ht⟩ := event_tail t (expirePullIn g) s hr
    rw [expirePullIn_holds (by simpa using hd) (by simpa using hle) hlt, staged_eq] at ht
    refine ⟨u, he, by simpa using ht, ?_⟩
    rw [gateDrive_holding (tag := tag) (due := pulseEnd) (by rw [ht.resetHeld]; simpa using hr) (by rw [ht.gates]; simp)]
    rw [ht.ctl]
    split <;> simp
  · obtain ⟨u, he, ht⟩ := event_tail t (expirePullIn g) s hr
    rw [expirePullIn_ends (by simpa using hd) (by simpa using hle) hge, endPulse_ended] at ht
    refine ⟨u, he, by simpa using ht, gateDrive_idle (by rw [ht.gates]; simp), by rw [ht.gates]; simp, ?_⟩
    exact entryOf_removed (by rw [ht.table, State.withIdx_table, removeTag_entries])

end Sys2Proof.Machine
end

section
/-! Settles O45 and O40: POSITION, GATE_POS and DONE; the range of a tag, VERDICT_RECEIVED, and late and ahead records. -/

namespace Sys2Proof.Machine

/-! ### POSITION, GATE_POS and DONE (O45) -/

theorem setupFrame_ignored {s : State} (h : s.ctl.run = .listen ∨ s.ctl.run = .fault) (b : Bool) (act : State → State) : setupFrame b act s = s := by
  unfold setupFrame
  rcases h with h | h <;> rw [h]

theorem setupFrame_refused {s : State} (h : s.ctl.run = .ready ∨ s.ctl.run = .run ∨ s.ctl.run = .halt) (b : Bool) (act : State → State) :
    setupFrame b act s = raise .consoleError s := by
  unfold setupFrame
  rcases h with h | h | h <;> rw [h]

theorem setupFrame_config {s : State} (h : s.ctl.run = .config) (b : Bool) (act : State → State) :
    setupFrame b act s = if b = true ∧ s.role ≠ some .sort then s else act s := by
  unfold setupFrame
  rw [h]
  simp

@[simp] theorem consoleState_ctl (t : Instant) (h : ConsoleHead) (s : State) : (consoleState t h s).ctl = s.ctl := by simp [consoleState]

@[simp] theorem consoleState_idx (t : Instant) (h : ConsoleHead) (s : State) : (consoleState t h s).idx = s.idx := by simp [consoleState]

@[simp] theorem consoleState_table (t : Instant) (h : ConsoleHead) (s : State) : (consoleState t h s).table = s.table := by simp [consoleState]

/-- R175: a SETUP frame of a console node to this station. -/
theorem setup_tail {t : Instant} {h : ConsoleHead} {s : State} (hr : s.resetHeld = false) (hrx : s.link.rx.isSome = true)
    (ha : s.addressed h = true) (b : Bool) (act : State → State) :
    ∃ u, event t (obey h (setupFrame b act)) s = .next u ∧ Tail (setupFrame b act (consoleState t h s)) u := by
  obtain ⟨u, he, ht⟩ := event_tail t (obey h (setupFrame b act)) s hr
  rw [obey_addressed hrx ha] at ht
  exact ⟨u, he, ht⟩

/-- R175: what becomes of a SETUP frame outside CONFIG. -/
theorem setup_turnedAway {t : Instant} {h : ConsoleHead} {s u : State} {b : Bool} {act : State → State}
    (ht : Tail (setupFrame b act (consoleState t h s)) u) :
    (s.ctl.run = .listen ∨ s.ctl.run = .fault → Tail (consoleState t h s) u)
      ∧ (s.ctl.run = .ready ∨ s.ctl.run = .run ∨ s.ctl.run = .halt → Tail (raise .consoleError (consoleState t h s)) u) := by
  constructor
  · intro hrun
    rwa [setupFrame_ignored (by simpa using hrun)] at ht
  · intro hrun
    rwa [setupFrame_refused (by simpa using hrun)] at ht

/-- R5: the retire limit of a role and items. -/
theorem retireLimitOf_bounds {role : BitVec 3} {x : Items} {p : Nat} (hp : x.position = some p) :
    (roleOfCode role ≠ some .sort → retireLimitOf role x = some p)
      ∧ (roleOfCode role = some .sort →
          ∃ r, retireLimitOf role x = some r ∧ p ≤ r ∧ (∀ g : Fin 16, x.gatePos[g] ≤ r) ∧ (r = p ∨ ∃ g : Fin 16, x.gatePos[g] = r)) := by
  unfold retireLimitOf
  rw [hp]
  dsimp only
  constructor
  · intro hr
    rw [if_neg hr]
  · intro hr
    rw [if_pos hr]
    obtain ⟨hge, hall, hmem⟩ := foldl_max_spec x.gatePos.toList p
    refine ⟨_, rfl, hge, fun g => hall _ (by simp), hmem.imp_right fun hm => ?_⟩
    obtain ⟨k, hk, he⟩ := List.mem_iff_getElem.mp hm
    exact ⟨⟨k, by simpa using hk⟩, by simpa using he⟩

/-- R5, R34: the table under a limit that has been computed again. -/
theorem recomputeRetire_entries {b u : State} (ht : Tail (recomputeRetire b) u) {r : Nat} (hl : retireLimitOf b.ctl.role b.ctl.items = some r) :
    u.idx.retireLimit = some r ∧ u.table.entries = b.table.entries.filter (fun e => decide (u.posOf e.tag ≤ r)) := by
  obtain ⟨hent, hidx⟩ := recomputeRetire_eq b r hl
  have hpos : ∀ x, u.posOf x = b.posOf x := posOf_congr (by rw [ht.idx, hidx])
  exact ⟨by rw [ht.idx, hidx], by simp only [ht.table, hent, hpos]⟩

theorem recomputeRetire_none {b : State} (hl : retireLimitOf b.ctl.role b.ctl.items = none) :
    recomputeRetire b = b.withIdx { b.idx with retireLimit := none } := by
  unfold recomputeRetire
  rw [hl]

theorem clampGatePos_eq (position : Option Nat) (v : Dev) (low : Nat) (hlow : low = position.getD 0 + 1) :
    clampGatePos position v = if v.mag = 0 then 0 else if v.neg then min 31 low else min 31 (max low v.mag.toNat) := by
  have hz : v.mag.toNat = 0 ↔ v.mag = 0 := by rw [← BitVec.toNat_inj]; simp
  unfold clampGatePos
  subst hlow
  simp only [hz]
  split
  · rfl
  · split <;> simp

/-- R176: a configuration is valid with POSITION and, at SORT, an installed gate, none at or before the position, and a fallback gate. -/
theorem configValid_iff (role : Option Role) (x : Items) :
    configValid role x = true
      ↔ ∃ q, x.position = some q
          ∧ (role = some .sort →
              (∃ g : Fin 16, x.gatePos[g] ≠ 0) ∧ (∀ g : Fin 16, x.gatePos[g] ≠ 0 → q < x.gatePos[g]) ∧ x.fallbackGate ≠ none) := by
  have hex : (∃ y ∈ x.gatePos.toList, y ≠ 0) ↔ ∃ g : Fin 16, x.gatePos[g] ≠ 0 := by
    constructor
    · rintro ⟨y, hy, hne⟩
      obtain ⟨k, hk, rfl⟩ := List.mem_iff_getElem.mp hy
      exact ⟨⟨k, by simpa using hk⟩, by simpa using hne⟩
    · rintro ⟨g, hg⟩
      exact ⟨x.gatePos[g], by simp, hg⟩
  have hall : ∀ q, (∀ y ∈ x.gatePos.toList, y = 0 ∨ q < y) ↔ ∀ g : Fin 16, x.gatePos[g] ≠ 0 → q < x.gatePos[g] := by
    intro q
    constructor
    · exact fun hy g hg => (hy _ (by simp)).resolve_left hg
    · intro hg y hy
      obtain ⟨k, hk, rfl⟩ := List.mem_iff_getElem.mp hy
      have := hg ⟨k, by simpa using hk⟩
      by_cases hz : x.gatePos.toList[k] = 0
      · exact .inl hz
      · exact .inr (by simpa using this (by simpa using hz))
  unfold configValid
  cases hp : x.position with
  | none => simp
  | some p =>
    simp only [Bool.or_eq_true, Bool.and_eq_true, List.any_eq_true, List.all_eq_true, bne_iff_ne, beq_iff_eq, decide_eq_true_eq, Option.some.injEq,
      exists_eq_left', ne_eq, Option.isSome_iff_ne_none] at hex hall ⊢
    rw [hex, hall p, and_assoc]
    tauto

theorem setStation_ready {s : State} (h : s.ctl.run = .config) :
    setStation .ready s.ctl.drain s = offerHail (s.withCtl { s.ctl with run := .ready }) := by
  unfold setStation
  rw [h]
  rfl

theorem forall_gate_set (g : Fin 16) (x : Nat) (v : Vector Nat 16) (P : Nat → Prop) :
    (∀ k : Fin 16, P (v.set g x)[k]) ↔ P x ∧ ∀ k : Fin 16, k ≠ g → P v[k] := by
  constructor
  · exact fun h => ⟨by simpa using h g, fun k hk => by simpa [Vector.getElem_set_ne _ _ (fun he => hk (Fin.ext he.symm))] using h k⟩
  · rintro ⟨hg, ho⟩ k
    by_cases hk : k = g
    · subst hk
      simpa using hg
    · simpa [Vector.getElem_set_ne _ _ (fun he => hk (Fin.ext he.symm))] using ho k hk

theorem exists_gate_set (g : Fin 16) (x : Nat) (v : Vector Nat 16) (P : Nat → Prop) :
    (∃ k : Fin 16, P (v.set g x)[k]) ↔ P x ∨ ∃ k : Fin 16, k ≠ g ∧ P v[k] := by
  have h := (forall_gate_set g x v (fun y => ¬P y)).not
  push Not at h
  rw [h, or_iff_not_imp_left]

/-- Settles O45. -/
theorem setupLimitsAndDone : Obligations.SetupLimitsAndDone := by
  unfold Obligations.SetupLimitsAndDone
  intro t h v s hr hrx ha a p turnedAway
  refine ⟨?_, fun g => ?_, ?_⟩
  · obtain ⟨u, he, ht⟩ := setup_tail (t := t) hr hrx ha false (setPosition v)
    refine ⟨u, he, setup_turnedAway ht, fun hrun => ?_⟩
    rw [setupFrame_config (by simpa using hrun), if_neg (by simp), setPosition, setItems, writePosition, consoleState_ctl] at ht
    have hlim := retireLimitOf_bounds (role := s.ctl.role) (x := { s.ctl.items with position := some (clampUnsigned 1 31 v) }) rfl
    refine ⟨ht, fun hs => ?_, fun hs => ?_, fun r hu => ?_⟩
    · exact (recomputeRetire_entries ht (hlim.1 hs)).1
    · obtain ⟨r, hl, hb⟩ := hlim.2 hs
      exact ⟨r, (recomputeRetire_entries ht hl).1, hb⟩
    · by_cases hs : roleOfCode s.ctl.role = some .sort
      · obtain ⟨r', hl, -⟩ := hlim.2 hs
        obtain ⟨hl', hent⟩ := recomputeRetire_entries ht hl
        obtain rfl : r' = r := by rw [hl'] at hu; exact Option.some.inj hu
        simpa using hent
      · obtain ⟨hl', hent⟩ := recomputeRetire_entries ht (hlim.1 hs)
        rw [hl'] at hu
        obtain rfl := Option.some.inj hu
        simpa using hent
  · obtain ⟨u, he, ht⟩ := setup_tail (t := t) hr hrx ha true (setGatePos g v)
    refine ⟨u, he, setup_turnedAway ht, fun hrun hs => ?_, fun hrun hs => ?_⟩
    · rwa [setupFrame_config (by simpa using hrun), if_pos (by simpa [State.role] using hs)] at ht
    · rw [setupFrame_config (by simpa using hrun), if_neg (by simpa [State.role] using hs), setGatePos, setItems, writeGatePos, consoleState_ctl] at ht
      intro low held
      have hheld : clampGatePos s.ctl.items.position v = held := clampGatePos_eq _ v low (by simp only [low]; cases s.ctl.items.position <;> rfl)
      rw [hheld] at ht
      refine ⟨ht, fun hp => ?_, fun q hp => ?_⟩
      · rw [recomputeRetire_none (by simp [retireLimitOf, hp])] at ht
        exact ⟨by rw [ht.idx]; rfl, by rw [ht.table]; simp⟩
      · obtain ⟨l, hl, hq, hall, hone⟩ :=
          (retireLimitOf_bounds (role := s.ctl.role) (x := { s.ctl.items with gatePos := s.ctl.items.gatePos.set g held }) hp).2 hs
        obtain ⟨hlim, hent⟩ := recomputeRetire_entries ht hl
        obtain ⟨hg, hother⟩ := (forall_gate_set g held s.ctl.items.gatePos (· ≤ l)).mp hall
        exact ⟨l, hlim, hq, hg, hother, hone.imp_right fun hk => ((exists_gate_set g held _ (· = l)).mp hk).imp_left Eq.symm,
          by simpa using hent⟩
  · obtain ⟨u, he, ht⟩ := setup_tail (t := t) hr hrx ha false finishSetup
    have hvalid := configValid_iff s.role s.ctl.items
    refine ⟨u, he, setup_turnedAway ht, fun hrun hv => ?_, fun hrun hv => ?_⟩
    all_goals
      rw [setupFrame_config (by simpa using hrun), if_neg (by simp), finishSetup] at ht
    · rw [if_pos (by simpa [State.role] using hvalid.mpr hv), setStation_ready (by simpa using hrun)] at ht
      simpa using ht
    · rwa [if_neg (by simpa [State.role] using fun hc => hv (hvalid.mp hc))] at ht

/-! ### Late and ahead records (O40) -/

theorem classify_ahead_iff (s : State) (x : BitVec 16) : s.classify x = .ahead ↔ 32768 ≤ s.posOf x := by
  unfold State.classify
  by_cases h : 32768 ≤ s.posOf x
  · simp [h]
  · cases s.idx.retireLimit <;> simp [h]
    split <;> simp

theorem classify_late_iff (s : State) (x : BitVec 16) :
    s.classify x = .late ↔ s.posOf x < 32768 ∧ ¬∃ r, s.idx.retireLimit = some r ∧ s.posOf x ≤ r := by
  have ha := classify_ahead_iff s x
  have hi := classify_inRange_iff s x
  cases hc : s.classify x <;> simp only [hc, reduceCtorEq, false_iff, true_iff] at ha hi ⊢
  · exact fun hh => hh.2 hi.2
  · exact ⟨Nat.not_le.mp ha, fun hh => hi ⟨Nat.not_le.mp ha, hh⟩⟩
  · exact fun hh => absurd ha (Nat.not_le.mpr hh.1)

theorem drainTest_fault_iff (s : State) : (drainTest s).ctl.run = .fault ↔ s.ctl.run = .fault := by
  rw [drainTest_ctl]
  split
  · rename_i h
    simp only [Bool.and_eq_true, beq_iff_eq] at h
    simp [h.1.2]
  · rfl

theorem peerTests_fault_iff (s : State) : (peerTests s).ctl.run = .fault ↔ s.ctl.run = .fault := by
  unfold peerTests realignTest
  split
  · rw [realign, standbyTest_ctl_run, refreshLevels_ctl, drainTest_fault_iff]
    simp
  · simp

theorem heardState_fault_iff {t : Instant} {n : Fin 8} {h : FrameHead} {m : Mark} {s : State} :
    (heardState t n h m s).ctl.run = .fault ↔ s.ctl.run = .fault := by
  rw [heardState, peerTests_fault_iff, rowHeard]
  simp

theorem reportAhead_eq {n : Fin 8} {a : State} (hn : n ≠ a.ctl.node) :
    reportAhead n a = peerTests (a.withPeers (a.peers.set n { a.peers[n] with ahead := true })) := by
  unfold reportAhead modifyRow
  rw [if_neg hn]

theorem reportLate_eq (a : State) (told : Prop) (h : told ↔ roleOfCode a.ctl.role = some .sort ∧ a.idx.retireLimit.isSome = true) :
    (told → reportLate a = raise .unitLate a) ∧ (¬told → reportLate a = a) := by
  unfold reportLate raiseIf State.role
  rw [h]
  constructor
  · intro hh
    rw [if_pos (by simpa using hh)]
  · intro hh
    rw [if_neg (by simpa using hh)]

/-- R166: a unit record of another station comes to the table in `heardState`. -/
theorem record_tail {t : Instant} {n : Fin 8} {h : FrameHead} {m : Mark} {s : State} (hr : s.resetHeld = false) (hrx : s.link.rx = some m)
    (hs : h.sender = BitVec.ofNat 4 n.val) (hn : n ≠ s.ctl.node) (content : Fin 8 → Role → State → State) :
    ∃ u, event t (takeFrame h none (fromActiveSource h content)) s = .next u ∧ Tail (fromActiveSource h content (heardState t n h m s)) u := by
  obtain ⟨u, he, ht⟩ := event_tail t (takeFrame h none (fromActiveSource h content)) s hr
  rw [takeFrame_heard hrx hs hn] at ht
  exact ⟨u, he, ht⟩

theorem tableVerdict_not_ahead {b : VerdictBody} {n : Fin 8} {r : Role} {a : State} (h : a.classify b.tag ≠ .ahead) : tableVerdict b n r a = a := by
  unfold tableVerdict
  split
  · split
    · rfl
    · split <;> [rfl; rfl; contradiction]
  all_goals rfl

theorem tableVerdict_undefined {b : VerdictBody} {n : Fin 8} {r : Role} {a : State} (h : b.reason = 0 ∨ b.reason = 15) :
    tableVerdict b n r a = a := by
  unfold tableVerdict
  split
  · rw [if_pos h]
  all_goals rfl

theorem tableVerdict_ahead {b : VerdictBody} {n : Fin 8} {a : State} (h : a.classify b.tag = .ahead) (h0 : b.reason ≠ 0) (h15 : b.reason ≠ 15) :
    tableVerdict b n .sort a = reportAhead n a := by
  unfold tableVerdict
  dsimp only
  rw [if_neg (not_or.mpr ⟨h0, h15⟩), h]

theorem classOfCode_code (c : EntryClass) : classOfCode c.code = some c := by cases c <;> rfl

theorem qualityOfCode_code (q : Quality) : qualityOfCode q.code = some q := by cases q <;> rfl

theorem roleOfCode_eq_some {c : BitVec 3} {r : Role} (h : roleOfCode c = some r) : c = r.code := by
  revert c
  cases r <;> decide

/-- R23, R24: what the table does with an ENTRY that is not in range. -/
theorem tableEntry_report {b : EntryBody} {cls : EntryClass} (hc : b.cls = cls.code) (n : Fin 8) (a : State) :
    (a.classify b.tag = .late → tableEntry b n .probe a = reportLate a) ∧ (a.classify b.tag = .ahead → tableEntry b n .probe a = reportAhead n a) := by
  constructor <;> intro h <;> simp only [tableEntry, hc, classOfCode_code, h]

/-- R23, R24: what the table does with a VALUE that is not in range, sound or not. -/
theorem tableValue_report {b : ValueBody} {q : Quality} {r : Role} (hr : r = .precise ∨ r = .retest ∨ r = .thermal) (hq : b.quality = q.code)
    (n : Fin 8) (a : State) :
    (a.classify b.tag = .late → tableValue b n r a = reportLate a) ∧ (a.classify b.tag = .ahead → tableValue b n r a = reportAhead n a) := by
  obtain ⟨k, hk⟩ : ∃ k, slotOfRole r = some k := by rcases hr with rfl | rfl | rfl <;> exact ⟨_, rfl⟩
  constructor <;> intro h <;> simp only [tableValue, hk, hq, qualityOfCode_code, h]

/-- R166: a record that the table leaves alone where its sender is the active source of its role. -/
theorem fromActiveSource_leaves {h : FrameHead} {n : Fin 8} {content : Fin 8 → Role → State → State} {a : State}
    (hs : h.sender = BitVec.ofNat 4 n.val)
    (hc : ∀ r, (a.peers[n]).role = some r.code → a.activeSource r.code = some n → a.ctl.run ≠ .fault → content n r a = a) :
    fromActiveSource h content a = a := by
  by_cases hact : ∃ r : Role, (a.peers[n]).role = some r.code ∧ a.activeSource r.code = some n ∧ a.ctl.run ≠ .fault
  · obtain ⟨r, hrow, hsrc, hf⟩ := hact
    rw [fromActiveSource_eq content hs hrow hsrc hf, hc r hrow hsrc hf]
  · unfold fromActiveSource
    rw [hs, stationOfSender_node]
    dsimp only
    split
    · rename_i r hr
      obtain ⟨c, hrow, hcode⟩ := Option.bind_eq_some_iff.mp hr
      obtain rfl := roleOfCode_eq_some hcode
      refine if_neg fun hh => hact ⟨r, hrow, ?_⟩
      simpa only [State.isActiveSource, hrow, Bool.and_eq_true, beq_iff_eq, bne_iff_ne] using hh
    · rfl

/-- Settles O40. -/
theorem verdictLateAndAhead : Obligations.VerdictLateAndAhead := by
  unfold Obligations.VerdictLateAndAhead
  refine ⟨fun b x => ⟨classify_ahead_iff b x, classify_inRange_iff b x, classify_late_iff b x⟩, ?_⟩
  intro t h n m s hr hrx hs hn a marked lateIsTold
  have hna : n ≠ a.ctl.node := by simpa [a, heardState, rowHeard] using hn
  have hmarked : reportAhead n a = marked := reportAhead_eq hna
  have hrole : (a.peers[n]).role = (s.peers[n]).role := heardState_role hn
  have hfault : a.ctl.run = .fault ↔ s.ctl.run = .fault := heardState_fault_iff
  have hlate := reportLate_eq a lateIsTold (by simp [a, lateIsTold, heardState, rowHeard])
  refine ⟨fun b => ?_, fun hf => ⟨fun b cls hrow hact hcls => ?_, fun b q r hmeas hrow hact hq => ?_⟩⟩
  · obtain ⟨u, he, ht⟩ := record_tail (t := t) hr hrx hs hn (tableVerdict b)
    refine ⟨u, he, fun hd => ?_, fun hc => ?_, fun hf hrow hact h0 h15 hc => ?_⟩
    · rwa [fromActiveSource_leaves hs fun r hrow hact hf => ?_] at ht
      rcases hd with hd | hd | hd | hd
      · exact absurd (hfault.mpr hd) hf
      · cases r with
        | sort => exact absurd (hrole.symm.trans hrow) hd
        | _ => rfl
      · cases r with
        | sort => exact absurd hact hd
        | _ => rfl
      · exact tableVerdict_undefined hd
    · rwa [fromActiveSource_leaves hs fun r _ _ _ => tableVerdict_not_ahead hc] at ht
    · rwa [fromActiveSource_eq (r := .sort) _ hs (hrole.trans hrow) hact (mt hfault.mp hf), tableVerdict_ahead hc h0 h15, hmarked] at ht
  · obtain ⟨u, he, ht⟩ := record_tail (t := t) hr hrx hs hn (tableEntry b)
    rw [fromActiveSource_eq (r := .probe) _ hs (hrole.trans hrow) hact (mt hfault.mp hf)] at ht
    obtain ⟨hl, ha⟩ := tableEntry_report hcls n a
    refine ⟨u, he, fun hp htold => ?_, fun hp htold => ?_, fun hp => ?_⟩
    · rwa [hl hp, hlate.1 htold] at ht
    · rwa [hl hp, hlate.2 htold] at ht
    · rwa [ha hp, hmarked] at ht
  · obtain ⟨u, he, ht⟩ := record_tail (t := t) hr hrx hs hn (tableValue b)
    rw [fromActiveSource_eq (r := r) _ hs (hrole.trans hrow) hact (mt hfault.mp hf)] at ht
    obtain ⟨hl, ha⟩ := tableValue_report hmeas hq n a
    refine ⟨u, he, fun hp htold => ?_, fun hp htold => ?_, fun hp => ?_⟩
    · rwa [hl hp, hlate.1 htold] at ht
    · rwa [hl hp, hlate.2 htold] at ht
    · rwa [ha hp, hmarked] at ht

end Sys2Proof.Machine
end

section
/-! Refutes O8 and O9: what they say of TXQ_OVERFLOW fails on a queue that holds more than the six frames of R145. -/

namespace Sys2Proof.Machine

/-- R1: an edge that is accepted is counted. -/
theorem exec_indexEvent {t : Instant} {pins : BitVec 2} {s : State} (hr : s.resetHeld = false)
    (ha : ∀ e, s.idx.lastIndex = some e → e + ms 1 ≤ max s.now t) : exec (.indexEvent t pins) s = .next (settle (indexEffect pins (advance t s))) := by
  have hacc : (advance t s).acceptsEdge = true := by
    unfold State.acceptsEdge
    rw [advance_idx]
    split
    · rename_i e he
      simpa using ha e he
    · rfl
  have hgo : (!(advance t s).resetHeld && (advance t s).acceptsEdge) = true := by rw [hacc, advance_resetHeld, hr]; rfl
  exact congrArg Host.Outcome.next (if_pos hgo)

/-- A PROBE station in RUN and ACTIVE on a line that is not idle, with seven HAILs in its queue and no other frame to send. No run leads to it (`QueueOk`), but a statement over every state speaks of it. -/
def overfull (position : Option Nat) : State :=
  (State.reset.withCtl { State.reset.ctl with role := 0, run := .run, items := { State.reset.ctl.items with position := position } }).withLink
    { State.reset.link with queue := List.replicate 7 { frame := .hail, waiting := 0 } }

/-- The station that an index event at instant 0 leaves of it. -/
def overfullIndexed (position : Option Nat) : State := settle (indexEffect 0 (advance 0 (overfull position)))

theorem exec_overfull (position : Option Nat) : exec (.indexEvent 0 0) (overfull position) = .next (overfullIndexed position) :=
  exec_indexEvent rfl fun _ he => by cases he

/-- Nothing is offered, so nothing finds the queue full. -/
theorem overfullIndexed_overflow (position : Option Nat) (h : position = none ∨ position = some 0) :
    flagIn (overfullIndexed position).alerts.word .txqOverflow = false := by
  rcases h with rfl | rfl <;> rfl

/-- Seven frames and no record offered: `IndexSends` asks for TXQ_OVERFLOW all the same. -/
theorem not_indexSends_overfull (position : Option Nat) (h : position = none ∨ position = some 0) :
    ¬IndexSends 0 (overfull position) (abortedRecords (overfull position)) (overfullIndexed position) := by
  intro hs
  obtain ⟨more, -, -, -, -, hover, -⟩ := hs rfl
  have hsends : SendsUnits (overfull position) := ⟨rfl, .inl rfl⟩
  have hlong : 6 < (agedQueue (advance 0 (overfull position))).length + (abortedRecords (overfull position)).length := by rcases h with rfl | rfl <;> decide
  exact absurd (hover hsends hlong) (by rw [overfullIndexed_overflow position h]; decide)

/-- Refutes O8: a full queue raises TXQ_OVERFLOW only where a record is offered to it. The station has no POSITION, so it works on no unit. -/
theorem not_indexEventCounts : ¬ Obligations.IndexEventCounts := by
  unfold Obligations.IndexEventCounts
  intro h
  obtain ⟨u, he, -, -, -, -, -, -, -, -, -, -, -, -, -, -, -, -, hsends, -⟩ := (h 0 0 (overfull none) rfl).2 (fun e he => by cases he)
  obtain rfl : overfullIndexed none = u := by
    rw [exec_overfull] at he
    exact Host.Outcome.next.inj he
  rcases hsends (by decide) with hsends | ⟨r, -, ⟨-, -, p, hp, -⟩, -⟩
  · exact not_indexSends_overfull none (.inl rfl) hsends
  · cases hp

/-- Refutes O9: the COARSE measurement that starts offers no frame, and the queue of seven raises no TXQ_OVERFLOW. -/
theorem not_indexStartsCoarse : ¬ Obligations.IndexStartsCoarse := by
  unfold Obligations.IndexStartsCoarse
  intro h
  obtain ⟨u, c, he, -, -, -, -, -, -, -, -, -, -, -, -, -, -, -, -, -, -, -, -, -, hsends, -⟩ := h 0 0 (overfull (some 0)) 0 rfl (fun e he => by cases he) rfl rfl rfl rfl
  obtain rfl : overfullIndexed (some 0) = u := by
    rw [exec_overfull] at he
    exact Host.Outcome.next.inj he
  exact not_indexSends_overfull (some 0) (.inr rfl) hsends

end Sys2Proof.Machine
end

section
/-! What leaves the Unit Table, with the PASSED tally, and what a verdict counts (R34, R35, R121 to R124). -/

namespace Sys2Proof.Machine

/-! ### Entries that leave (R35, R124) -/

/-- R121: adding twice is adding the sum. -/
theorem tallyAdd_add (v : BitVec 16) (m n : Nat) : tallyAdd (tallyAdd v m) n = tallyAdd v (m + n) := by
  unfold tallyAdd
  congr 1
  rw [BitVec.toNat_ofNat]
  omega

theorem tallyAdd_zero (v : BitVec 16) : tallyAdd v 0 = v := by
  refine BitVec.eq_of_toNat_eq ?_
  have := v.isLt
  rw [tallyAdd, BitVec.toNat_ofNat]
  omega

/-- R124: of the entries that `gone` names those that pass beyond SORT without a verdict, for the tally at place `k`. -/
def passedCount (gone : Entry → Bool) (s : State) (k : Fin 15) : Nat :=
  if k = passedPlace then s.table.entries.countP (fun e => gone e && s.passes e) else 0

/-- The entries that `gone` names leave, each counted PASSED where R124 says so, and no other reason tally changes. -/
structure Removes (gone : Entry → Bool) (a b : State) : Prop where
  entries : b.table.entries = a.table.entries.filter (fun e => !gone e)
  tallies : ∀ k : Fin 15, b.gates.reasonTallies[k] = tallyAdd a.gates.reasonTallies[k] (passedCount gone a k)
  passes : b.passes = a.passes

theorem passes_congr {a b : State} (hr : b.ctl.role = a.ctl.role) (hp : b.ctl.items.position = a.ctl.items.position) (hc : b.idx.count = a.idx.count) :
    b.passes = a.passes := by
  funext e
  unfold State.passes State.role State.position State.posOf
  rw [hr, hp, hc]

@[simp] theorem countReason_reasonTallies (place : Fin 15) (n : Nat) (s : State) (k : Fin 15) :
    (countReason place n s).gates.reasonTallies[k] = tallyAdd s.gates.reasonTallies[k] (if k = place then n else 0) := by
  unfold countReason
  by_cases h : k = place
  · subst h
    simp
  · have hne : place.val ≠ k.val := fun he => h (Fin.ext he.symm)
    simp [h, hne, tallyAdd_zero]

theorem removeEntries_removes (gone : Entry → Bool) (s : State) : Removes gone s (removeEntries gone s) where
  entries := removeEntries_entries gone s
  tallies k := by
    have hr : ∀ out, (rememberRemoved out s).gates = s.gates := fun out => by simp
    unfold removeEntries passedCount
    dsimp only
    rw [State.withTable_gates, List.countP_filter]
    simp only [Bool.and_comm]
    split
    · rename_i h0
      simp only [h0, hr, ite_self, tallyAdd_zero]
    · simp only [countReason_reasonTallies, hr]
  passes := passes_congr (by simp) (by simp) (by simp)

/-- Acts that leave the entries and the reason tallies alone remove nothing. -/
theorem Removes.of_same {gone : Entry → Bool} {a b : State} (hg : ∀ e ∈ a.table.entries, gone e = false) (he : b.table.entries = a.table.entries)
    (ht : b.gates.reasonTallies = a.gates.reasonTallies) (hp : b.passes = a.passes) : Removes gone a b where
  entries := by
    rw [he, List.filter_eq_self.mpr]
    intro e hm
    simp [hg e hm]
  tallies k := by
    have h0 : a.table.entries.countP (fun e => gone e && a.passes e) = 0 := by
      rw [List.countP_eq_zero]
      intro e hm
      simp [hg e hm]
    simp [ht, passedCount, h0, tallyAdd_zero]
  passes := hp

theorem Removes.congr {gone gone' : Entry → Bool} {a b : State} (h : Removes gone a b) (hg : ∀ e ∈ a.table.entries, gone' e = gone e) :
    Removes gone' a b where
  entries := by
    rw [h.entries]
    exact List.filter_congr fun e he => by rw [hg e he]
  tallies k := by
    rw [h.tallies, passedCount, passedCount]
    congr 2
    exact List.countP_congr fun e he => by rw [hg e he]
  passes := h.passes

/-- One removal after another. -/
theorem Removes.trans {g₁ g₂ : Entry → Bool} {a b c : State} (h₁ : Removes g₁ a b) (h₂ : Removes g₂ b c) : Removes (fun e => g₁ e || g₂ e) a c where
  entries := by
    rw [h₂.entries, h₁.entries, List.filter_filter]
    exact List.filter_congr fun e _ => by cases g₁ e <;> simp
  tallies k := by
    rw [h₂.tallies, h₁.tallies, tallyAdd_add]
    congr 1
    unfold passedCount
    split
    · rw [h₁.entries, h₁.passes, List.countP_filter, List.countP_eq_countP_filter_add a.table.entries (fun e => (g₁ e || g₂ e) && a.passes e) g₁, List.countP_filter, List.countP_filter]
      congr 1 <;> refine List.countP_congr fun e _ => ?_ <;> cases g₁ e <;> cases g₂ e <;> simp
    · rfl
  passes := h₂.passes.trans h₁.passes

theorem Removes.after {gone : Entry → Bool} {a x b : State} (h : Removes gone x b) (he : x.table.entries = a.table.entries)
    (ht : x.gates.reasonTallies = a.gates.reasonTallies) (hp : x.passes = a.passes) : Removes gone a b :=
  ((Removes.of_same (gone := fun _ => false) (fun _ _ => rfl) he ht hp).trans h).congr fun _ _ => by simp

theorem cutFiring_removes (s : State) (f : Firing) : Removes (fun e => e.tag == f.tag) s (cutFiring s f) :=
  (removeEntries_removes _ _).after (by simp) (by simp [dropFiring, setDriver]) (passes_congr (by simp) (by simp) (by simp))

theorem missFiring_removes (s : State) (f : Firing) : Removes (fun e => e.tag == f.tag) s (missFiring s f) :=
  (removeEntries_removes _ _).after (by simp) (by simp [dropFiring]) (passes_congr (by simp) (by simp) (by simp))

theorem foldl_removes {op : State → Firing → State} (h : ∀ s f, Removes (fun e => e.tag == f.tag) s (op s f)) (l : List Firing) (s : State) :
    Removes (fun e => l.any (fun f => e.tag == f.tag)) s (l.foldl op s) := by
  induction l generalizing s with
  | nil => exact .of_same (by simp) rfl rfl rfl
  | cons f l ih => exact ((h s f).trans (ih _)).congr fun _ _ => by simp

/-- R131: the entries of the firings in progress leave. -/
theorem cutAll_removes (s : State) : Removes (fun e => s.gates.firings.any (fun f => f.stage != .waiting && e.tag == f.tag)) s (cutAll s) := by
  have hfold := foldl_removes cutFiring_removes (s.gates.firings.filter (fun f => f.stage != .waiting)) s
  simp only [List.any_filter] at hfold
  unfold cutAll
  dsimp only
  split
  · rename_i he
    refine .of_same (fun e _ => ?_) rfl rfl rfl
    rw [List.isEmpty_iff, List.filter_eq_nil_iff] at he
    rw [List.any_eq_false]
    intro f hf
    simp [he f hf]
  · exact ⟨hfold.entries, hfold.tallies, hfold.passes⟩

/-- R132: the entries of the WAITING firings whose unit has passed its gate leave. -/
theorem dropPassed_removes (s : State) :
    Removes (fun e => s.gates.firings.any (fun f => f.stage == .waiting && s.passedGate f && e.tag == f.tag)) s (dropPassed s) := by
  have hfold := foldl_removes missFiring_removes (s.gates.firings.filter (fun f => f.stage == .waiting && s.passedGate f)) s
  simp only [List.any_filter] at hfold
  exact hfold

/-! ### The flags of the cut-offs and the drops -/

theorem foldl_flag {op : State → Firing → State} {x : AlertFlag}
    (h : ∀ s f g, flagIn (op s f).alerts.word g = (flagIn s.alerts.word g || x == g)) (l : List Firing) (s : State) (g : AlertFlag) :
    flagIn (l.foldl op s).alerts.word g = (flagIn s.alerts.word g || (!l.isEmpty && x == g)) := by
  induction l generalizing s with
  | nil => simp
  | cons f l ih =>
    rw [List.foldl_cons, ih, h]
    cases x == g <;> simp

theorem cutAll_flag (s : State) (g : AlertFlag) :
    flagIn (cutAll s).alerts.word g = (flagIn s.alerts.word g || (s.gates.firings.any (fun f => f.stage != .waiting) && .gateOverrun == g)) := by
  have hcut : ∀ s f g, flagIn (cutFiring s f).alerts.word g = (flagIn s.alerts.word g || AlertFlag.gateOverrun == g) := fun s f g => by
    simp [cutFiring]
  have hfold := foldl_flag hcut (s.gates.firings.filter (fun f => f.stage != .waiting)) s g
  have hany : (!(s.gates.firings.filter (fun f => f.stage != .waiting)).isEmpty) = s.gates.firings.any (fun f => f.stage != .waiting) := by
    rw [Bool.eq_iff_iff]
    simp
  rw [hany] at hfold
  unfold cutAll
  dsimp only
  split
  · rename_i he
    rw [← hany, he]
    simp
  · simpa using hfold

theorem dropPassed_flag (s : State) (g : AlertFlag) :
    flagIn (dropPassed s).alerts.word g
      = (flagIn s.alerts.word g || (s.gates.firings.any (fun f => f.stage == .waiting && s.passedGate f) && .gateMissed == g)) := by
  have hmiss : ∀ s f g, flagIn (missFiring s f).alerts.word g = (flagIn s.alerts.word g || AlertFlag.gateMissed == g) := fun s f g => by
    simp [missFiring]
  have hfold := foldl_flag hmiss (s.gates.firings.filter (fun f => f.stage == .waiting && s.passedGate f)) s g
  have hany : (!(s.gates.firings.filter (fun f => f.stage == .waiting && s.passedGate f)).isEmpty)
      = s.gates.firings.any (fun f => f.stage == .waiting && s.passedGate f) := by
    rw [Bool.eq_iff_iff]
    simp
  rwa [hany] at hfold

/-! ### What a verdict counts (R121 to R123) -/

theorem capacityCheck_congr {a b : State} (hp : b.pages = a.pages) (ht : b.gates.binTallies = a.gates.binTallies) : capacityCheck b = capacityCheck a := by
  funext v
  have hbin : b.binTally = a.binTally := by funext q k; simp [State.binTally, ht]
  unfold capacityCheck State.page
  rw [hp, hbin]

/-- R122: the capacity check keeps the page, and changes the reason of a BINNED verdict alone. -/
theorem capacityCheck_noEntry (s : State) (g : Fin 17) :
    capacityCheck s { page := none, reason := .noEntry, bin := none, gate := g } = { page := none, reason := .noEntry, bin := none, gate := g } := rfl

theorem setBinTally_binTally (p : Fin 4) (b : Fin 16) (v : BitVec 16) (s : State) (q : Fin 4) (k : Fin 16) :
    (setBinTally p b v s).binTally q k = if p = q ∧ b = k then v else s.binTally q k := by
  unfold State.binTally setBinTally
  by_cases hp : p = q
  · subst hp
    by_cases hb : b = k
    · subst hb
      simp
    · have hne : b.val ≠ k.val := fun he => hb (Fin.ext he)
      simp [hb, hne]
  · have hne : p.val ≠ q.val := fun he => hp (Fin.ext he)
    simp [hp, hne]

theorem countReason_binTally (place : Fin 15) (n : Nat) (s : State) : (countReason place n s).binTally = s.binTally := by
  funext q k
  rfl

/-- R123: a verdict counts its reason once. -/
theorem countVerdict_reasonTallies (v : Provisional) (s : State) (k : Fin 15) :
    (countVerdict v s).gates.reasonTallies[k] = tallyAdd s.gates.reasonTallies[k] (if k = v.reason.place then 1 else 0) := by
  have hset : ∀ p b x (a : State), (setBinTally p b x a).gates.reasonTallies = a.gates.reasonTallies := fun _ _ _ _ => rfl
  unfold countVerdict
  dsimp only
  split
  · rw [hset, countReason_reasonTallies]
  · rw [countReason_reasonTallies]

/-- R123: a BINNED verdict counts its bin, another none. -/
theorem countVerdict_binTally (v : Provisional) (s : State) (q : Fin 4) (b : Fin 16) :
    (countVerdict v s).binTally q b
      = if v.reason = .binned ∧ v.page = some q ∧ v.bin = some b then tallyAdd (s.binTally q b) 1 else s.binTally q b := by
  unfold countVerdict
  dsimp only
  split
  · rename_i pg k hr hp hb
    rw [setBinTally_binTally, countReason_binTally, hr, hp, hb]
    by_cases h : pg = q ∧ k = b
    · obtain ⟨rfl, rfl⟩ := h
      simp
    · simp only [if_neg h, true_and, Option.some.injEq]
  · rename_i hno
    rw [countReason_binTally, if_neg]
    rintro ⟨hr, hp, hb⟩
    exact hno _ _ hr hp hb

end Sys2Proof.Machine
end

section
/-! The index event of a SORT station, act by act: what the cut-offs and drops leave, the decision, and the end of the command (R113, R122 to R128, R145). -/

namespace Sys2Proof.Machine

/-! ### Where the end of a command puts a HAIL and an ALERT (R145) -/

theorem offer_full {f : QFrame} {s : State} (h : 6 ≤ s.link.queue.length) : (offer f s).link = s.link := by
  have h0 : s.freePlaces = 0 := Nat.sub_eq_zero_of_le h
  unfold offer
  rw [if_pos h0]
  split
  · rfl
  · simp

theorem offerOnce_more (f : QFrame) (s : State) :
    ∃ more, (offerOnce f s).link.queue = s.link.queue ++ more ∧ ∀ q ∈ more, q = { frame := f, waiting := 0 } := by
  unfold offerOnce
  split
  · exact ⟨[], by simp⟩
  · rcases offer_queue f s with h | h
    · exact ⟨[], by simp [h]⟩
    · exact ⟨_, h, by simp⟩

theorem offerOnceIf_more (c : Bool) (f : QFrame) (s : State) :
    ∃ more, (if c then offerOnce f s else s).link.queue = s.link.queue ++ more ∧ ∀ q ∈ more, q = { frame := f, waiting := 0 } := by
  cases c
  · exact ⟨[], by simp⟩
  · exact offerOnce_more f s

theorem offerOnceIf_full {c : Bool} {f : QFrame} {s : State} (h : 6 ≤ s.link.queue.length) :
    (if c then offerOnce f s else s).link.queue = s.link.queue := by
  cases c
  · rfl
  · unfold offerOnce
    simp only [if_true]
    split
    · rfl
    · rw [offer_full h]

/-- The station once a command's unit records have been offered, before its other frames. -/
def unitsOffered (a : State) : State := a.work.units.foldl (fun x f => offer f x) (refreshLevels (drainTest a))

theorem flush_more {s : State} (hs : s.work.status = []) :
    ∃ more, (flush s).link.queue = (s.work.units.foldl (fun x f => offer f x) s).link.queue ++ more
      ∧ (∀ q ∈ more, q.waiting = 0 ∧ (q.frame = .hail ∨ q.frame = .alert))
      ∧ (6 ≤ (s.work.units.foldl (fun x f => offer f x) s).link.queue.length → more = []) := by
  have hst : (s.work.units.foldl (fun x f => offer f x) s).work.status = [] := by simpa using hs
  unfold flush
  generalize s.work.units.foldl (fun x f => offer f x) s = a at hst ⊢
  have hreply : offerReply a.work.status a = a := by rw [hst]; rfl
  dsimp only
  rw [hreply, State.withWork_link]
  obtain ⟨m₁, hm₁, hh⟩ := offerOnceIf_more a.work.hail .hail a
  have hfull₁ := offerOnceIf_full (c := a.work.hail) (f := .hail) (s := a)
  generalize (if a.work.hail = true then offerOnce .hail a else a) = b at hm₁ hfull₁ ⊢
  obtain ⟨m₂, hm₂, ha⟩ := offerOnceIf_more (b.work.alert && b.admits .alert) .alert b
  refine ⟨m₁ ++ m₂, by rw [hm₂, hm₁, List.append_assoc], fun q hq => ?_, fun hlen => ?_⟩
  · rcases List.mem_append.mp hq with hq | hq
    · simp [hh q hq]
    · simp [ha q hq]
  · have h1 : m₁ = [] := by simpa [hfull₁ hlen] using hm₁
    have h2 : m₂ = [] := by
      have hb : 6 ≤ b.link.queue.length := by rwa [hfull₁ hlen]
      rw [offerOnceIf_full hb] at hm₂
      simpa using hm₂
    rw [h1, h2]
    rfl

/-- R145: a command that offers no reply leaves the queue with its unit records, and then at most a HAIL and an ALERT behind them. -/
theorem settle_more {a : State} (hs : a.work.status = []) :
    ∃ more, (settle a).link.queue = (unitsOffered a).link.queue ++ more
      ∧ (∀ q ∈ more, q.waiting = 0 ∧ (q.frame = .hail ∨ q.frame = .alert)) ∧ (6 ≤ (unitsOffered a).link.queue.length → more = []) := by
  obtain ⟨more, hq, hm⟩ := flush_more (s := refreshLevels (drainTest a)) (by simpa using hs)
  simp only [refreshLevels_work_units, drainTest_work_units] at hq hm
  exact ⟨more, by rw [settle, tryStart_link_queue, hq]; rfl, hm⟩

/-- R145: a command that offers no unit record. -/
theorem unitsOffered_none {a : State} (hu : a.work.units = []) : (unitsOffered a).link.queue = a.link.queue := by
  simp [unitsOffered, hu]

/-- R145: one unit record that the station admits joins the queue, or finds it full and raises TXQ_OVERFLOW. -/
theorem unitsOffered_one {a : State} {f : QFrame} (hu : a.work.units = [f]) (had : a.admits f = true) :
    (a.link.queue.length < 6 → (unitsOffered a).link.queue = a.link.queue ++ [{ frame := f, waiting := 0 }])
      ∧ (6 ≤ a.link.queue.length → (unitsOffered a).link.queue = a.link.queue ∧ flagIn (settle a).alerts.word .txqOverflow = true) := by
  have hofr : unitsOffered a = offer f (refreshLevels (drainTest a)) := by simp [unitsOffered, hu]
  have hadm : (refreshLevels (drainTest a)).admits f = true := by rw [admits_congr (a := drainTest a) (by simp), drainTest_admits, had]
  have hlink : (refreshLevels (drainTest a)).link = a.link := by simp
  constructor
  · intro hlen
    have h0 : (refreshLevels (drainTest a)).freePlaces ≠ 0 := by
      rw [State.freePlaces, hlink]
      exact Nat.sub_ne_zero_of_lt hlen
    rw [hofr, offer, hadm, if_neg (by simp), if_neg h0, enqueue, State.withLink_link, hlink]
    rfl
  · intro hlen
    have h0 : (refreshLevels (drainTest a)).freePlaces = 0 := by
      rw [State.freePlaces, hlink]
      exact Nat.sub_eq_zero_of_le hlen
    refine ⟨by rw [hofr, offer_full (by rwa [hlink]), hlink], ?_⟩
    have hraised : flagIn (unitsOffered a).alerts.word .txqOverflow = true := by
      rw [hofr, offer, hadm, if_neg (by simp), if_pos h0, raise_flag]
      simp
    have hkeep := (flush_afterUnits (refreshLevels (drainTest a))).keptFlags .txqOverflow
    simp only [refreshLevels_work_units, drainTest_work_units] at hkeep
    rw [settle, tryStart_alerts]
    exact hkeep hraised

/-! ### What the cut-offs and the drops leave (R128, steps 1 and 2) -/

/-- R131, R132: the firings that stay: WAITING, and their unit not past its gate. -/
def State.leftFirings (s : State) : List Firing :=
  s.gates.firings.filter (fun f => f.stage == .waiting && decide (s.posOf f.tag ≤ s.gatePosOf f.gate))

/-- R131, R132: the firing of a tag leaves, and its entry with it. -/
def State.loses (s : State) (x : BitVec 16) : Bool := s.gates.firings.any (fun f => f.tag == x) && !s.leftFirings.any (fun f => f.tag == x)

/-- R128: the station after steps 1 and 2 of an index event. -/
def State.swept (s : State) : State := dropPassed (cutAll s)

theorem passedGate_cutAll (s : State) : (cutAll s).passedGate = s.passedGate := by
  funext f
  unfold State.passedGate State.gatePosOf
  rw [posOf_congr (a := s) (by simp), cutAll_ctl]

theorem swept_firings {s : State} (h : GatesOk s) : s.swept.gates.firings = s.leftFirings := by
  rw [State.swept, dropPassed_firings h.cutAll.nodup, cutAll_firings h.nodup, List.filter_filter, State.leftFirings]
  refine List.filter_congr fun f _ => ?_
  rw [passedGate_cutAll, State.passedGate]
  cases hw : f.stage == .waiting
  · simp
  · rw [Bool.eq_iff_iff]
    simp

/-- A tag that loses its firing is that of a firing in progress or of one past its gate. -/
theorem loses_iff {s : State} (h : GatesOk s) (x : BitVec 16) :
    s.loses x = true ↔ ∃ f ∈ s.gates.firings, f.tag = x ∧ (f.stage ≠ .waiting ∨ s.passedGate f = true) := by
  have hleft : ∀ f, f ∈ s.leftFirings ↔ f ∈ s.gates.firings ∧ f.stage = .waiting ∧ s.passedGate f = false := fun f => by
    simp [State.leftFirings, State.passedGate]
  simp only [State.loses, Bool.and_eq_true, List.any_eq_true, beq_iff_eq, Bool.not_eq_true', List.any_eq_false]
  constructor
  · rintro ⟨⟨f, hf, rfl⟩, hno⟩
    refine ⟨f, hf, rfl, ?_⟩
    by_contra hn
    obtain ⟨hw, hp⟩ := not_or.mp hn
    exact hno f ((hleft f).mpr ⟨hf, not_not.mp hw, by simpa using hp⟩) rfl
  · rintro ⟨f, hf, rfl, hgone⟩
    refine ⟨⟨f, hf, rfl⟩, fun y hy he => ?_⟩
    obtain ⟨hym, hyw, hyp⟩ := (hleft y).mp hy
    rw [h.tag_inj hym hf he] at hyw hyp
    rcases hgone with hgone | hgone
    · exact hgone hyw
    · rw [hyp] at hgone
      cases hgone

theorem swept_removes {s : State} (h : GatesOk s) : Removes (fun e => s.loses e.tag) s s.swept := by
  refine ((cutAll_removes s).trans (dropPassed_removes (cutAll s))).congr fun e _ => ?_
  rw [Bool.eq_iff_iff, loses_iff h, cutAll_firings h.nodup, passedGate_cutAll]
  simp only [Bool.or_eq_true, List.any_eq_true, List.mem_filter, Bool.and_eq_true, bne_iff_ne, beq_iff_eq]
  constructor
  · rintro ⟨f, hf, he, hw | hp⟩
    · exact .inl ⟨f, hf, hw, he.symm⟩
    · by_cases hw : f.stage = .waiting
      · exact .inr ⟨f, ⟨hf, hw⟩, ⟨hw, hp⟩, he.symm⟩
      · exact .inl ⟨f, hf, hw, he.symm⟩
  · rintro (⟨f, hf, hw, he⟩ | ⟨f, ⟨hf, -⟩, ⟨-, hp⟩, he⟩)
    · exact ⟨f, hf, he.symm, .inl hw⟩
    · exact ⟨f, hf, he.symm, .inr hp⟩

/-- Entries that leave by their tags: the others are found as before. -/
theorem entryOf_filter {a b : State} {gone : BitVec 16 → Bool} (h : b.table.entries = a.table.entries.filter (fun e => !gone e.tag)) (x : BitVec 16) :
    b.entryOf x = if gone x then none else a.entryOf x := by
  unfold State.entryOf
  rw [h, List.find?_filter]
  cases hg : gone x
  · refine List.find?_congr fun e _ => ?_
    by_cases he : e.tag = x
    · simp [he, hg]
    · simp [he]
  · rw [if_pos rfl, List.find?_eq_none]
    rintro e - he
    obtain ⟨hk, rfl⟩ : gone e.tag = false ∧ e.tag = x := by simpa using he
    rw [hg] at hk
    cases hk

/-! ### The decision (R113, R122 to R127) -/

/-- R113: the unit that has just passed the SORT position, under the new count. -/
def State.decisionTag (s : State) : BitVec 16 := s.idx.count - BitVec.ofNat 16 (s.position.getD 0) - 1

/-- R113: what the reason table or the missing entry says of a unit. -/
def verdictOf (s : State) (held : Option Entry) : Provisional :=
  match held with
  | some e => judge s e
  | none => { page := none, reason := .noEntry, bin := none, gate := s.fallback }

/-- R113: the unit is decided: an entry held without a verdict, or no entry and no firing. -/
def State.decides (s : State) : Bool :=
  s.ctl.items.position.isSome && s.ctl.activity == .active && (s.ctl.run == .run || s.ctl.run == .halt)
    && (match s.swept.entryOf s.decisionTag with
        | some e => e.verdict.isNone
        | none => !s.leftFirings.any (fun f => f.tag == s.decisionTag))

theorem judge_congr {a b : State} (hp : b.pages = a.pages) (hi : b.ctl.items = a.ctl.items) : judge b = judge a := by
  funext e
  unfold judge State.fallback State.page
  rw [hp, hi]

@[simp] theorem swept_ctl (s : State) : s.swept.ctl = s.ctl := by simp [State.swept]

@[simp] theorem swept_count (s : State) : s.swept.idx.count = s.idx.count := by simp [State.swept]

theorem swept_verdictOf (s : State) : verdictOf s.swept = verdictOf s := by
  funext held
  have hj := judge_congr (a := s) (b := s.swept) (by simp [State.swept]) (by simp)
  cases held <;> simp [verdictOf, hj, State.fallback]

theorem firingOf_isSome_iff (s : State) (x : BitVec 16) : (s.firingOf x).isSome = s.gates.firings.any (fun f => f.tag == x) := by
  rw [Bool.eq_iff_iff, State.firingOf, List.find?_isSome]
  simp

/-- R113: the decision asked of what the first two steps have left. -/
theorem decideUnit_swept {s : State} (h : GatesOk s) :
    decideUnit s.swept
      = if s.decides then completeVerdict s.decisionTag (verdictOf s (s.swept.entryOf s.decisionTag)) s.swept else s.swept := by
  have hfir : ∀ x, (s.swept.firingOf x).isSome = s.leftFirings.any (fun f => f.tag == x) := fun x => by
    rw [firingOf_isSome_iff, swept_firings h]
  rw [← swept_verdictOf]
  unfold decideUnit State.decides State.decisionTag State.position
  simp only [swept_ctl, swept_count, hfir]
  cases hp : s.ctl.items.position with
  | none => simp
  | some p =>
    by_cases ha : s.ctl.activity = .active ∧ (s.ctl.run = .run ∨ s.ctl.run = .halt)
    · have hgo : (s.ctl.activity == .active && (s.ctl.run == .run || s.ctl.run == .halt)) = true := by simpa using ha
      simp only [if_pos ha, Option.getD_some, Option.isSome_some, Bool.true_and, hgo]
      cases he : s.swept.entryOf (s.idx.count - BitVec.ofNat 16 p - 1) with
      | none => cases s.leftFirings.any (fun f => f.tag == s.idx.count - BitVec.ofNat 16 p - 1) <;> simp [verdictOf]
      | some e => cases hv : e.verdict <;> simp [verdictOf, hv]
    · have hgo : (s.ctl.activity == .active && (s.ctl.run == .run || s.ctl.run == .halt)) = false := by simpa using ha
      simp only [if_neg ha, Option.isSome_some, Bool.true_and, hgo, Bool.false_and]
      simp

theorem scheduleAt_alert (tag : BitVec 16) (o : Option (Fin 16)) (page : Option (Fin 4)) (s : State) (g : AlertFlag) :
    flagIn (scheduleAt tag o page s).alerts.word g
      = (flagIn s.alerts.word g
          || (decide (o ≠ none ∧ s.firingOf tag = none ∧ 32 ≤ s.gates.firings.length) && AlertFlag.gateMissed == g)) := by
  cases o with
  | none => simp [scheduleAt]
  | some o =>
    unfold scheduleAt schedule
    dsimp only
    cases hf : s.firingOf tag with
    | some f => simp
    | none =>
      by_cases hl : 32 ≤ s.gates.firings.length
      · simp [show Config.firingCapacity = 32 from rfl, hl]
      · simp [show Config.firingCapacity = 32 from rfl, hl]

end Sys2Proof.Machine
end

section
/-! What the index event of a SORT station leaves: firings, entries, tallies, flags and frames (R121 to R128, R131, R132). -/

namespace Sys2Proof.Machine

/-! ### A verdict completed -/

section CompleteVerdict

variable (tag : BitVec 16) (v : Provisional) (s : State)

theorem completeVerdict_entries :
    (completeVerdict tag v s).table.entries = s.table.entries.map (fun e => if e.tag == tag then e.judged (finalVerdict v s) else e) := by
  have hs : ∀ o page a, (scheduleAt tag o page a).table = a.table := fun o page a => by cases o <;> simp [scheduleAt]
  rw [completeVerdict_eq]
  simp [modifyEntry, hs]

theorem completeVerdict_reasonTallies (k : Fin 15) :
    (completeVerdict tag v s).gates.reasonTallies[k] = tallyAdd s.gates.reasonTallies[k] (if k = (capacityCheck s v).reason.place then 1 else 0) := by
  have hs : ∀ o page a, (scheduleAt tag o page a).gates.reasonTallies = a.gates.reasonTallies := fun o page a => by cases o <;> simp [scheduleAt]
  rw [completeVerdict_eq]
  simp only [offerUnit_gates, modifyEntry_gates, hs, raiseIf_gates, countVerdict_reasonTallies]

theorem completeVerdict_binTally (q : Fin 4) (b : Fin 16) :
    (completeVerdict tag v s).binTally q b
      = if (capacityCheck s v).reason = .binned ∧ (capacityCheck s v).page = some q ∧ (capacityCheck s v).bin = some b
        then tallyAdd (s.binTally q b) 1 else s.binTally q b := by
  have hs : ∀ o page a, (scheduleAt tag o page a).gates.binTallies = a.gates.binTallies := fun o page a => by cases o <;> simp [scheduleAt]
  rw [completeVerdict_eq, ← countVerdict_binTally]
  simp only [State.binTally, offerUnit_gates, modifyEntry_gates, hs, raiseIf_gates]

/-- R126: a verdict adds a firing at most: one at the gate it resolves to, where the tag has none and the list has room. -/
theorem mem_completeVerdict_firings (f : Firing) :
    f ∈ (completeVerdict tag v s).gates.firings
      ↔ f ∈ s.gates.firings
        ∨ ∃ o, (resolveGate s (capacityCheck s v).gate).2.1 = some o ∧ s.firingOf tag = none ∧ s.gates.firings.length < 32
            ∧ f = { tag := tag, gate := o, page := (capacityCheck s v).page, stage := .waiting } := by
  have hsame : (raiseIf (resolveGate s (capacityCheck s v).gate).2.2 .gateMissed (countVerdict (capacityCheck s v) s)).gates.firings = s.gates.firings := by
    simp
  rw [completeVerdict_eq, offerUnit_gates, modifyEntry_gates]
  cases ho : (resolveGate s (capacityCheck s v).gate).2.1 with
  | none => simp [scheduleAt]
  | some o =>
    rw [scheduleAt, schedule_firings]
    simp only [State.firingOf, hsame]
    split
    · rename_i hc
      rw [(insertFiring_perm _ _ _).mem_iff, List.mem_cons]
      simp [hc, or_comm]
    · rename_i hc
      simp only [Option.some.injEq, exists_eq_left']
      exact ⟨.inl, fun h => h.resolve_right fun hh => hc ⟨hh.1, hh.2.1⟩⟩

theorem completeVerdict_flag (g : AlertFlag) :
    flagIn (completeVerdict tag v s).alerts.word g
      = (flagIn s.alerts.word g
          || (((resolveGate s (capacityCheck s v).gate).2.2
              || decide ((resolveGate s (capacityCheck s v).gate).2.1 ≠ none ∧ s.firingOf tag = none ∧ 32 ≤ s.gates.firings.length))
            && AlertFlag.gateMissed == g)) := by
  have hf : (raiseIf (resolveGate s (capacityCheck s v).gate).2.2 .gateMissed (countVerdict (capacityCheck s v) s)).firingOf tag = s.firingOf tag := by
    simp [State.firingOf]
  rw [completeVerdict_eq, offerUnit_alerts, modifyEntry_alerts, scheduleAt_alert, raiseIf_flag]
  simp only [hf, raiseIf_gates, countVerdict_gates_firings, countVerdict_alerts, Bool.or_assoc, ← Bool.and_or_distrib_right]

theorem completeVerdict_units : (completeVerdict tag v s).work.units = s.work.units ++ [.verdict tag (finalVerdict v s)] := by
  have hs : ∀ o page a, (scheduleAt tag o page a).work.units = a.work.units := fun o page a => by cases o <;> simp [scheduleAt]
  rw [completeVerdict_eq]
  simp [offerUnit, hs]

end CompleteVerdict

/-! ### Entries of distinct tags -/

theorem RangeOk.nodup {k : Nat} {s : State} (h : RangeOk k s) : s.heldTags.Nodup :=
  h.sorted.imp fun {a b} hab he => by rw [he] at hab; exact absurd hab (Nat.lt_irrefl _)

/-- The entries of distinct tags that a test keeps: the entry of a tag is found where it is kept. -/
theorem entryOf_keep {a b : State} {keep : Entry → Bool} (hn : a.heldTags.Nodup) (h : b.table.entries = a.table.entries.filter keep) (x : BitVec 16) :
    b.entryOf x = (a.entryOf x).filter keep := by
  unfold State.entryOf State.heldTags at *
  rw [h]
  generalize a.table.entries = l at hn
  induction l with
  | nil => rfl
  | cons e l ih =>
    obtain ⟨he, hl⟩ := List.nodup_cons.mp hn
    have hno : e.tag = x → l.find? (fun y => y.tag == x) = none := fun hx => List.find?_eq_none.mpr fun y hy hyx =>
      he (List.mem_map.mpr ⟨y, hy, (beq_iff_eq.mp hyx).trans hx.symm⟩)
    by_cases hx : e.tag = x <;> cases hk : keep e
    · simp [hk, hx, ih hl, hno hx, Option.filter]
    · simp [hk, hx, Option.filter]
    · simp [hk, hx, ih hl]
    · simp [hk, hx, ih hl]

theorem entryOf_map {a b : State} {g : Entry → Entry} (hg : ∀ e, (g e).tag = e.tag) (h : b.table.entries = a.table.entries.map g) (x : BitVec 16) :
    b.entryOf x = (a.entryOf x).map g := by
  unfold State.entryOf
  rw [h, List.find?_map]
  simp only [Function.comp_def, hg]

theorem entryOf_mem {s : State} {x : BitVec 16} {e : Entry} (h : s.entryOf x = some e) : e ∈ s.table.entries ∧ e.tag = x :=
  ⟨List.mem_of_find?_eq_some h, by simpa using List.find?_some h⟩

theorem entryOf_of_mem {s : State} (hn : s.heldTags.Nodup) {e : Entry} (he : e ∈ s.table.entries) : s.entryOf e.tag = some e := by
  obtain ⟨y, hy⟩ : ∃ y, s.entryOf e.tag = some y := by
    rw [← Option.isSome_iff_exists, State.entryOf, List.find?_isSome]
    exact ⟨e, he, by simp⟩
  obtain ⟨hym, hyt⟩ := entryOf_mem hy
  rw [hy, List.inj_on_of_nodup_map hn hym he hyt]

/-! ### The decision and what follows it -/

/-- R113, R122: what is decided of the unit that has passed SORT, where it is decided. -/
def State.decision (s : State) : Provisional := capacityCheck s (verdictOf s (s.swept.entryOf s.decisionTag))

/-- R122, R125: the verdict that is recorded and sent. -/
def State.decisionVerdict (s : State) : Verdict :=
  { reason := s.decision.reason, bin := s.decision.bin, gate := (resolveGate s s.decision.gate).1 }

/-- R129: the stage of a WAITING firing once those that are due have started. -/
def State.stageAfter (s : State) (f : Firing) : FiringStage := if s.posOf f.tag = s.gatePosOf f.gate then startedStage s else .waiting

section SortEvent

variable {c : State} (hr : RangeOk 1 c) (hg : GatesOk c)

theorem swept_capacityCheck (v : Provisional) : capacityCheck c.swept v = capacityCheck c v :=
  congrFun (capacityCheck_congr (by simp [State.swept]) (by simp [State.swept])) v

theorem swept_resolveGate (g : Fin 17) : resolveGate c.swept g = resolveGate c g := resolveGate_congr (by simp) g

theorem swept_posOf (x : BitVec 16) : c.swept.posOf x = c.posOf x := posOf_congr (by simp) x

theorem decided_posOf (x : BitVec 16) : (decideUnit c.swept).posOf x = c.posOf x := posOf_congr (by simp) x

include hg in
theorem swept_entryOf (x : BitVec 16) : c.swept.entryOf x = if c.loses x then none else c.entryOf x := entryOf_filter (swept_removes hg).entries x

include hg in
theorem swept_firingOf_none (x : BitVec 16) : c.swept.firingOf x = none ↔ c.leftFirings.any (fun f => f.tag == x) = false := by
  rw [← Bool.not_eq_true, ← swept_firings hg, ← firingOf_isSome_iff]
  simp

/-- R113: the entry of the unit takes its verdict where the unit is decided. -/
def State.withVerdict (s : State) (e : Entry) : Entry := if s.decides && e.tag == s.decisionTag then e.judged s.decisionVerdict else e

@[simp] theorem withVerdict_tag (e : Entry) : (c.withVerdict e).tag = e.tag := by
  unfold State.withVerdict
  split <;> rfl

include hg in
theorem decided_entries : (decideUnit c.swept).table.entries = c.swept.table.entries.map c.withVerdict := by
  rw [decideUnit_swept hg]
  unfold State.withVerdict
  cases hd : c.decides
  · simp
  · have hfinal : finalVerdict (verdictOf c (c.swept.entryOf c.decisionTag)) c.swept = c.decisionVerdict := by
      simp only [finalVerdict, swept_capacityCheck, swept_resolveGate]
      rfl
    rw [if_pos rfl, completeVerdict_entries, hfinal]
    simp

include hg in
theorem decided_entryOf (x : BitVec 16) : (decideUnit c.swept).entryOf x = (if c.loses x then none else c.entryOf x).map c.withVerdict := by
  rw [entryOf_map withVerdict_tag (decided_entries hg), swept_entryOf hg]

/-- R126: a firing is added for the unit that is decided. -/
def State.adds (s : State) (o : Fin 16) : Prop :=
  s.decides = true ∧ (resolveGate s s.decision.gate).2.1 = some o ∧ s.leftFirings.any (fun f => f.tag == s.decisionTag) = false
    ∧ s.leftFirings.length < 32

/-- R126: the firing added. -/
def State.added (s : State) (o : Fin 16) : Firing := { tag := s.decisionTag, gate := o, page := s.decision.page, stage := .waiting }

include hg in
theorem mem_decided_firings (f : Firing) :
    f ∈ (decideUnit c.swept).gates.firings ↔ f ∈ c.leftFirings ∨ ∃ o, c.adds o ∧ f = c.added o := by
  rw [decideUnit_swept hg]
  unfold State.adds State.added State.decision
  cases hd : c.decides
  · simp [swept_firings hg]
  · rw [if_pos rfl, mem_completeVerdict_firings]
    simp only [swept_capacityCheck, swept_resolveGate, swept_firingOf_none hg, swept_firings hg, true_and, and_assoc]

include hg in
theorem decided_reasonTallies (k : Fin 15) :
    (decideUnit c.swept).gates.reasonTallies[k]
      = tallyAdd c.swept.gates.reasonTallies[k] (if c.decides ∧ k = c.decision.reason.place then 1 else 0) := by
  rw [decideUnit_swept hg]
  unfold State.decision
  cases hd : c.decides
  · simp [tallyAdd_zero]
  · rw [if_pos rfl, completeVerdict_reasonTallies, swept_capacityCheck]
    simp

include hg in
theorem decided_binTally (q : Fin 4) (b : Fin 16) :
    (decideUnit c.swept).binTally q b
      = if c.decides ∧ c.decision.reason = .binned ∧ c.decision.page = some q ∧ c.decision.bin = some b then tallyAdd (c.binTally q b) 1
        else c.binTally q b := by
  have hb : c.swept.binTally q b = c.binTally q b := by simp [State.binTally, State.swept]
  rw [decideUnit_swept hg]
  unfold State.decision
  cases hd : c.decides
  · simp [hb]
  · rw [if_pos rfl, completeVerdict_binTally, swept_capacityCheck, hb]
    simp

include hg in
theorem decided_units :
    (decideUnit c.swept).work.units = c.work.units ++ if c.decides then [.verdict c.decisionTag c.decisionVerdict] else [] := by
  have hu : c.swept.work.units = c.work.units := by simp [State.swept]
  have hfinal : finalVerdict (verdictOf c (c.swept.entryOf c.decisionTag)) c.swept = c.decisionVerdict := by
    simp only [finalVerdict, swept_capacityCheck, swept_resolveGate]
    rfl
  rw [decideUnit_swept hg]
  cases hd : c.decides
  · simp [hu]
  · rw [if_pos rfl, completeVerdict_units, hu, hfinal]
    simp

include hg in
/-- R131, R132, R125, R126: the flags raised. -/
theorem decided_flag (g : AlertFlag) :
    flagIn (decideUnit c.swept).alerts.word g
      = (flagIn c.swept.alerts.word g
          || (c.decides && ((resolveGate c c.decision.gate).2.2
              || decide ((resolveGate c c.decision.gate).2.1 ≠ none ∧ c.leftFirings.any (fun f => f.tag == c.decisionTag) = false
                  ∧ 32 ≤ c.leftFirings.length))
            && AlertFlag.gateMissed == g)) := by
  rw [decideUnit_swept hg]
  unfold State.decision
  cases hd : c.decides
  · simp
  · rw [if_pos rfl, completeVerdict_flag]
    simp only [swept_capacityCheck, swept_resolveGate, swept_firingOf_none hg, swept_firings hg, Bool.true_and]

end SortEvent

end Sys2Proof.Machine
end

section
/-! Settles O27: the index event of a SORT station, from its decision to the firings that start. -/

namespace Sys2Proof.Machine

/-- R5: where an entry is held, POSITION and the retire limit are present. -/
theorem RangeOk.limits {k : Nat} {s : State} (h : RangeOk k s) {e : Entry} (he : e ∈ s.table.entries) :
    ∃ p r, s.position = some p ∧ s.idx.retireLimit = some r ∧ p ≤ r ∧ r ≤ 31 ∧ s.posOf e.tag ≤ r + k := by
  obtain ⟨r, hr, hle⟩ := h.within e.tag (List.mem_map.mpr ⟨e, he, rfl⟩)
  obtain ⟨p, hp, hpr, -⟩ := retireLimitOf_some (h.limit ▸ hr)
  exact ⟨p, r, hp, hr, hpr, h.toLimitsOk.limit_le hr, hle⟩

/-- R124: at SORT an entry without a verdict and beyond the position passes. -/
theorem passes_sort {s : State} (hs : s.role = some .sort) {p : Nat} (hp : s.position = some p) (e : Entry) :
    s.passes e = (e.verdict == none && decide (p + 1 ≤ s.posOf e.tag) && decide (s.posOf e.tag ≤ 32767)) := by
  unfold State.passes
  rw [hs, hp]

section SortEvent

variable {c : State} (hr : RangeOk 1 c) (hg : GatesOk c)

/-- R126: a firing is pending for a tag after the decision. -/
def State.pends (s : State) (x : BitVec 16) : Prop := s.leftFirings.any (fun f => f.tag == x) = true ∨ x = s.decisionTag ∧ ∃ o, s.adds o

include hg in
theorem decided_firingOf_isNone (x : BitVec 16) : (decideUnit c.swept).firingOf x = none ↔ ¬c.pends x := by
  rw [firingOf_none_iff]
  simp only [mem_decided_firings hg, State.pends, List.any_eq_true, beq_iff_eq]
  constructor
  · rintro h (⟨f, hf, rfl⟩ | ⟨rfl, o, ho⟩)
    · exact h f (.inl hf) rfl
    · exact h (c.added o) (.inr ⟨o, ho, rfl⟩) rfl
  · rintro h f (hf | ⟨o, ho, rfl⟩) rfl
    · exact h (.inl ⟨f, hf, rfl⟩)
    · exact h (.inr ⟨rfl, o, ho⟩)

include hg in
/-- R35: which of the entries leave after the decision. -/
theorem decided_leaves_iff {p r : Nat} (hp : c.position = some p) (hl : c.idx.retireLimit = some r) (e : Entry) :
    (decideUnit c.swept).leavesSort e = true
      ↔ r < c.posOf e.tag ∨ (p < c.posOf e.tag ∧ ¬c.pends e.tag ∧ (c.ctl.run ≠ .fault ∨ e.verdict = none)) := by
  have hidx : (decideUnit c.swept).idx.retireLimit = some r := by simpa [State.swept] using hl
  have hpos : (decideUnit c.swept).position = some p := by simpa [State.position] using hp
  have hrun : (decideUnit c.swept).ctl.run = c.ctl.run := by simp
  unfold State.leavesSort
  rw [hidx, hpos, hrun, decided_posOf]
  simp [decided_firingOf_isNone hg, and_assoc]

/-- R124: whether an entry passes at this event, decided or not. -/
def State.passesNow (s : State) (e : Entry) : Bool :=
  e.verdict == none && decide (s.position.getD 0 < s.posOf e.tag)
    && (decide (s.idx.retireLimit.getD 0 < s.posOf e.tag) || !s.leftFirings.any (fun f => f.tag == e.tag))
    && !(s.decides && (s.swept.entryOf s.decisionTag).isSome && e.tag == s.decisionTag)

include hr hg in
/-- R131, R132: an entry that leaves with its firing passes where it has no verdict and is beyond SORT. -/
theorem passesNow_of_loses (hsort : c.role = some .sort) {e : Entry} (he : e ∈ c.table.entries) (hlost : c.loses e.tag = true) :
    c.passesNow e = c.passes e := by
  obtain ⟨p, r, hp, hl, hpr, h31, hle⟩ := hr.limits he
  have hleft : c.leftFirings.any (fun f => f.tag == e.tag) = false := by
    simp only [State.loses, Bool.and_eq_true, Bool.not_eq_true'] at hlost
    exact hlost.2
  have hheld : e.tag = c.decisionTag → c.swept.entryOf c.decisionTag = none := fun ht => by rw [swept_entryOf hg, ← ht, if_pos hlost]
  rw [passes_sort hsort hp, State.passesNow, hp, hleft, Bool.eq_iff_iff]
  simp only [Option.getD_some, Bool.and_eq_true, beq_iff_eq, decide_eq_true_eq, Bool.not_false, Bool.or_true, and_true, Bool.not_eq_true',
    Bool.and_eq_false_iff, beq_eq_false_iff_ne, Option.isSome_eq_false_iff, Option.isNone_iff_eq_none]
  constructor
  · rintro ⟨⟨hv, hlt⟩, -⟩
    exact ⟨⟨hv, hlt⟩, by omega⟩
  · rintro ⟨⟨hv, hlt⟩, -⟩
    refine ⟨⟨hv, hlt⟩, ?_⟩
    by_cases ht : e.tag = c.decisionTag
    · exact .inl (.inr (hheld ht))
    · exact .inr ht

include hr hg in
/-- R35, R124: an entry that is still held at the decision passes where it leaves without a verdict. -/
theorem passesNow_of_stays (hsort : c.role = some .sort) {e : Entry} (he : e ∈ c.table.entries) (hkept : c.loses e.tag = false) :
    c.passesNow e = ((decideUnit c.swept).leavesSort (c.withVerdict e) && (decideUnit c.swept).passes (c.withVerdict e)) := by
  obtain ⟨p, r, hp, hl, hpr, h31, hle⟩ := hr.limits he
  have hpos : (decideUnit c.swept).position = some p := by simpa [State.position] using hp
  have hrole : (decideUnit c.swept).role = some .sort := by simpa [State.role] using hsort
  have hheld : c.swept.entryOf e.tag = some e := by rw [swept_entryOf hg, hkept, if_neg (by simp), entryOf_of_mem hr.nodup he]
  rw [passes_sort hrole hpos, decided_posOf, Bool.eq_iff_iff, Bool.and_eq_true, decided_leaves_iff hg hp hl, State.passesNow, hp, hl]
  by_cases hdec : c.decides = true ∧ e.tag = c.decisionTag
  · obtain ⟨hd, ht⟩ := hdec
    have hj : c.withVerdict e = e.judged c.decisionVerdict := by
      unfold State.withVerdict
      rw [if_pos (by simp [hd, ht])]
    rw [← ht, hheld, hj, hd]
    simp [Entry.judged]
  · have hv : c.withVerdict e = e := by
      unfold State.withVerdict
      rw [if_neg]
      simpa using hdec
    have hpend : c.pends e.tag ↔ c.leftFirings.any (fun f => f.tag == e.tag) = true :=
      ⟨fun h => h.elim id fun ⟨ht, o, ho⟩ => absurd ⟨ho.1, ht⟩ hdec, .inl⟩
    rw [hv, hpend]
    simp only [Option.getD_some, Bool.and_eq_true, Bool.or_eq_true, beq_iff_eq, decide_eq_true_eq, Bool.not_eq_true', Bool.not_eq_true,
      Bool.and_eq_false_iff, beq_eq_false_iff_ne]
    constructor
    · rintro ⟨⟨⟨hverd, hlt⟩, hgo⟩, -⟩
      exact ⟨hgo.imp_right fun hno => ⟨hlt, hno, .inr hverd⟩, ⟨hverd, hlt⟩, by omega⟩
    · rintro ⟨hgo, ⟨hverd, hlt⟩, -⟩
      refine ⟨⟨⟨hverd, hlt⟩, hgo.imp_right fun hno => hno.2.1⟩, ?_⟩
      by_cases hd : c.decides = true
      · exact .inr fun ht => hdec ⟨hd, ht⟩
      · exact .inl (.inl (by simpa using hd))

include hr hg in
/-- R124: the entries that pass are those that pass with their firings and those that pass after the decision. -/
theorem passed_split (hsort : c.role = some .sort) :
    c.table.entries.countP c.passesNow
      = c.table.entries.countP (fun e => c.loses e.tag && c.passes e)
        + (decideUnit c.swept).table.entries.countP (fun e => (decideUnit c.swept).leavesSort e && (decideUnit c.swept).passes e) := by
  rw [List.countP_eq_countP_filter_add c.table.entries c.passesNow (fun e => c.loses e.tag), List.countP_filter, decided_entries hg,
    (swept_removes hg).entries, List.countP_map, List.countP_filter, List.countP_filter]
  congr 1
  · refine List.countP_congr fun e he => ?_
    cases hlost : c.loses e.tag
    · simp
    · simp [passesNow_of_loses hr hg hsort he hlost]
  · refine List.countP_congr fun e he => ?_
    cases hlost : c.loses e.tag
    · simp [passesNow_of_stays hr hg hsort he hlost]
    · simp

/-- R128: the index event of a SORT station, its steps 3 to 5 after the first two. -/
theorem sortIndexEvent_eq (s : State) :
    sortIndexEvent s = startDue (removeEntries (decideUnit s.swept).leavesSort (decideUnit s.swept)) := rfl

include hr hg in
theorem sorted_reasonTallies (hsort : c.role = some .sort) (k : Fin 15) :
    (sortIndexEvent c).gates.reasonTallies[k]
      = tallyAdd c.gates.reasonTallies[k]
          ((if c.decides ∧ k = c.decision.reason.place then 1 else 0) + (if k = passedPlace then c.table.entries.countP c.passesNow else 0)) := by
  rw [sortIndexEvent_eq, startDue_gates_reasonTallies, (removeEntries_removes _ _).tallies, decided_reasonTallies hg, (swept_removes hg).tallies,
    tallyAdd_add, tallyAdd_add, passed_split hr hg hsort]
  congr 1
  unfold passedCount
  dsimp only
  split <;> omega

theorem sorted_binTally (hg : GatesOk c) (q : Fin 4) (b : Fin 16) :
    (sortIndexEvent c).binTally q b
      = if c.decides ∧ c.decision.reason = .binned ∧ c.decision.page = some q ∧ c.decision.bin = some b then tallyAdd (c.binTally q b) 1
        else c.binTally q b := by
  rw [← decided_binTally hg, sortIndexEvent_eq]
  simp [State.binTally]

/-! ### Firings and drivers -/

include hg in
theorem mem_sorted_firings (f : Firing) :
    f ∈ (sortIndexEvent c).gates.firings
      ↔ (∃ x ∈ c.leftFirings, f = { x with stage := c.stageAfter x }) ∨ ∃ o, c.adds o ∧ f = { c.added o with stage := c.stageAfter (c.added o) } := by
  have hall : AllWaiting (decideUnit c.swept) := hg.decided
  have hstage : ∀ x ∈ (decideUnit c.swept).gates.firings,
      (if x.stage = .waiting ∧ c.posOf x.tag = c.gatePosOf x.gate then { x with stage := startedStage c } else x) = { x with stage := c.stageAfter x } := by
    intro x hx
    have hw := hall.waiting x hx
    unfold State.stageAfter
    by_cases hp : c.posOf x.tag = c.gatePosOf x.gate
    · simp [hw, hp]
    · simp [hp, ← hw]
  have hfir : (sortIndexEvent c).gates.firings = (decideUnit c.swept).gates.firings.map (fun x => { x with stage := c.stageAfter x }) := by
    rw [sortIndexEvent_eq, startDue_firings (by simpa using hall.nodup)]
    simp only [removeEntries_gates_firings]
    refine List.map_congr_left fun x hx => ?_
    have hgate : (removeEntries (decideUnit c.swept).leavesSort (decideUnit c.swept)).gatePosOf x.gate = c.gatePosOf x.gate := by
      simp [State.gatePosOf]
    rw [← hstage x hx, posOf_congr (a := c) (by simp), startedStage_congr (a := c) (by simp), hgate]
  rw [hfir, List.mem_map]
  simp only [mem_decided_firings hg]
  constructor
  · rintro ⟨x, hx | ⟨o, ho, rfl⟩, rfl⟩
    · exact .inl ⟨x, hx, rfl⟩
    · exact .inr ⟨o, ho, rfl⟩
  · rintro (⟨x, hx, rfl⟩ | ⟨o, ho, rfl⟩)
    · exact ⟨x, .inl hx, rfl⟩
    · exact ⟨_, .inr ⟨o, ho, rfl⟩, rfl⟩

include hg in
/-- R128 step 4: a gate with a firing that is due is driven, and the firing request stands. -/
theorem sorted_driver_due {f : Firing} (hf : f ∈ (sortIndexEvent c).gates.firings) (hdue : c.posOf f.tag = c.gatePosOf f.gate) :
    (sortIndexEvent c).idx.firingReq = true ∧ (sortIndexEvent c).gates.drivers[f.gate] = startedDriver c f := by
  have hall : AllWaiting (decideUnit c.swept) := hg.decided
  obtain ⟨x, hx, rfl⟩ : ∃ x ∈ (decideUnit c.swept).gates.firings, f = { x with stage := c.stageAfter x } := by
    rcases (mem_sorted_firings hg f).mp hf with ⟨x, hx, rfl⟩ | ⟨o, ho, rfl⟩
    · exact ⟨x, (mem_decided_firings hg x).mpr (.inl hx), rfl⟩
    · exact ⟨_, (mem_decided_firings hg _).mpr (.inr ⟨o, ho, rfl⟩), rfl⟩
  have hmem : x ∈ (removeEntries (decideUnit c.swept).leavesSort (decideUnit c.swept)).dueFirings := by
    rw [mem_dueFirings, posOf_congr (a := c) (by simp)]
    exact ⟨by simpa using hx, hall.waiting x hx, by simpa [State.gatePosOf] using hdue⟩
  rw [sortIndexEvent_eq, startDue_firingReq]
  refine ⟨by simp [List.ne_nil_of_mem hmem], ?_⟩
  show (startDue _).gates.drivers[x.gate] = _
  rw [startDue_driver_due (by simpa using hall.nodup) hmem, startedDriver_congr (a := c) (by simp [State.swept]) (by simp)]
  rfl

include hg in
/-- R128: where no firing is due every driver is IDLE and the firing request is clear. -/
theorem sorted_idle (hnone : ∀ f ∈ (sortIndexEvent c).gates.firings, c.posOf f.tag ≠ c.gatePosOf f.gate) :
    (sortIndexEvent c).idx.firingReq = false ∧ (sortIndexEvent c).gates.drivers = Vector.replicate 16 .idle := by
  have hall : AllWaiting (decideUnit c.swept) := hg.decided
  have hno : (removeEntries (decideUnit c.swept).leavesSort (decideUnit c.swept)).dueFirings = [] := by
    rw [List.eq_nil_iff_forall_not_mem]
    intro x hx
    obtain ⟨hm, -, hp⟩ := mem_dueFirings.mp hx
    rw [posOf_congr (a := c) (by simp)] at hp
    have hmem : { x with stage := c.stageAfter x } ∈ (sortIndexEvent c).gates.firings := by
      rw [mem_sorted_firings hg]
      rcases (mem_decided_firings hg x).mp (by simpa using hm) with hx | ⟨o, ho, rfl⟩
      · exact .inl ⟨x, hx, rfl⟩
      · exact .inr ⟨o, ho, rfl⟩
    exact hnone _ hmem (by simpa [State.gatePosOf] using hp)
  rw [sortIndexEvent_eq, startDue_eq, if_pos hno]
  refine ⟨by simpa using hall.firingReq, Vector.ext fun k hk => ?_⟩
  simpa using hall.drivers ⟨k, hk⟩

/-! ### Entries, flags and frames -/

include hr hg in
theorem sorted_entryOf (x : BitVec 16) :
    (sortIndexEvent c).entryOf x
      = ((if c.loses x then none else c.entryOf x).map c.withVerdict).filter (fun e => !(decideUnit c.swept).leavesSort e) := by
  have hn : (decideUnit c.swept).heldTags.Nodup := by
    have htags : (decideUnit c.swept).heldTags.Sublist c.heldTags := by
      rw [State.heldTags, decided_entries hg, (swept_removes hg).entries, List.map_map]
      simp only [Function.comp_def, withVerdict_tag]
      exact List.filter_sublist.map Entry.tag
    exact hr.nodup.sublist htags
  rw [← decided_entryOf hg]
  exact entryOf_keep hn (by rw [sortIndexEvent_eq, startDue_table, removeEntries_entries]) x

include hr hg in
/-- R35: an entry held that takes no verdict at this event stays within the limits, or while a firing is pending. -/
theorem sorted_entryOf_other {e : Entry} (he : e ∈ c.table.entries) (hother : c.decides = true → e.tag ≠ c.decisionTag) :
    (sortIndexEvent c).entryOf e.tag
      = if c.loses e.tag = false ∧ c.posOf e.tag ≤ c.idx.retireLimit.getD 0
          ∧ (c.posOf e.tag ≤ c.position.getD 0 ∨ c.leftFirings.any (fun f => f.tag == e.tag) = true
            ∨ (c.ctl.run = .fault ∧ e.verdict ≠ none))
        then some e else none := by
  obtain ⟨p, r, hp, hl, -, -, -⟩ := hr.limits he
  have hv : c.withVerdict e = e := by
    unfold State.withVerdict
    rw [if_neg]
    simpa using hother
  have hpend : c.pends e.tag ↔ c.leftFirings.any (fun f => f.tag == e.tag) = true :=
    ⟨fun h => h.elim id fun ⟨ht, o, ho⟩ => absurd ht (hother ho.1), .inl⟩
  rw [sorted_entryOf hr hg, entryOf_of_mem hr.nodup he, hp, hl]
  cases hlost : c.loses e.tag
  · have hleaves := decided_leaves_iff hg hp hl e
    rw [hpend] at hleaves
    simp only [Bool.false_eq_true, if_false, Option.map_some, hv, Option.filter_some, Bool.not_eq_true', true_and, Option.getD_some]
    congr 1
    rw [← Bool.not_eq_true, hleaves, eq_iff_iff]
    constructor
    · intro h
      refine ⟨Nat.not_lt.mp fun hlt => h (.inl hlt), ?_⟩
      by_contra hno
      obtain ⟨hle, hno⟩ := not_or.mp hno
      obtain ⟨hleft, hfault⟩ := not_or.mp hno
      refine h (.inr ⟨Nat.not_le.mp hle, hleft, ?_⟩)
      by_contra hh
      obtain ⟨h1, h2⟩ := not_or.mp hh
      exact hfault ⟨not_not.mp h1, h2⟩
    · rintro ⟨hle, hstay⟩ (hlt | ⟨hlt, hno, hrun⟩)
      · exact absurd hle (Nat.not_le.mpr hlt)
      · rcases hstay with hstay | hstay | ⟨h1, h2⟩
        · exact absurd hstay (Nat.not_le.mpr hlt)
        · exact hno hstay
        · exact hrun.elim (fun h => h h1) h2
  · simp

include hr hg in
/-- R33, R35: what becomes of the entry of the unit that is decided. -/
theorem sorted_entryOf_decided (hd : c.decides = true) {p r : Nat} (hp : c.position = some p) (hl : c.idx.retireLimit = some r)
    (hrun : c.ctl.run ≠ .fault) (hpos : c.posOf c.decisionTag = p + 1) :
    (p < r → c.pends c.decisionTag →
        (sortIndexEvent c).entryOf c.decisionTag = (c.swept.entryOf c.decisionTag).map (Entry.judged c.decisionVerdict))
      ∧ (¬c.pends c.decisionTag → (sortIndexEvent c).entryOf c.decisionTag = none) := by
  have htag : ∀ e, c.swept.entryOf c.decisionTag = some e → e.tag = c.decisionTag := fun e he => (entryOf_mem he).2
  have hj : (c.swept.entryOf c.decisionTag).map c.withVerdict = (c.swept.entryOf c.decisionTag).map (Entry.judged c.decisionVerdict) := by
    refine Option.map_congr fun e he => ?_
    unfold State.withVerdict
    rw [if_pos (by simp [hd, htag e he])]
  rw [sorted_entryOf hr hg, ← swept_entryOf hg, hj]
  constructor
  · intro hlt hpend
    cases hx : c.swept.entryOf c.decisionTag with
    | none => rfl
    | some x =>
      have hleaves := decided_leaves_iff hg hp hl (x.judged c.decisionVerdict)
      rw [show (x.judged c.decisionVerdict).tag = c.decisionTag from htag x hx, hpos] at hleaves
      rw [Option.map_some, Option.filter_some, if_pos]
      rw [Bool.not_eq_true', ← Bool.not_eq_true, hleaves]
      rintro (h | ⟨-, h, -⟩)
      · omega
      · exact h hpend
  · intro hno
    rw [Option.filter_eq_none_iff]
    intro e he
    obtain ⟨x, hx, rfl⟩ := Option.map_eq_some_iff.mp he
    have hleaves := decided_leaves_iff hg hp hl (x.judged c.decisionVerdict)
    rw [show (x.judged c.decisionVerdict).tag = c.decisionTag from htag x hx, hpos] at hleaves
    simpa using hleaves.mpr (.inr ⟨by omega, hno, .inl hrun⟩)

theorem swept_flag (s : State) (g : AlertFlag) :
    flagIn s.swept.alerts.word g
      = (flagIn s.alerts.word g || (s.gates.firings.any (fun f => f.stage != .waiting) && .gateOverrun == g)
          || ((cutAll s).gates.firings.any (fun f => f.stage == .waiting && s.passedGate f) && .gateMissed == g)) := by
  rw [State.swept, dropPassed_flag, cutAll_flag, passedGate_cutAll]

include hg in
theorem sorted_flag (g : AlertFlag) :
    flagIn (sortIndexEvent c).alerts.word g
      = (flagIn c.swept.alerts.word g
          || (c.decides && ((resolveGate c c.decision.gate).2.2
              || decide ((resolveGate c c.decision.gate).2.1 ≠ none ∧ c.leftFirings.any (fun f => f.tag == c.decisionTag) = false
                  ∧ 32 ≤ c.leftFirings.length))
            && AlertFlag.gateMissed == g)) := by
  rw [← decided_flag hg, sortIndexEvent_eq]
  simp

theorem sorted_units (hg : GatesOk c) :
    (sortIndexEvent c).work.units = c.work.units ++ if c.decides then [.verdict c.decisionTag c.decisionVerdict] else [] := by
  rw [← decided_units hg, sortIndexEvent_eq]
  simp

end SortEvent

end Sys2Proof.Machine
end

section
/-! Settles O27 from the acts of the index event of a SORT station. -/

namespace Sys2Proof.Machine

/-- R60: a station that measures nothing has nothing to abort. -/
theorem abortRunning_idle {s : State} (h : s.eng.ctx = none) : abortRunning s = s := by simp [abortRunning, endRunning, h, raiseIf]

section Counted

variable (pins : BitVec 2) (s : State)

@[simp] theorem counted_now : (counted pins s).now = s.now := by simp [counted]

@[simp] theorem counted_resetHeld : (counted pins s).resetHeld = s.resetHeld := by simp [counted]

@[simp] theorem counted_count : (counted pins s).idx.count = s.idx.count + 1 := by simp [counted, countEdge]

@[simp] theorem counted_retireLimit : (counted pins s).idx.retireLimit = s.idx.retireLimit := by simp [counted]

@[simp] theorem counted_table : (counted pins s).table = s.table := by simp [counted]

@[simp] theorem counted_eng : (counted pins s).eng = s.eng := by simp [counted]

@[simp] theorem counted_pages : (counted pins s).pages = s.pages := by simp [counted]

@[simp] theorem counted_gates : (counted pins s).gates = s.gates := by simp [counted]

@[simp] theorem counted_ctl : (counted pins s).ctl = s.ctl := by simp [counted]

@[simp] theorem counted_units : (counted pins s).work.units = s.work.units := by simp [counted]

@[simp] theorem counted_status : (counted pins s).work.status = s.work.status := by simp [counted]

theorem counted_queue : (counted pins s).link.queue = (s.link.queue.map QItem.age).filter (fun q => !q.isStale) := by
  simp [counted, ageQueue, keepQueued]

theorem counted_rangeOk (h : RangeOk 0 s) : RangeOk 1 (counted pins s) :=
  (Shrinks.of_table (by simp [countEdge]) (by simp [countEdge]) : Shrinks (countEdge s) (counted pins s)).rangeOk h.countEdge

end Counted

/-- R128: an accepted edge at an idle SORT station. -/
theorem indexEffect_sort {pins : BitVec 2} {s : State} (hr : roleOfCode s.ctl.role = some .sort) (hc : s.eng.ctx = none) :
    indexEffect pins s = sortIndexEvent (counted pins s) := by
  rw [indexEffect_eq, if_pos (by simpa [State.role] using hr), abortRunning_idle (by simpa using hc)]

/-- R145: what the end of the index event queues: the VERDICT first, where the station has decided and the queue has room. -/
theorem sorted_queue {c : State} (hg : GatesOk c) (hu : c.work.units = []) (hs : c.work.status = []) :
    ∃ more, (∀ q ∈ more, q.frame = .hail ∨ q.frame = .alert)
      ∧ (c.decides = true → c.link.queue.length < 6 →
          (settle (sortIndexEvent c)).link.queue
            = c.link.queue ++ [{ frame := .verdict c.decisionTag c.decisionVerdict, waiting := 0 }] ++ more)
      ∧ (c.decides = true → 6 ≤ c.link.queue.length →
          (settle (sortIndexEvent c)).link.queue = c.link.queue ∧ flagIn (settle (sortIndexEvent c)).alerts.word .txqOverflow = true)
      ∧ (c.decides = false → (settle (sortIndexEvent c)).link.queue = c.link.queue ++ more) := by
  have hunits := sorted_units hg
  rw [hu, List.nil_append] at hunits
  have hlink : (sortIndexEvent c).link.queue = c.link.queue := by simp
  obtain ⟨more, hq, hm, hfull⟩ := settle_more (a := sortIndexEvent c) (by simpa using hs)
  have had : c.decides = true → (sortIndexEvent c).admits (.verdict c.decisionTag c.decisionVerdict) = true := by
    intro hd
    simp only [State.decides, Bool.and_eq_true, beq_iff_eq, Bool.or_eq_true] at hd
    obtain ⟨⟨⟨-, hact⟩, hrun⟩, -⟩ := hd
    unfold State.admits
    rw [sortIndexEvent_ctl, hact]
    rcases hrun with hrun | hrun <;> rw [hrun] <;> rfl
  refine ⟨more, fun q hq => (hm q hq).2, fun hd hlen => ?_, fun hd hlen => ?_, fun hd => ?_⟩
  · rw [hd, if_pos rfl] at hunits
    rw [hq, (unitsOffered_one hunits (had hd)).1 (by rwa [hlink]), hlink]
  · rw [hd, if_pos rfl] at hunits
    obtain ⟨hsame, hover⟩ := (unitsOffered_one hunits (had hd)).2 (by rwa [hlink])
    rw [hsame, hlink] at hq hfull
    rw [hq, hfull hlen]
    exact ⟨by simp, hover⟩
  · rw [hd, if_neg (by simp)] at hunits
    rw [hq, unitsOffered_none hunits, hlink]

/-- R113: what a decision needs of the station. -/
theorem decides_needs {c : State} (h : c.decides = true) : c.ctl.items.position.isSome = true ∧ c.ctl.run ≠ .fault := by
  simp only [State.decides, Bool.and_eq_true, beq_iff_eq, Bool.or_eq_true] at h
  obtain ⟨⟨⟨hp, -⟩, hrun⟩, -⟩ := h
  exact ⟨hp, by rcases hrun with hrun | hrun <;> simp [hrun]⟩

/-- R182: a flag that a command's own effect has raised stays raised at its end. -/
theorem Tail.keeps_flag {a u : State} (h : Tail a u) {x : AlertFlag} (hx : x ≠ .txqOverflow) (hf : flagIn a.alerts.word x = true) :
    flagIn u.alerts.word x = true := by rw [h.flags x hx, hf, Bool.true_or]

theorem sorted_entries_from {c : State} (hg : GatesOk c) {e : Entry} (he : e ∈ (sortIndexEvent c).table.entries) :
    ∃ x ∈ c.table.entries, x.tag = e.tag := by
  rw [sortIndexEvent_eq, startDue_table, removeEntries_entries, decided_entries hg, (swept_removes hg).entries] at he
  obtain ⟨x, hx, rfl⟩ := List.mem_map.mp (List.mem_of_mem_filter he)
  exact ⟨x, List.mem_of_mem_filter hx, by simp⟩

/-- R131, R132: a firing that leaves takes its entry with it. -/
theorem sorted_entryOf_lost {c : State} (hr : RangeOk 1 c) (hg : GatesOk c) {f : Firing} (hf : f ∈ c.gates.firings)
    (hgone : f.stage ≠ .waiting ∨ c.passedGate f = true) : (sortIndexEvent c).entryOf f.tag = none := by
  rw [sorted_entryOf hr hg, if_pos ((loses_iff hg f.tag).mpr ⟨f, hf, rfl, hgone⟩)]
  rfl

/-- R4, R113: a unit that is decided stands just beyond the SORT position, within limits that are present. -/
theorem decided_limits {c : State} (hr : RangeOk 1 c) (hd : c.decides = true) :
    ∃ p r, c.position = some p ∧ c.idx.retireLimit = some r ∧ c.posOf c.decisionTag = p + 1 := by
  obtain ⟨p, hp⟩ := Option.isSome_iff_exists.mp (decides_needs hd).1
  obtain ⟨h31, r, hl, -⟩ := hr.toLimitsOk.position_le hp
  refine ⟨p, r, hp, hl, ?_⟩
  rw [State.decisionTag, State.position, hp]
  exact posOf_decided h31

/-- R126: where the unit that is decided has a firing pending afterwards, and where it has none. -/
theorem pends_decided {c : State} (hd : c.decides = true) :
    c.pends c.decisionTag
      ↔ c.leftFirings.any (fun f => f.tag == c.decisionTag) = true
          ∨ ((resolveGate c c.decision.gate).2.1 ≠ none ∧ c.leftFirings.length < 32) := by
  unfold State.pends State.adds
  cases hpend : c.leftFirings.any (fun f => f.tag == c.decisionTag)
  · simp [hd, Option.ne_none_iff_exists']
  · simp

/-- Settles O27. -/
theorem sortDecides : Obligations.SortDecides := by
  unfold Obligations.SortDecides
  intro t pins s hreset hedge hsort hctx htable hgates hfault hwork n p r pos gateAt tag left gone held pend decides v g final passed started aged
  obtain ⟨c, hc⟩ : ∃ c, c = counted pins (advance t s) := ⟨_, rfl⟩
  have hexec : exec (.indexEvent t pins) s = .next (settle (sortIndexEvent c)) := by
    rw [exec_indexEvent hreset hedge, indexEffect_sort (by simpa using hsort) (by simpa using hctx), hc]
  have hr : RangeOk 1 c := hc ▸ counted_rangeOk pins _ (rangeOk_kept.same s (advance t s) {} ((tableOk_iff s).mp htable))
  have hg : GatesOk c := hgates.congr (by simp [hc]) (by simp [hc]) (by simp [hc, counted])
  have hrole : c.role = some .sort := by simpa [hc, State.role] using hsort
  have ht := settle_tail (sortIndexEvent c)
  have hcount : c.idx.count = s.idx.count + 1 := by simp [hc]
  have hgatesEq : c.gates = s.gates := by simp [hc]
  have htableEq : c.table = s.table := by simp [hc]
  have hctl : c.ctl = s.ctl := by simp [hc]
  have hlimit : c.idx.retireLimit = s.idx.retireLimit := by simp [hc]
  have hentry : ∀ x, c.entryOf x = s.entryOf x := fun x => by rw [State.entryOf, htableEq, State.entryOf]
  -- the names of the statement are those of the station under the new count
  have hpos : pos = c.posOf := by funext x; rw [State.posOf, hcount]
  have hgate : gateAt = c.gatePosOf := by funext k; rw [State.gatePosOf, hctl]
  have htag : tag = c.decisionTag := by
    rw [State.decisionTag, hcount, State.position, hctl]
    exact (BitVec.add_sub_cancel _ _).symm.trans (by ring)
  have hleft : left = c.leftFirings := by
    rw [State.leftFirings, hgatesEq, ← hpos, ← hgate]
  have hgone : gone = c.loses := by funext x; simp only [gone, State.loses, hgatesEq, hleft]
  have hheld : held = c.swept.entryOf c.decisionTag := by rw [swept_entryOf hg, ← hgone, ← htag, hentry]
  have hpend : pend = c.leftFirings.any (fun f => f.tag == c.decisionTag) := by rw [← hleft, ← htag]
  have hdec : decides = c.decides := by
    simp only [decides, hheld, hpend, ← hctl]
    cases he : c.swept.entryOf c.decisionTag <;> simp only [State.decides, he]
  have hv : v = c.decision := by
    have hcap : capacityCheck s = capacityCheck c := capacityCheck_congr (by simp [hc]) (by simp [hc])
    have hjudge : judge s = judge c := judge_congr (by simp [hc]) (by simp [hc])
    simp only [v, hheld, State.decision, hcap, hjudge]
    cases c.swept.entryOf c.decisionTag with
    | none => simp [verdictOf, capacityCheck_noEntry, State.fallback, hctl]
    | some e => rfl
  have hgres : g = resolveGate c c.decision.gate := by
    simp only [g, hv]
    exact resolveGate_congr (by simp [hc]) _
  have hfinal : final = c.decisionVerdict := by
    simp only [final, hgres, hv]
    rfl
  have hp : p = c.position.getD 0 := by simp only [p, State.position, hctl]
  have hrl : r = c.idx.retireLimit.getD 0 := by simp only [r, hlimit]
  have hpassed : passed = c.table.entries.countP c.passesNow := by
    simp only [passed, htableEq, hp, hrl, hpos, hleft, hdec, hheld, htag]
    rfl
  have hstarted : started = c.stageAfter := by
    funext f
    simp only [started, State.stageAfter, startedStage, hpos, hgate, hctl]
  have haged : aged = c.link.queue := by rw [hc, counted_queue]
  clear_value aged started passed final g v decides pend held gone left tag gateAt pos r p
  subst hpos hgate htag hleft hgone hheld hpend hdec hv hgres hfinal hp hrl hpassed hstarted haged
  obtain ⟨more, hmore, hq1, hq2, hq3⟩ := sorted_queue hg (by simp [hc, hwork, Work.empty]) (by simp [hc, hwork, Work.empty])
  have hu : ∀ x, (settle (sortIndexEvent c)).entryOf x = (sortIndexEvent c).entryOf x := fun x => by rw [State.entryOf, ht.table, State.entryOf]
  have hbin : (settle (sortIndexEvent c)).binTally = (sortIndexEvent c).binTally := by funext q b; simp only [State.binTally, ht.gates]
  refine ⟨settle (sortIndexEvent c), more, hexec, hmore, fun k => ?_, fun q b => ?_, hq1, hq2, hq3, fun hnone => ?_, fun f hf hw => ?_,
    fun f hf hw hlt => ?_, fun hd => ⟨fun o ho hno hlen => ?_, fun hlt hcase => ?_, fun hno hcase => ?_, fun hcase => ?_⟩, fun e he hother => ?_,
    fun e he => ?_, fun f hf => ?_, fun f hf => ?_, fun f hf hdue => ?_, fun hnone => ?_⟩
  · rw [ht.gates, ← hgatesEq]
    exact sorted_reasonTallies hr hg hrole k
  · rw [hbin, sorted_binTally hg, show c.binTally q b = s.binTally q b by simp only [State.binTally, hgatesEq]]
  · have hempty : c.table.entries = [] := by
      rw [List.eq_nil_iff_forall_not_mem]
      intro e he
      obtain ⟨p, -, hp, -⟩ := hr.limits he
      rw [State.position, hctl, hnone] at hp
      cases hp
    refine ⟨?_, htableEq ▸ hempty, ?_⟩
    · by_contra hd
      have := (decides_needs (by simpa using hd)).1
      rw [hctl, hnone] at this
      cases this
    · rw [List.eq_nil_iff_forall_not_mem]
      intro e he
      obtain ⟨x, hx, -⟩ := sorted_entries_from hg (ht.table ▸ he)
      rw [hempty] at hx
      cases hx
  · rw [← hgatesEq] at hf
    refine ⟨ht.keeps_flag (by simp) ?_, by rw [hu, sorted_entryOf_lost hr hg hf (.inl hw)]⟩
    rw [sorted_flag hg, swept_flag, List.any_eq_true.mpr ⟨f, hf, by simpa using hw⟩]
    simp
  · rw [← hgatesEq] at hf
    have hpassed : c.passedGate f = true := by simpa [State.passedGate] using hlt
    refine ⟨ht.keeps_flag (by simp) ?_, by rw [hu, sorted_entryOf_lost hr hg hf (.inr hpassed)]⟩
    rw [sorted_flag hg, swept_flag, cutAll_firings hg.nodup,
      (List.any_eq_true (p := fun f => f.stage == .waiting && c.passedGate f)).mpr ⟨f, List.mem_filter.mpr ⟨hf, by simp [hw]⟩, by simp [hw, hpassed]⟩]
    simp
  · rw [ht.gates, mem_sorted_firings hg]
    exact .inr ⟨o, ⟨hd, ho, hno, hlen⟩, rfl⟩
  · obtain ⟨p, r, hp, hl, hpos⟩ := decided_limits hr hd
    rw [hu, (sorted_entryOf_decided hr hg hd hp hl (decides_needs hd).2 hpos).1 (by simpa [hp, hl] using hlt) ((pends_decided hd).mpr hcase)]
    rfl
  · obtain ⟨p, r, hp, hl, hpos⟩ := decided_limits hr hd
    have hnp : ¬c.pends c.decisionTag := by
      rw [pends_decided hd, hno]
      rintro (h | ⟨h1, h2⟩)
      · cases h
      · exact hcase.elim h1 (Nat.not_le.mpr h2)
    refine ⟨fun f hf => ?_, by rw [hu, (sorted_entryOf_decided hr hg hd hp hl (decides_needs hd).2 hpos).2 hnp]⟩
    rw [ht.gates, mem_sorted_firings hg] at hf
    rcases hf with ⟨x, hx, rfl⟩ | ⟨o, ho, rfl⟩
    · intro he
      rw [List.any_eq_false] at hno
      exact hno x hx (by simpa using he)
    · exact absurd (.inr ⟨rfl, o, ho⟩) hnp
  · refine ht.keeps_flag (by simp) ?_
    rw [sorted_flag hg, hd, Bool.or_eq_true]
    refine .inr ?_
    rcases hcase with h | h
    · simp [h]
    · rw [decide_eq_true h]
      simp
  · rw [hu, sorted_entryOf_other hr hg (htableEq ▸ he) hother, hctl]
  · obtain ⟨x, hx, hxt⟩ := sorted_entries_from hg (ht.table ▸ he)
    exact ⟨x, htableEq ▸ hx, hxt⟩
  · rw [ht.gates, mem_sorted_firings hg]
    exact .inl ⟨f, hf, rfl⟩
  · rw [ht.gates, mem_sorted_firings hg] at hf
    rcases hf with hx | ⟨o, ho, rfl⟩
    · exact .inr hx
    · exact .inl ⟨ho.1, rfl⟩
  · rw [ht.gates] at hf
    obtain ⟨hreq, hdrv⟩ := sorted_driver_due hg hf hdue
    rw [ht.idx, ht.gates, hreq, hdrv]
    simp only [startedDriver, hctl, true_and]
    rw [show c.now = n by simp [hc, n]]
  · rw [ht.idx, ht.gates]
    exact sorted_idle hg fun f hf => hnone f (by rwa [ht.gates])

end Sys2Proof.Machine
end

section
/-! The realign test (R170), and the standby test before a realign and after it (R167, R171). -/

namespace Sys2Proof.Machine

/-! ### The realign test (R170) -/

/-- R161, R163: a row heard from within the silence limit. -/
def State.near (b : State) (n : Fin 8) : Prop := (b.peers[n]).heard = true ∧ b.now < (b.peers[n]).heardAt + ms 1000

/-- R170: a near row that is not distrusted and holds the disagreeing offset `v`. -/
def State.disagrees (b : State) (n : Fin 8) (v : BitVec 16) : Prop :=
  b.near n ∧ (b.peers[n]).distrusted = false ∧ (b.peers[n]).offset = some { value := v, agrees := false }

theorem lt_add_iff_not_le_sub {a b l : Nat} (h : 0 < l) : a < b + l ↔ ¬l ≤ a - b := by omega

/-- R163: the standings of a near row are DISTRUSTED, DOUBT and PRESENT. -/
theorem standing_near {b : State} {n : Fin 8} (h : b.near n) :
    b.standing n
      = if (b.peers[n]).distrusted then .distrusted
        else if (b.peers[n]).ahead || (b.peers[n]).offset.any (fun o => !o.agrees) then .doubt else .present := by
  obtain ⟨hh, hlt⟩ := h
  have hs : ¬Config.silenceLimit ≤ b.now - (b.peers[n]).heardAt := (lt_add_iff_not_le_sub (by decide)).mp hlt
  unfold State.standing standing
  generalize b.peers[n] = r at hh hs ⊢
  rw [hh, if_neg (by simp), if_neg hs]
  cases r.offset <;> rfl

/-- R163: a row that is not near is ABSENT or SILENT. -/
theorem standing_not_near {b : State} {n : Fin 8} (h : ¬b.near n) : b.standing n = .absent ∨ b.standing n = .silent := by
  unfold State.near at h
  unfold State.standing standing
  generalize b.peers[n] = r at h ⊢
  cases hh : r.heard
  · exact .inl rfl
  · right
    have hs : Config.silenceLimit ≤ b.now - r.heardAt := by
      by_contra hs
      exact h ⟨hh, (lt_add_iff_not_le_sub (by decide)).mpr hs⟩
    rw [if_neg (by simp), if_pos hs]

theorem near_iff (b : State) (n : Fin 8) : b.near n ↔ b.standing n ≠ .absent ∧ b.standing n ≠ .silent := by
  by_cases h : b.near n
  · rw [standing_near h]
    refine iff_of_true h ?_
    split <;> [simp; (split <;> simp)]
  · refine iff_of_false h fun hh => ?_
    exact (standing_not_near h).elim hh.1 hh.2

theorem witness_iff (b : State) (n : Fin 8) (v : BitVec 16) : b.witness n = some v ↔ v ≠ 0 ∧ b.disagrees n v := by
  unfold State.witness State.disagrees
  constructor
  · intro h
    split at h
    · rename_i o hd ho
      split at h
      · cases h
      · rename_i hno
        cases h
        obtain ⟨hag, hne⟩ : o.agrees = false ∧ o.value ≠ 0 := by simpa using hno
        have hnear : b.near n := (near_iff b n).mpr (by simp [hd])
        refine ⟨hne, hnear, ?_, by rw [ho, ← hag]⟩
        rw [standing_near hnear] at hd
        cases hdis : (b.peers[n]).distrusted
        · rfl
        · rw [if_pos hdis] at hd
          cases hd
    · cases h
  · rintro ⟨hv, hnear, hdis, ho⟩
    have hd : b.standing n = .doubt := by
      rw [standing_near hnear, hdis, ho]
      simp
    rw [hd, ho]
    simpa using hv

theorem vetoes_iff (b : State) (n : Fin 8) :
    b.vetoes n = true ↔ b.near n ∧ (b.peers[n]).ahead = false ∧ ∃ o, (b.peers[n]).offset = some o ∧ o.agrees = true := by
  unfold State.vetoes
  rw [near_iff]
  cases (b.peers[n]).offset <;> simp [and_assoc]

theorem mem_allNodes (n : Fin 8) : n ∈ allNodes := by revert n; decide

/-- R170: two rows disagree by `v`. -/
def State.disagreesTwice (b : State) (v : BitVec 16) : Prop := ∃ m n : Fin 8, m ≠ n ∧ b.disagrees m v ∧ b.disagrees n v

/-- Two places of a list of distinct nodes that yield `v`. -/
theorem two_le_count_iff {f : Fin 8 → Option (BitVec 16)} {l : List (Fin 8)} (hl : l.Nodup) (v : BitVec 16) :
    2 ≤ (l.filterMap f).count v ↔ ∃ m ∈ l, ∃ n ∈ l, m ≠ n ∧ f m = some v ∧ f n = some v := by
  have hcount : (l.filterMap f).count v = (l.filter (fun n => f n == some v)).length := by
    rw [List.count, List.countP_filterMap, List.countP_eq_length_filter]
    congr 1
    refine List.filter_congr fun n _ => ?_
    cases f n <;> simp
  rw [hcount]
  have hn := hl.filter (fun n => f n == some v)
  constructor
  · intro h
    match hf : l.filter (fun n => f n == some v), h with
    | m :: n :: rest, _ =>
      have hm : m ∈ l.filter (fun n => f n == some v) := by rw [hf]; simp
      have hnm : n ∈ l.filter (fun n => f n == some v) := by rw [hf]; simp
      rw [hf] at hn
      have hne : m ≠ n := fun he => by simp [he] at hn
      simp only [List.mem_filter, beq_iff_eq] at hm hnm
      exact ⟨m, hm.1, n, hnm.1, hne, hm.2, hnm.2⟩
  · rintro ⟨m, hm, n, hnl, hne, hfm, hfn⟩
    have hsub : [m, n] ⊆ l.filter (fun n => f n == some v) := by
      intro x hx
      rcases List.mem_cons.mp hx with rfl | hx
      · simp [hm, hfm]
      · obtain rfl := List.mem_singleton.mp hx
        simp [hnl, hfn]
    exact (List.subperm_of_subset (by simpa using hne) hsub).length_le

/-- R170: when the test asks for a realign. -/
theorem realignBy_iff (b : State) (d : BitVec 16) :
    b.realignBy = some d
      ↔ b.ctl.run ≠ .fault ∧ b.ctl.items.realignEnable = true ∧ d ≠ 0 ∧ b.disagreesTwice d
          ∧ (∀ v, v ≠ 0 → v ≠ d → ¬b.disagreesTwice v) ∧ ∀ n, b.vetoes n = false := by
  have htwice : ∀ v, 2 ≤ (allNodes.filterMap b.witness).count v ↔ v ≠ 0 ∧ b.disagreesTwice v := by
    intro v
    rw [two_le_count_iff (by decide)]
    simp only [mem_allNodes, true_and, witness_iff, State.disagreesTwice]
    constructor
    · rintro ⟨m, n, hne, ⟨hv, hm⟩, -, hn⟩
      exact ⟨hv, m, n, hne, hm, hn⟩
    · rintro ⟨hv, m, n, hne, hm, hn⟩
      exact ⟨m, n, hne, ⟨hv, hm⟩, hv, hn⟩
  have hmem : ∀ v, v ∈ (allNodes.filterMap b.witness).filter (fun v => decide (2 ≤ (allNodes.filterMap b.witness).count v))
      ↔ v ≠ 0 ∧ b.disagreesTwice v := by
    intro v
    rw [List.mem_filter, decide_eq_true_eq, htwice]
    refine ⟨fun h => h.2, fun h => ⟨?_, h⟩⟩
    have := (htwice v).mpr h
    exact List.count_pos_iff.mp (by omega)
  have hveto : allNodes.any b.vetoes = false ↔ ∀ n, b.vetoes n = false := by
    rw [List.any_eq_false]
    simp [mem_allNodes]
  unfold State.realignBy
  dsimp only
  rw [← hveto]
  split
  · rename_i hnil
    rw [hnil] at hmem
    constructor
    · intro h
      cases h
    · rintro ⟨-, -, hd, ht, -⟩
      exact absurd ((hmem d).mpr ⟨hd, ht⟩) (by simp)
  · rename_i v more hcons
    rw [hcons] at hmem
    have hv := (hmem v).mp (by simp)
    rw [Option.ite_none_right_eq_some]
    simp only [Bool.and_eq_true, bne_iff_ne, List.all_eq_true, beq_iff_eq, Bool.not_eq_true', Option.some.injEq]
    constructor
    · rintro ⟨⟨⟨⟨hrun, hen⟩, hall⟩, hno⟩, rfl⟩
      refine ⟨hrun, hen, hv.1, hv.2, fun x hx hxv hxt => ?_, hno⟩
      rcases List.mem_cons.mp ((hmem x).mpr ⟨hx, hxt⟩) with h | h
      · exact hxv h
      · exact hxv (hall x h)
    · rintro ⟨hrun, hen, hd, ht, honly, hno⟩
      have hsame : ∀ x ∈ v :: more, x = d := fun x hx => by
        by_contra hne
        obtain ⟨hx0, hxt⟩ := (hmem x).mp hx
        exact honly x hx0 hne hxt
      have hvd := hsame v (by simp)
      exact ⟨⟨⟨⟨hrun, hen⟩, fun x hx => by rw [hsame x (by simp [hx]), hvd]⟩, hno⟩, hvd⟩

/-! ### The standby test (R167) -/

/-- R171: every last offset unknown and every ahead mark clear. -/
def forgottenRow (r : PeerRow) : PeerRow := { r with offset := none, ahead := false }

theorem rowQualifies_forgotten {now : Instant} {role : BitVec 3} {r : PeerRow} (h : rowQualifies now role r = true) :
    rowQualifies now role (forgottenRow r) = true := by
  have hst : standing now r = .present → standing now (forgottenRow r) = .present := by
    unfold standing forgottenRow
    dsimp only
    intro h
    split at h
    · cases h
    · split at h
      · cases h
      · split at h
        · cases h
        · simp_all
  unfold rowQualifies at h ⊢
  simp only [Bool.and_eq_true, beq_iff_eq] at h ⊢
  obtain ⟨⟨⟨h1, h2⟩, h3⟩, h4⟩ := h
  exact ⟨⟨⟨h1, hst h2⟩, h3⟩, h4⟩

/-- R167, R171: a source that qualifies goes on qualifying once its offset is forgotten. -/
theorem lowerQualifies_forgotten {b : State} (h : b.lowerQualifies = true) : (b.withPeers (vmap forgottenRow b.peers)).lowerQualifies = true := by
  unfold State.lowerQualifies at h ⊢
  rw [List.any_eq_true] at h ⊢
  obtain ⟨n, hn, hq⟩ := h
  simp only [Bool.and_eq_true, decide_eq_true_eq] at hq
  refine ⟨n, hn, ?_⟩
  have hrow : (b.withPeers (vmap forgottenRow b.peers)).peers[n] = forgottenRow b.peers[n] := by simp [vmap]
  simp only [hrow, Bool.and_eq_true, decide_eq_true_eq]
  exact ⟨hq.1, rowQualifies_forgotten hq.2⟩

/-- R167: without a lower row of the own role nothing qualifies. -/
theorem lowerQualifies_of_roles {b : State} (h : ∀ m : Fin 8, m.val < b.ctl.node.val → (b.peers[m]).role ≠ some b.ctl.role) : b.lowerQualifies = false := by
  unfold State.lowerQualifies
  rw [List.any_eq_false]
  intro n _ hq
  simp only [rowQualifies, Bool.and_eq_true, decide_eq_true_eq, beq_iff_eq] at hq
  exact h n hq.1 hq.2.1.1.1.1

theorem lowerQualifies_congr {a b : State} (hn : b.now = a.now) (hp : b.peers = a.peers) (hc : b.ctl.node = a.ctl.node)
    (hr : b.ctl.role = a.ctl.role) : b.lowerQualifies = a.lowerQualifies := by
  unfold State.lowerQualifies
  rw [hn, hp, hc, hr]

/-- R167: the three outcomes of the standby test outside FAULT. -/
inductive StandbyOutcome (a : State) : Prop where
  | standsBy (hact : a.ctl.activity = .active) (hl : a.lowerQualifies = true) (h : tested a = stoodBy a)
  | takesOver (hact : a.ctl.activity = .standby) (hl : a.lowerQualifies = false) (h : tested a = tookOver a)
  | stays (hact : a.ctl.activity = .active → a.lowerQualifies = false) (hst : a.ctl.activity = .standby → a.lowerQualifies = true) (h : tested a = a)

theorem standbyOutcome {a : State} (hrun : a.ctl.run ≠ .fault) : StandbyOutcome a := by
  have he : tested a
      = if a.ctl.activity = .active ∧ a.lowerQualifies = true then stoodBy a
        else if a.ctl.activity = .standby ∧ a.lowerQualifies = false then tookOver a else a := by rw [tested, if_neg hrun]
  by_cases h1 : a.ctl.activity = .active ∧ a.lowerQualifies = true
  · exact .standsBy h1.1 h1.2 (by rw [he, if_pos h1])
  · by_cases h2 : a.ctl.activity = .standby ∧ a.lowerQualifies = false
    · exact .takesOver h2.1 h2.2 (by rw [he, if_neg h1, if_pos h2])
    · refine .stays (fun ha => ?_) (fun ha => ?_) (by rw [he, if_neg h1, if_neg h2])
      · simpa using fun hl => h1 ⟨ha, hl⟩
      · simpa using fun hl => h2 ⟨ha, hl⟩

end Sys2Proof.Machine
end

section
/-! What a realign leaves of counts, flags, rows, the line, firings and Run Control (R9, R16, R132, R167, R171). -/

namespace Sys2Proof.Machine

/-! ### The standby test, part by part (R63, R167) -/

/-- R167: the standby test takes the station over. -/
def State.takesOver (a : State) : Bool := a.ctl.run != .fault && a.ctl.activity == .standby && !a.lowerQualifies

theorem standbyTest_flag (a : State) (g : AlertFlag) :
    flagIn (standbyTest a).alerts.word g = (flagIn a.alerts.word g || (a.takesOver && .takeover == g)) := by
  have hd : (discarded a).alerts = a.alerts := by unfold discarded; split <;> simp
  rw [standbyTest_eq]
  unfold State.takesOver
  by_cases hrun : a.ctl.run = .fault
  · simp [tested, hrun]
  · rcases standbyOutcome hrun with ⟨hact, hl, h⟩ | ⟨hact, hl, h⟩ | ⟨hact, hst, h⟩ <;> rw [h]
    · simp [stoodBy, hact, hd]
    · simp [tookOver, hact, hl, (bne_iff_ne.mpr hrun : (a.ctl.run != .fault) = true)]
    · by_cases hs : a.ctl.activity = .standby
      · simp [hst hs]
      · simp [hs]

theorem standbyTest_ctx (a : State) : (standbyTest a).eng.ctx = a.eng.ctx ∨ (standbyTest a).eng.ctx = none ∧ (standbyTest a).idx.measReq = false := by
  rw [standbyTest_eq]
  by_cases hrun : a.ctl.run = .fault
  · exact .inl (by simp [tested, hrun])
  · rcases standbyOutcome hrun with ⟨-, -, h⟩ | ⟨-, -, h⟩ | ⟨-, -, h⟩ <;> rw [h]
    · by_cases hc : a.eng.ctx = none
      · exact .inl (by simp [stoodBy, discarded, hc])
      · exact .inr (by simp [stoodBy, discarded, hc, endedEngine])
    · exact .inl (by simp [tookOver])
    · exact .inl rfl

theorem standbyTest_measReq {a : State} (h : a.idx.measReq = false) : (standbyTest a).idx.measReq = false := by
  rw [standbyTest_eq]
  by_cases hrun : a.ctl.run = .fault
  · simpa [tested, hrun] using h
  · rcases standbyOutcome hrun with ⟨-, -, h'⟩ | ⟨-, -, h'⟩ | ⟨-, -, h'⟩ <;> rw [h']
    · unfold stoodBy discarded
      split <;> simp [h]
    · simpa [tookOver] using h
    · exact h

/-- R167: an ACTIVE station over which no lower row stands, a STANDBY one under such a row and a MUTED one stay as they are. -/
theorem standbyTest_stays {a : State} (hact : a.ctl.activity = .active → a.lowerQualifies = false)
    (hst : a.ctl.activity = .standby → a.lowerQualifies = true) : standbyTest a = a := by
  rw [standbyTest_eq]
  by_cases hrun : a.ctl.run = .fault
  · simp [tested, hrun]
  · rcases standbyOutcome hrun with ⟨ha, hl, -⟩ | ⟨ha, hl, -⟩ | ⟨-, -, h⟩
    · rw [hact ha] at hl
      cases hl
    · rw [hst ha] at hl
      cases hl
    · exact h

/-- R167: the activity that the standby test leaves outside FAULT. -/
theorem standbyTest_activity {a : State} (hrun : a.ctl.run ≠ .fault) :
    (standbyTest a).ctl.activity = if a.ctl.activity = .muted then .muted else if a.lowerQualifies then .standby else .active := by
  rw [standbyTest_eq]
  rcases standbyOutcome hrun with ⟨hact, hl, h⟩ | ⟨hact, hl, h⟩ | ⟨hact, hst, h⟩ <;> rw [h]
  · simp [stoodBy, hact, hl]
  · simp [tookOver, hact, hl]
  · cases ha : a.ctl.activity
    · simp [hact ha]
    · simp [hst ha]
    · simp

/-- R169: a change of activity starts the hail timer again. -/
theorem standbyTest_hailDue (a : State) :
    (standbyTest a).ctl.hailDue = some (a.now + ms 250)
      ∨ (standbyTest a).ctl.activity = a.ctl.activity ∧ (standbyTest a).ctl.hailDue = a.ctl.hailDue := by
  rw [standbyTest_eq]
  by_cases hrun : a.ctl.run = .fault
  · exact .inr (by simp [tested, hrun])
  · rcases standbyOutcome hrun with ⟨-, -, h⟩ | ⟨-, -, h⟩ | ⟨-, -, h⟩ <;> rw [h]
    · refine .inl ?_
      have hn : (discarded a).now = a.now := by unfold discarded; split <;> simp
      simp [stoodBy, offerHail, hn]
    · exact .inl (by simp [tookOver, offerHail])
    · exact .inr ⟨rfl, rfl⟩

/-! ### The line -/

/-- R9, R146: what becomes of the own frame and the frame in reception while their marks change by `g`: the own header may be stopped, and the station then follows the line from its start. -/
structure LineKept (g : Mark → Mark) (a u : State) : Prop where
  idle : a.link.tx = none → u.link.tx = none ∧ u.link.rx = a.link.rx.map g
  sending : ∀ x, a.link.tx = some x →
    (u.link.tx = some { x with mark := g x.mark } ∧ u.link.rx = a.link.rx.map g) ∨ (x.won = false ∧ u.link.tx = none ∧ u.link.rx = some (g x.mark))

theorem LineKept.of_eq {a u : State} (ht : u.link.tx = a.link.tx) (hr : u.link.rx = a.link.rx) : LineKept id a u where
  idle h := by rw [ht, hr]; exact ⟨h, by simp⟩
  sending x h := by rw [ht, hr]; exact .inl ⟨h, by simp⟩

theorem LineKept.trans {f g : Mark → Mark} {a b c : State} (h₁ : LineKept f a b) (h₂ : LineKept g b c) : LineKept (g ∘ f) a c where
  idle h := by
    obtain ⟨ht, hr⟩ := h₁.idle h
    obtain ⟨ht', hr'⟩ := h₂.idle ht
    exact ⟨ht', by rw [hr', hr, Option.map_map]⟩
  sending x h := by
    rcases h₁.sending x h with ⟨ht, hr⟩ | ⟨hw, ht, hr⟩
    · rcases h₂.sending _ ht with ⟨ht', hr'⟩ | ⟨hw', ht', hr'⟩
      · exact .inl ⟨ht', by rw [hr', hr, Option.map_map]⟩
      · exact .inr ⟨hw', ht', hr'⟩
    · obtain ⟨ht', hr'⟩ := h₂.idle ht
      exact .inr ⟨hw, ht', by rw [hr', hr]; rfl⟩

theorem keepQueued_line (keep : QItem → Bool) (s : State) : LineKept id s (keepQueued keep s) where
  idle h := by simp [keepQueued, h]
  sending x h := by
    obtain ⟨stop, hstop, ht, hr⟩ : ∃ stop : Bool, (stop = true → x.won = false)
        ∧ (keepQueued keep s).link.tx = (if stop then none else some x)
        ∧ (keepQueued keep s).link.rx = (if stop then some x.mark else s.link.rx) := by
      unfold keepQueued
      rw [h]
      refine ⟨_, fun hs => ?_, rfl, rfl⟩
      simp only [Bool.and_eq_true, Bool.not_eq_true'] at hs
      exact hs.1
    rw [ht, hr]
    cases hc : stop
    · exact .inl ⟨rfl, by simp⟩
    · exact .inr ⟨hstop hc, rfl, rfl⟩

theorem standbyTest_line (a : State) : LineKept id a (standbyTest a) := by
  have hd : (discarded a).link = a.link := by unfold discarded; split <;> simp
  have hk := keepQueued_line (fun q => !q.frame.isUnit) (discarded a)
  rw [standbyTest_eq]
  by_cases hrun : a.ctl.run = .fault
  · exact .of_eq (by simp [tested, hrun]) (by simp [tested, hrun])
  · rcases standbyOutcome hrun with ⟨-, -, h⟩ | ⟨-, -, h⟩ | ⟨-, -, h⟩ <;> rw [h]
    · have h1 : LineKept id a (discarded a) := .of_eq (by rw [hd]) (by rw [hd])
      exact (h1.trans hk).trans (.of_eq (by simp [stoodBy]) (by simp [stoodBy]))
    · exact .of_eq (by simp [tookOver]) (by simp [tookOver])
    · exact .of_eq rfl rfl

theorem moveCount_line (d : BitVec 16) (s : State) : LineKept (Mark.shift d) s (moveCount d s) where
  idle h := by simp [moveCount, h]
  sending x h := .inl (by simp [moveCount, h])

end Sys2Proof.Machine
end

section
/-! How a command that changes a peer's row comes to the tests (R159 to R161), and what a unit record does after them (R20 to R26). -/

namespace Sys2Proof.Machine

/-! ### The state in which the tests are made -/

/-- R159, R160, R161: up to the peers and the line, the state in which the tests are made is that of the command's start at instant `t`. -/
structure RowChange (t : Instant) (s b : State) : Prop where
  now : b.now = max s.now t
  idx : b.idx = s.idx
  table : b.table = s.table
  eng : b.eng = s.eng
  drift : b.drift = s.drift
  pages : b.pages = s.pages
  gates : b.gates = s.gates
  ctl : b.ctl = s.ctl
  alerts : b.alerts = s.alerts
  work : b.work = s.work
  queue : b.link.queue = (advance t s).link.queue

theorem rowChange_modifyRow (t : Instant) (n : Fin 8) (f : PeerRow → PeerRow) (s : State) : RowChange t s (modifyRow n f (advance t s)) := by
  constructor <;> simp

theorem rowChange_endFrame (t : Instant) (n : Fin 8) (f : PeerRow → PeerRow) (o : Option (BitVec 4)) (s : State) :
    RowChange t s (modifyRow n f (endFrame o (advance t s))) := by
  constructor <;> simp

/-! ### What a record does at the table -/

/-- R20 to R26: the content of a unit record leaves the station as it is, changes the table, is reported late, or is reported ahead. -/
inductive RecordEffect (a : State) : State → Prop where
  | nothing : RecordEffect a a
  | table (x : UnitTable) : RecordEffect a (a.withTable x)
  | late : RecordEffect a (reportLate a)
  | ahead (n : Fin 8) : RecordEffect a (reportAhead n a)

theorem recordEffect_putEntryRecord (r : EntryRecord) (a : State) : RecordEffect a (putEntryRecord r a) := by
  unfold putEntryRecord
  split
  · exact .table _
  · split
    · exact .table _
    · exact .nothing

theorem recordEffect_putValue (tag : BitVec 16) (k : Slot) (v : HeldValue) (a : State) : RecordEffect a (putValue tag k v a) := by
  unfold putValue
  split <;> exact .table _

theorem recordEffect_tableEntry (b : EntryBody) (n : Fin 8) (r : Role) (a : State) : RecordEffect a (tableEntry b n r a) := by
  unfold tableEntry
  split
  · split
    · exact recordEffect_putEntryRecord _ a
    · exact .late
    · exact .ahead n
  · exact .nothing

theorem recordEffect_tableValue (b : ValueBody) (n : Fin 8) (r : Role) (a : State) : RecordEffect a (tableValue b n r a) := by
  unfold tableValue
  split
  · split
    · split
      · exact recordEffect_putValue _ _ _ a
      · exact .nothing
    · exact .late
    · exact .ahead n
  · exact .nothing

theorem recordEffect_tableVerdict (b : VerdictBody) (n : Fin 8) (r : Role) (a : State) : RecordEffect a (tableVerdict b n r a) := by
  unfold tableVerdict
  split
  · split
    · exact .nothing
    · split
      · exact .nothing
      · exact .nothing
      · exact .ahead n
  all_goals exact .nothing

theorem recordEffect_fromActiveSource {content : Fin 8 → Role → State → State} (hc : ∀ n r a, RecordEffect a (content n r a)) (h : FrameHead) (a : State) :
    RecordEffect a (fromActiveSource h content a) := by
  unfold fromActiveSource
  split
  · exact .nothing
  · split
    · split
      · exact hc _ _ a
      · exact .nothing
    · exact .nothing

/-! ### The commands that change a row -/

theorem isConsole_of_station {m : BitVec 4} {n : Fin 8} (h : stationOfSender m = some n) : isConsole m = false := by
  by_contra hc
  rw [stationOfSender_console (by simpa [isConsole] using hc)] at h
  cases h

theorem frameHead_of_console {c : Instr} {k : ConsoleHead} (h : c.consoleHead = some k) :
    c.frameHead = some k.frame ∧ c.hail = none ∧ c.isRecord = false := by
  cases c <;> simp_all [Instr.consoleHead, Instr.frameHead, Instr.hail, Instr.isRecord]

/-- R151, R159, R166: a frame of a station acts by its content only where it is a unit record. -/
theorem exec_stationFrame {c : Instr} {h : FrameHead} {n : Fin 8} (hc : c.frameHead = some h) (hs : stationOfSender h.sender = some n) (s : State) :
    ∃ content, exec c s = event c.instant (takeFrame h c.hail content) s ∧ (∀ a, RecordEffect a (content a))
      ∧ (c.isRecord = false → ∀ a, content a = a) := by
  cases hk : c.consoleHead with
  | some k =>
    obtain ⟨hf, hh, -⟩ := frameHead_of_console hk
    obtain rfl : k.frame = h := by rw [hf] at hc; exact Option.some.inj hc
    obtain ⟨act, he⟩ := exec_obeys c k s hk
    have hid : ∀ a : State, (if a.addressed k then act a else a) = a := fun a => by
      rw [if_neg]
      simp [State.addressed, isConsole_of_station hs]
    refine ⟨fun a => if a.addressed k then act a else a, by rw [he, hh]; rfl, fun a => ?_, fun _ => hid⟩
    dsimp only
    rw [hid]
    exact .nothing
  | none =>
    cases c <;> simp only [Instr.frameHead, hk, Option.map_none, reduceCtorEq, Option.some.injEq] at hc
    case entryReceived => subst hc; exact ⟨_, rfl, recordEffect_fromActiveSource (recordEffect_tableEntry _) _, fun hr => by cases hr⟩
    case valueReceived => subst hc; exact ⟨_, rfl, recordEffect_fromActiveSource (recordEffect_tableValue _) _, fun hr => by cases hr⟩
    case verdictReceived => subst hc; exact ⟨_, rfl, recordEffect_fromActiveSource (recordEffect_tableVerdict _) _, fun hr => by cases hr⟩
    case hailReceived => subst hc; exact ⟨id, rfl, fun _ => .nothing, fun _ _ => rfl⟩
    case alertFrameReceived => subst hc; exact ⟨id, rfl, fun _ => .nothing, fun _ _ => rfl⟩
    case statusReceived => subst hc; exact ⟨id, rfl, fun _ => .nothing, fun _ _ => rfl⟩

theorem stationOfSender_eq_some {m : BitVec 4} {n : Fin 8} (h : stationOfSender m = some n) : m = BitVec.ofNat 4 n.val := by
  unfold stationOfSender at h
  split at h
  · cases h
    simp
  · cases h

/-- R159, R160, R161: a command that changes a row makes the tests in `b`, and a unit record then has its effect. -/
structure Tests (c : Instr) (s b : State) : Prop where
  change : RowChange c.instant s b
  silence : ∀ t n, c = .peerSilence t n → b.link = (advance t s).link
  runs : ∃ v, exec c s = .next (settle v) ∧ RecordEffect (peerTests b) v ∧ (c.isRecord = false → v = peerTests b)

theorem tests_of_rowChanged {c : Instr} {s b : State} (hr : s.resetHeld = false) (hb : rowChanged c s = some b) : Tests c s b := by
  have hev : ∀ t body, event t body s = .next (settle (body (advance t s))) := fun t body => by simp [event, hr]
  unfold rowChanged at hb
  split at hb
  · rename_i t n
    rw [Option.ite_none_right_eq_some] at hb
    obtain ⟨⟨hn, hst, htk⟩, hb⟩ := hb
    cases hb
    refine ⟨rowChange_modifyRow .., ?_, _, hev t (silencePeer n), ?_, fun _ => ?_⟩
    · rintro _ _ ⟨⟩
      simp
    all_goals rw [silencePeer, if_pos ⟨by simpa using hn, hst, by simpa using htk⟩]
    exact .nothing
  · rename_i t sender
    split at hb
    · rename_i m n hrx hsn
      split at hb
      · cases hb
      · rename_i hn
        cases hb
        have hd : discardFrame sender (advance t s) = peerTests (modifyRow n discardedRow (endFrame sender (advance t s))) := by
          have hn' : ¬n = (endFrame sender (advance t s)).ctl.node := by simpa using hn
          unfold discardFrame countDiscard
          simp only [advance_link_rx, hrx, hsn, if_neg hn']
        refine ⟨rowChange_endFrame .., by rintro _ _ ⟨⟩, _, hev t (discardFrame sender), ?_, fun _ => hd⟩
        rw [hd]
        exact .nothing
    · cases hb
  · rename_i hnp hnd
    split at hb
    · rename_i m h hrx hh
      rw [Option.bind_eq_some_iff] at hb
      obtain ⟨n, hs, hb⟩ := hb
      split at hb
      · cases hb
      · rename_i hn
        cases hb
        obtain ⟨content, he, heff, hid⟩ := exec_stationFrame hh hs s
        have htake := takeFrame_station (t := c.instant) (s := s) c.hail content hrx (stationOfSender_eq_some hs) hn
        refine ⟨rowChange_endFrame .., fun t n hc => absurd hc (hnp t n), _, by rw [he, hev, htake], heff _, fun hrec => hid hrec _⟩
    · cases hb

end Sys2Proof.Machine
end

section
/-! The acts of a realign one after another, and what they leave of counts, flags, rows, the line, firings and Run Control (R9, R16, R132, R167, R171). -/

namespace Sys2Proof.Machine

/-! ### The acts of a realign (R171) -/

/-- R167: the station after the standby test that stands before the realign. -/
def testedFirst (b : State) : State := standbyTest (refreshLevels b)

/-- R16, R37, R171: the station once count, rows and Unit Table are realigned. -/
def realigned (d : BitVec 16) (b : State) : State := realignTable (forgetOffsets (moveCount d (testedFirst b)))

/-- R61: the station once its sequence has ended. -/
def realignEnded (d : BitVec 16) (b : State) : State := endRunning .doubt (realigned d b)

/-- R132: the station once the firings whose unit has passed are gone. -/
def realignDropped (d : BitVec 16) (b : State) : State := dropPassed (realignEnded d b)

/-- R167: the station that the standby test finds when it is made again. -/
def realignSettled (d : BitVec 16) (b : State) : State := refreshLevels (drainTest (realignDropped d b))

theorem realignBy_congr {a b : State} (hn : b.now = a.now) (hp : b.peers = a.peers) (hr : b.ctl.run = a.ctl.run) (hi : b.ctl.items = a.ctl.items) :
    b.realignBy = a.realignBy := by
  have hw : b.witness = a.witness := by funext n; simp [State.witness, State.standing, hn, hp]
  have hv : b.vetoes = a.vetoes := by funext n; simp [State.vetoes, State.standing, hn, hp]
  unfold State.realignBy
  rw [hw, hv, hr, hi]

/-- R159 to R161, R171: the tests where they ask for a realign. -/
theorem peerTests_realign {d : BitVec 16} {b : State} (h : b.realignBy = some d) : peerTests b = standbyTest (realignSettled d b) := by
  have hr : (standbyTest (refreshLevels b)).realignBy = some d := by
    rw [← h]
    exact realignBy_congr (by simp) (by simp) (by simp) (by simp)
  unfold peerTests realignTest
  rw [hr]
  rfl

section
variable (d : BitVec 16) (b : State)

@[simp] theorem realigned_now : (realigned d b).now = b.now := by simp [realigned, testedFirst]

@[simp] theorem realigned_count : (realigned d b).idx.count = b.idx.count + d := by simp [realigned, testedFirst, moveCount]

@[simp] theorem realigned_retireLimit : (realigned d b).idx.retireLimit = b.idx.retireLimit := by simp [realigned, testedFirst]

@[simp] theorem realigned_lastIndex : (realigned d b).idx.lastIndex = b.idx.lastIndex := by simp [realigned, testedFirst]

@[simp] theorem realigned_eng : (realigned d b).eng = (testedFirst b).eng := by simp [realigned]

@[simp] theorem realigned_measReq : (realigned d b).idx.measReq = (testedFirst b).idx.measReq := by simp [realigned]

@[simp] theorem realigned_ctl : (realigned d b).ctl = (testedFirst b).ctl := by simp [realigned]

@[simp] theorem realigned_firings : (realigned d b).gates.firings = b.gates.firings := by simp [realigned, testedFirst]

@[simp] theorem realigned_units : (realigned d b).work.units = b.work.units := by simp [realigned, testedFirst]

@[simp] theorem realigned_peers : (realigned d b).peers = vmap forgottenRow b.peers := by
  have hrow : forgottenRow = fun r => { r with offset := none, ahead := false } := rfl
  simp [realigned, testedFirst, forgetOffsets, hrow]

@[simp] theorem realignSettled_now : (realignSettled d b).now = b.now := by simp [realignSettled, realignDropped, realignEnded]

@[simp] theorem realignSettled_idx : (realignSettled d b).idx = (realignEnded d b).idx := by simp [realignSettled, realignDropped]

@[simp] theorem realignSettled_eng : (realignSettled d b).eng = (realignEnded d b).eng := by simp [realignSettled, realignDropped]

@[simp] theorem realignSettled_peers : (realignSettled d b).peers = vmap forgottenRow b.peers := by simp [realignSettled, realignDropped, realignEnded]

@[simp] theorem realignSettled_activity : (realignSettled d b).ctl.activity = (testedFirst b).ctl.activity := by
  simp [realignSettled, realignDropped, realignEnded]

@[simp] theorem realignSettled_node : (realignSettled d b).ctl.node = b.ctl.node := by
  simp [realignSettled, realignDropped, realignEnded, testedFirst]

@[simp] theorem realignSettled_role : (realignSettled d b).ctl.role = b.ctl.role := by
  simp [realignSettled, realignDropped, realignEnded, testedFirst]

@[simp] theorem realignSettled_table : (realignSettled d b).table = (realignDropped d b).table := by simp [realignSettled]

theorem realignSettled_fault_iff : (realignSettled d b).ctl.run = .fault ↔ b.ctl.run = .fault := by
  rw [realignSettled, refreshLevels_ctl, drainTest_fault_iff]
  simp [realignDropped, realignEnded, testedFirst]

theorem realignSettled_lowerQualifies : (realignSettled d b).lowerQualifies = (b.withPeers (vmap forgottenRow b.peers)).lowerQualifies :=
  lowerQualifies_congr (by simp) (by simp) (by simp) (by simp)

end

section
variable {d : BitVec 16} {b : State} (h : b.realignBy = some d)
include h

/-! ### Counts, rows and the engine -/

theorem realign_run : b.ctl.run ≠ .fault := StepKept.realignBy_run h

theorem tests_count : (peerTests b).idx.count = b.idx.count + d := by
  rw [peerTests_realign h]
  simp [realignEnded]

theorem tests_peers : (peerTests b).peers = vmap forgottenRow b.peers := by
  rw [peerTests_realign h]
  simp

/-- R61: no sequence runs after a realign. -/
theorem tests_ctx : (peerTests b).eng.ctx = none := by
  have hend : (realignSettled d b).eng.ctx = none := by
    rw [realignSettled_eng]
    exact (endRunning_leaves _ _).2.2.1
  rw [peerTests_realign h]
  rcases standbyTest_ctx (realignSettled d b) with hc | hc
  · rw [hc, hend]
  · exact hc.1

theorem tests_measReq (hc : b.eng.ctx ≠ none) : (peerTests b).idx.measReq = false := by
  have hleaves := (endRunning_leaves .doubt (realigned d b)).2.2.2
  rw [peerTests_realign h]
  refine standbyTest_measReq ?_
  rw [realignSettled_idx]
  rw [realigned_eng] at hleaves
  rcases standbyTest_ctx (refreshLevels b) with hk | ⟨hn, hm⟩
  · exact hleaves (by rw [testedFirst, hk]; simpa using hc)
  · have hidle : realignEnded d b = realigned d b := by
      rw [realignEnded, endRunning, realigned_eng, testedFirst, hn]
    rw [hidle, realigned_measReq, testedFirst, hm]

/-! ### The standby test made again (R167) -/

theorem testedFirst_activity :
    (testedFirst b).ctl.activity = if b.ctl.activity = .muted then .muted else if b.lowerQualifies then .standby else .active := by
  have ht := standbyTest_activity (a := refreshLevels b) (by simpa using realign_run h)
  rw [lowerQualifies_refresh, refreshLevels_ctl] at ht
  exact ht

theorem tests_activity :
    (peerTests b).ctl.activity
      = if b.ctl.activity = .muted then .muted else if (b.withPeers (vmap forgottenRow b.peers)).lowerQualifies then .standby else .active := by
  have ht := standbyTest_activity (mt (realignSettled_fault_iff d b).mp (realign_run h))
  rw [realignSettled_activity, realignSettled_lowerQualifies, testedFirst_activity h] at ht
  rw [peerTests_realign h, ht]
  by_cases hm : b.ctl.activity = .muted
  · simp [hm]
  · cases b.lowerQualifies <;> simp [hm]

/-- R167: the test made again takes no station over: what stood above it stands above it still. -/
theorem realignSettled_takesOver : (realignSettled d b).takesOver = false := by
  unfold State.takesOver
  rw [realignSettled_activity, realignSettled_lowerQualifies, testedFirst_activity h]
  cases hl : b.lowerQualifies
  · by_cases hm : b.ctl.activity = .muted <;> simp [hm]
  · simp [lowerQualifies_forgotten hl]

theorem tests_hailDue (hne : (peerTests b).ctl.activity ≠ b.ctl.activity) : (peerTests b).ctl.hailDue = some (b.now + ms 250) := by
  have hfirst : (testedFirst b).ctl.activity = b.ctl.activity ∨ (testedFirst b).ctl.hailDue = some (b.now + ms 250) := by
    rcases standbyTest_hailDue (refreshLevels b) with hd | hd
    · exact .inr (by rw [testedFirst, hd, refreshLevels_now])
    · exact .inl (by rw [testedFirst, hd.1, refreshLevels_ctl])
  have hdrain : (realignSettled d b).ctl.hailDue = (testedFirst b).ctl.hailDue ∨ (realignSettled d b).ctl.hailDue = some (b.now + ms 250) := by
    rw [realignSettled, refreshLevels_ctl, drainTest_ctl]
    split
    · exact .inr (by simp [realignDropped, realignEnded, Config.hailPeriod])
    · exact .inl (by simp [realignDropped, realignEnded])
  rw [peerTests_realign h] at hne ⊢
  rcases standbyTest_hailDue (realignSettled d b) with hd | ⟨hact, hd⟩
  · simpa using hd
  · rw [hact, realignSettled_activity] at hne
    rw [hd]
    exact hdrain.elim (fun he => he.trans (hfirst.resolve_left hne)) id

/-! ### The flags -/

/-- R16, R132, R167: the flags, other than those of levels, that a realign raises. -/
theorem tests_flag {g : AlertFlag} (hg : levelFlags.contains g = false) :
    flagIn (peerTests b).alerts.word g
      = (flagIn b.alerts.word g || (b.takesOver && .takeover == g) || .indexRealign == g
          || (b.gates.firings.any (fun f => f.stage == .waiting && (realignEnded d b).passedGate f) && .gateMissed == g)) := by
  have hover : (refreshLevels b).takesOver = b.takesOver := by simp [State.takesOver, lowerQualifies_refresh]
  rw [peerTests_realign h, standbyTest_flag, realignSettled_takesOver h]
  simp only [realignSettled, refreshLevels_flag, hg, drainTest_alerts, realignDropped, dropPassed_flag]
  simp [realignEnded, realigned, moveCount, testedFirst, standbyTest_flag, hover]
  grind

theorem tests_indexRealign : flagIn (peerTests b).alerts.word .indexRealign = true := by
  rw [tests_flag h (by decide)]
  simp

theorem tests_takeover :
    flagIn (peerTests b).alerts.word .takeover = (flagIn b.alerts.word .takeover || (b.ctl.activity == .standby && !b.lowerQualifies)) := by
  have hrun : (b.ctl.run != .fault) = true := by simpa using realign_run h
  have hmove : (AlertFlag.indexRealign == .takeover) = false := rfl
  have hmiss : (AlertFlag.gateMissed == .takeover) = false := rfl
  rw [tests_flag h (by decide), hmove, hmiss]
  simp [State.takesOver, hrun]

/-! ### Line and queue -/

theorem tests_line : LineKept (Mark.shift d) b (peerTests b) := by
  have h₁ : LineKept id b (testedFirst b) := LineKept.trans (.of_eq (by simp) (by simp)) (standbyTest_line (refreshLevels b))
  have h₂ := moveCount_line d (testedFirst b)
  have h₃ : LineKept id (moveCount d (testedFirst b)) (realignSettled d b) :=
    .of_eq (by simp [realignSettled, realignDropped, realignEnded, realigned]) (by simp [realignSettled, realignDropped, realignEnded, realigned])
  rw [peerTests_realign h]
  exact ((h₁.trans h₂).trans h₃).trans (standbyTest_line _)

end

end Sys2Proof.Machine
end

section
/-! What an ending leaves of the entries and the unit records (R31, R32, R55, R66), and the firings and entries of a realign (R37, R61, R132). -/

namespace Sys2Proof.Machine

/-! ### Entries found after the operations of the Unit Table -/

theorem entryOf_congr {a b : State} (h : b.table = a.table) (x : BitVec 16) : b.entryOf x = a.entryOf x := by rw [State.entryOf, h, State.entryOf]

theorem modifyEntry_entryOf_same {t : BitVec 16} {f : Entry → Entry} (hf : ∀ e, (f e).tag = e.tag) (s : State) :
    (modifyEntry t f s).entryOf t = (s.entryOf t).map f := by
  rw [entryOf_modifyEntry s t t f hf]
  cases he : s.entryOf t with
  | none => rfl
  | some e => simp [(entryOf_mem he).2]

theorem modifyEntry_entryOf_other {t x : BitVec 16} {f : Entry → Entry} (hf : ∀ e, (f e).tag = e.tag) (hx : x ≠ t) (s : State) :
    (modifyEntry t f s).entryOf x = s.entryOf x := by
  rw [entryOf_modifyEntry s t x f hf]
  cases he : s.entryOf x with
  | none => rfl
  | some e => simp [(entryOf_mem he).2, hx]

theorem setStage_entryOf_same (t : BitVec 16) (st : OwnStage) (s : State) :
    (setStage t st s).entryOf t = (s.entryOf t).map (fun e => { e with ownStage := st }) := modifyEntry_entryOf_same (by simp) s

theorem setStage_entryOf_other {t x : BitVec 16} (st : OwnStage) (hx : x ≠ t) (s : State) : (setStage t st s).entryOf x = s.entryOf x :=
  modifyEntry_entryOf_other (by simp) hx s

theorem insertEntry_find_other {pos : BitVec 16 → Nat} {e : Entry} {x : BitVec 16} (hx : x ≠ e.tag) (l : List Entry) :
    (insertEntry pos e l).find? (fun y => y.tag == x) = l.find? (fun y => y.tag == x) := by
  have he : (e.tag == x) = false := by simpa using hx.symm
  induction l with
  | nil => simp [insertEntry, he]
  | cons y ys ih =>
    unfold insertEntry
    split
    · rw [List.find?_cons, List.find?_cons, ih]
    · rw [List.find?_cons, he]

theorem addEntry_entryOf_other {e : Entry} {x : BitVec 16} (hx : x ≠ e.tag) (s : State) : (addEntry e s).entryOf x = s.entryOf x :=
  insertEntry_find_other hx _

/-- R25, R31: the entry of a tag that has none counts as a blank one. -/
def State.entryOrBlank (s : State) (t : BitVec 16) : Entry := (s.entryOf t).getD (Entry.blank t .none)

theorem putEntryRecord_entryOf_other {r : EntryRecord} {x : BitVec 16} (hx : x ≠ r.tag) (s : State) : (putEntryRecord r s).entryOf x = s.entryOf x := by
  unfold putEntryRecord
  split
  · exact addEntry_entryOf_other (by simpa [Entry.blank] using hx) s
  · split
    · exact modifyEntry_entryOf_other (by simp) hx s
    · rfl

/-- R25, R31: an ENTRY creates an entry, fills one without class, or is ignored. -/
theorem putEntryRecord_entryOf_same (r : EntryRecord) (s : State) :
    (putEntryRecord r s).entryOf r.tag
      = some
          (if (s.entryOrBlank r.tag).cls = none then
            { s.entryOrBlank r.tag with stamp := some r.stamp, cls := some r.cls, coarse := r.coarse, assumedPage := false }
          else s.entryOrBlank r.tag) := by
  unfold putEntryRecord State.entryOrBlank
  cases he : s.entryOf r.tag with
  | none => exact entryOf_addEntry (e := { Entry.blank r.tag .none with stamp := some r.stamp, cls := some r.cls, coarse := r.coarse }) he
  | some e =>
    dsimp only [Option.getD_some]
    split
    · rw [modifyEntry_entryOf_same (by simp), he]
      rfl
    · exact he

theorem putValue_entryOf_other {t x : BitVec 16} (k : Slot) (v : HeldValue) (hx : x ≠ t) (s : State) : (putValue t k v s).entryOf x = s.entryOf x := by
  unfold putValue
  split
  · exact addEntry_entryOf_other (by simpa [Entry.blank] using hx) s
  · exact modifyEntry_entryOf_other (by simp) hx s

/-- R26, R32: a VALUE creates an entry or fills its slot. -/
theorem putValue_entryOf_same (t : BitVec 16) (k : Slot) (v : HeldValue) (s : State) :
    (putValue t k v s).entryOf t = some ((s.entryOrBlank t).fillSlot k (v.forSlot k)) := by
  unfold putValue State.entryOrBlank
  split
  · rename_i hno
    have htag : ((Entry.blank t .none).fillSlot k (v.forSlot k)).tag = t := by simp [Entry.blank]
    have hadd := entryOf_addEntry (e := (Entry.blank t .none).fillSlot k (v.forSlot k)) (s := s) (by rw [htag]; exact hno)
    rw [htag] at hadd
    rw [hadd, hno, Option.getD_none]
  · rename_i e he
    rw [modifyEntry_entryOf_same (by simp), he]
    rfl

/-! ### Endings (R55, R66) -/

theorem closeSequence_entryOf (s : State) (x : BitVec 16) : (closeSequence s).entryOf x = s.entryOf x := entryOf_congr (by simp) x

theorem closeSequence_classify (s : State) (x : BitVec 16) : (closeSequence s).classify x = s.classify x := classify_congr (by simp) (by simp) x

/-- R66: the unit records of an early ending. -/
def endingFrames (e : Ending) (c : Ctx) (s : State) : List QFrame :=
  match c.kind with
  | .unit => [.value (endedRecord s c e.quality)]
  | .coarse => [.entry { tag := c.tag, stamp := c.stamp, cls := e.entryClass.1, coarse := e.entryClass.2 }]
  | .check => []

section
variable {e : Ending} {c : Ctx} {s : State}

theorem endEarly_of_unit (hk : c.kind = .unit) : endEarly e c s = deliverValue (endedRecord s c e.quality) (closeSequence s) := by
  have hrec : valueless ((closeSequence s).role == some .thermal) c.tag e.quality none c.tempAbsent c.assumedPage = endedRecord s c e.quality := by
    simp [valueless, endedRecord, State.role]
  unfold endEarly computeEnding
  rw [hk]
  dsimp only
  rw [hrec]

theorem endEarly_of_coarse (hk : c.kind = .coarse) :
    endEarly e c s = deliverEntry { tag := c.tag, stamp := c.stamp, cls := e.entryClass.1, coarse := e.entryClass.2 } (closeSequence s) := by
  unfold endEarly computeEnding
  rw [hk]

theorem endEarly_of_check (hk : c.kind = .check) : endEarly e c s = setStage c.tag .done (closeSequence s) := by
  unfold endEarly computeEnding
  rw [hk]

theorem deliverValue_units (r : ValueRecord) (a : State) : (deliverValue r a).work.units = a.work.units ++ [.value r] := by
  unfold deliverValue
  split <;> [split; skip] <;> simp [offerUnit]

theorem deliverEntry_units (r : EntryRecord) (a : State) : (deliverEntry r a).work.units = a.work.units ++ [.entry r] := by
  unfold deliverEntry
  split <;> simp [offerUnit]

theorem endEarly_units : (endEarly e c s).work.units = s.work.units ++ endingFrames e c s := by
  unfold endingFrames
  cases hk : c.kind
  case unit => rw [endEarly_of_unit hk, deliverValue_units, closeSequence_work]
  case coarse => rw [endEarly_of_coarse hk, deliverEntry_units, closeSequence_work]
  case check => simp [endEarly_of_check hk]

/-- R23, R55: an own VALUE enters its slot where the role has one and the unit is in range; the own stage is DONE. -/
theorem deliverValue_cases (r : ValueRecord) (a : State) :
    (∃ k, a.role.bind slotOfRole = some k ∧ a.classify r.tag = .inRange
        ∧ (deliverValue r a).table = (setStage r.tag .done (putValue r.tag k (r.held a.ctl.node) a)).table)
      ∨ (a.role.bind slotOfRole = none ∨ a.classify r.tag ≠ .inRange) ∧ (deliverValue r a).table = (setStage r.tag .done a).table := by
  unfold deliverValue
  cases hk : a.role.bind slotOfRole with
  | none => exact .inr ⟨.inl rfl, rfl⟩
  | some k =>
    by_cases hin : a.classify r.tag = .inRange
    · exact .inl ⟨k, rfl, hin, by simp [hin]⟩
    · exact .inr ⟨.inr hin, by simp [hin]⟩

/-- R31, R56: an own ENTRY enters the table where the unit is in range; the own stage is DONE. -/
theorem deliverEntry_cases (r : EntryRecord) (a : State) :
    (a.classify r.tag = .inRange ∧ (deliverEntry r a).table = (setStage r.tag .done (putEntryRecord r a)).table)
      ∨ a.classify r.tag ≠ .inRange ∧ (deliverEntry r a).table = (setStage r.tag .done a).table := by
  unfold deliverEntry
  by_cases hin : a.classify r.tag = .inRange
  · exact .inl ⟨hin, by simp [hin]⟩
  · exact .inr ⟨hin, by simp [hin]⟩

theorem setStage_entryOf_none {t : BitVec 16} {st : OwnStage} {a : State} (h : a.entryOf t = none) : (setStage t st a).entryOf t = none := by
  rw [setStage_entryOf_same, h]
  rfl

theorem deliverValue_entryOf_other {r : ValueRecord} {x : BitVec 16} (hx : x ≠ r.tag) (a : State) : (deliverValue r a).entryOf x = a.entryOf x := by
  rcases deliverValue_cases r a with ⟨k, -, -, ht⟩ | ⟨-, ht⟩
  · rw [entryOf_congr ht, setStage_entryOf_other _ hx, putValue_entryOf_other _ _ hx]
  · rw [entryOf_congr ht, setStage_entryOf_other _ hx]

theorem deliverEntry_entryOf_other {r : EntryRecord} {x : BitVec 16} (hx : x ≠ r.tag) (a : State) : (deliverEntry r a).entryOf x = a.entryOf x := by
  rcases deliverEntry_cases r a with ⟨-, ht⟩ | ⟨-, ht⟩
  · rw [entryOf_congr ht, setStage_entryOf_other _ hx, putEntryRecord_entryOf_other hx]
  · rw [entryOf_congr ht, setStage_entryOf_other _ hx]

theorem deliverValue_entryOf_none {r : ValueRecord} {a : State} (hin : a.classify r.tag ≠ .inRange) (hno : a.entryOf r.tag = none) :
    (deliverValue r a).entryOf r.tag = none := by
  rcases deliverValue_cases r a with ⟨k, -, hc, -⟩ | ⟨-, ht⟩
  · exact absurd hc hin
  · rw [entryOf_congr ht, setStage_entryOf_none hno]

theorem deliverEntry_entryOf_none {r : EntryRecord} {a : State} (hin : a.classify r.tag ≠ .inRange) (hno : a.entryOf r.tag = none) :
    (deliverEntry r a).entryOf r.tag = none := by
  rcases deliverEntry_cases r a with ⟨hc, -⟩ | ⟨-, ht⟩
  · exact absurd hc hin
  · rw [entryOf_congr ht, setStage_entryOf_none hno]

/-- R55: an ending leaves the entries of the other units as they are. -/
theorem endEarly_entryOf_other {x : BitVec 16} (hx : x ≠ c.tag) : (endEarly e c s).entryOf x = s.entryOf x := by
  rw [← closeSequence_entryOf s x]
  cases hk : c.kind
  case unit =>
    rw [endEarly_of_unit hk]
    exact deliverValue_entryOf_other hx _
  case coarse =>
    rw [endEarly_of_coarse hk]
    exact deliverEntry_entryOf_other hx _
  case check => rw [endEarly_of_check hk, setStage_entryOf_other _ hx]

/-- R23, R24: the record of a unit out of range without an entry does not enter the table. -/
theorem endEarly_entryOf_none (hin : s.classify c.tag ≠ .inRange) (hno : s.entryOf c.tag = none) : (endEarly e c s).entryOf c.tag = none := by
  rw [← closeSequence_entryOf s] at hno
  rw [← closeSequence_classify s] at hin
  cases hk : c.kind
  case unit =>
    rw [endEarly_of_unit hk]
    exact deliverValue_entryOf_none hin hno
  case coarse =>
    rw [endEarly_of_coarse hk]
    exact deliverEntry_entryOf_none hin hno
  case check =>
    rw [endEarly_of_check hk]
    exact setStage_entryOf_none hno

/-- R32, R66: the VALUE of an ended UNIT measurement in the own slot of its unit. -/
theorem endEarly_entryOf_unit {k : Slot} (hk : c.kind = .unit) (hslot : s.role.bind slotOfRole = some k) (hin : s.classify c.tag = .inRange) :
    (endEarly e c s).entryOf c.tag
      = some { (s.entryOrBlank c.tag).fillSlot k (((endedRecord s c e.quality).held s.ctl.node).forSlot k) with ownStage := .done } := by
  have hrole : (closeSequence s).role.bind slotOfRole = some k := by simpa [State.role] using hslot
  have hblank : (closeSequence s).entryOrBlank c.tag = s.entryOrBlank c.tag := by rw [State.entryOrBlank, closeSequence_entryOf, State.entryOrBlank]
  rw [endEarly_of_unit hk]
  rcases deliverValue_cases (endedRecord s c e.quality) (closeSequence s) with ⟨k', hk', -, ht⟩ | ⟨hout, -⟩
  · obtain rfl : k' = k := by
      rw [hrole] at hk'
      exact (Option.some.inj hk').symm
    have htag : (endedRecord s c e.quality).tag = c.tag := rfl
    rw [htag] at ht
    rw [entryOf_congr ht, setStage_entryOf_same, putValue_entryOf_same, hblank, closeSequence_ctl]
    rfl
  · rw [hrole] at hout
    exact absurd ((closeSequence_classify s c.tag).trans hin) (hout.resolve_left (by simp))

/-- R31, R66: the ENTRY of an ended COARSE measurement gives the class of its unit where that has none. -/
theorem endEarly_entryOf_coarse (hk : c.kind = .coarse) (hin : s.classify c.tag = .inRange) :
    (endEarly e c s).entryOf c.tag
      = some
          { (if (s.entryOrBlank c.tag).cls = none then
              { s.entryOrBlank c.tag with stamp := some c.stamp, cls := some e.entryClass.1, coarse := e.entryClass.2, assumedPage := false }
            else s.entryOrBlank c.tag) with ownStage := .done } := by
  have hblank : (closeSequence s).entryOrBlank c.tag = s.entryOrBlank c.tag := by rw [State.entryOrBlank, closeSequence_entryOf, State.entryOrBlank]
  rw [endEarly_of_coarse hk]
  rcases deliverEntry_cases { tag := c.tag, stamp := c.stamp, cls := e.entryClass.1, coarse := e.entryClass.2 } (closeSequence s) with ⟨-, ht⟩ | ⟨hout, -⟩
  · have hput := putEntryRecord_entryOf_same { tag := c.tag, stamp := c.stamp, cls := e.entryClass.1, coarse := e.entryClass.2 } (closeSequence s)
    rw [hblank] at hput
    rw [entryOf_congr ht, setStage_entryOf_same, hput]
    rfl
  · exact absurd ((closeSequence_classify s c.tag).trans hin) hout

theorem endEarly_entryOf_check (hk : c.kind = .check) :
    (endEarly e c s).entryOf c.tag = (s.entryOf c.tag).map (fun x => { x with ownStage := .done }) := by
  rw [endEarly_of_check hk, setStage_entryOf_same, closeSequence_entryOf]

end

end Sys2Proof.Machine
end

section
/-! The firings, entries and queued records that a realign leaves (R37, R61, R132, R145, R167). -/

namespace Sys2Proof.Machine

/-! ### Firings (R132) -/

/-- R132: a WAITING firing whose unit has passed its gate once the count has moved by `d`. -/
def State.drops (s : State) (d : BitVec 16) (f : Firing) : Bool :=
  f.stage == .waiting && decide (s.ctl.items.gatePos[f.gate] < (s.idx.count + d - f.tag).toNat)

/-- A firing for the tag is dropped. -/
def State.dropsTag (s : State) (d : BitVec 16) (x : BitVec 16) : Bool := s.gates.firings.any (fun f => s.drops d f && f.tag == x)

section
variable (d : BitVec 16) (b : State)

theorem realignEnded_passedGate (f : Firing) : (f.stage == .waiting && (realignEnded d b).passedGate f) = b.drops d f := by
  have hgate : (realignEnded d b).gatePosOf f.gate = b.ctl.items.gatePos[f.gate] := by simp [State.gatePosOf, realignEnded, testedFirst]
  have hpos : (realignEnded d b).posOf f.tag = (b.idx.count + d - f.tag).toNat := by simp [State.posOf, realignEnded]
  rw [State.passedGate, hgate, hpos, State.drops]

theorem realignEnded_firings : (realignEnded d b).gates.firings = b.gates.firings := by simp [realignEnded]

end

section
variable {d : BitVec 16} {b : State} (h : b.realignBy = some d)
include h

theorem tests_gates : (peerTests b).gates = (realignDropped d b).gates := by
  rw [peerTests_realign h]
  simp [realignSettled]

theorem tests_firings (hn : (b.gates.firings.map Firing.tag).Nodup) :
    (peerTests b).gates.firings = b.gates.firings.filter (fun f => !b.drops d f) := by
  rw [tests_gates h, realignDropped, dropPassed_firings (by rwa [realignEnded_firings]), realignEnded_firings]
  simp only [realignEnded_passedGate]

theorem tests_gateMissed {f : Firing} (hf : f ∈ b.gates.firings) (hd : b.drops d f = true) : flagIn (peerTests b).alerts.word .gateMissed = true := by
  have hany : b.gates.firings.any (b.drops d) = true := List.any_eq_true.mpr ⟨f, hf, hd⟩
  rw [tests_flag h (by decide)]
  simp only [realignEnded_passedGate]
  simp [hany]

/-! ### Entries (R37) -/

theorem tests_entries : (peerTests b).table.entries = (realignEnded d b).table.entries.filter (fun e => !b.dropsTag d e.tag) := by
  have hr := (dropPassed_removes (realignEnded d b)).entries
  rw [peerTests_realign h, standbyTest_table, realignSettled_table, realignDropped, hr, realignEnded_firings]
  refine List.filter_congr fun e _ => ?_
  simp only [realignEnded_passedGate, State.dropsTag]
  simp only [Bool.beq_comm (a := e.tag)]

theorem tests_entryOf (x : BitVec 16) : (peerTests b).entryOf x = if b.dropsTag d x then none else (realignEnded d b).entryOf x :=
  entryOf_filter (tests_entries h) x

theorem tests_classify (x : BitVec 16) : (peerTests b).classify x = (realigned d b).classify x :=
  classify_congr (by rw [tests_count h, realigned_count]) (by simp) x

end

section
variable (d : BitVec 16) (b : State)

/-- R37: the entries in range stay, and are in doubt. -/
theorem realigned_entries :
    (realigned d b).table.entries
      = (b.table.entries.filter (fun e => (realigned d b).classify e.tag == .inRange)).map (fun e => { e with doubt := true }) := by
  have hcl : ∀ x, (forgetOffsets (moveCount d (testedFirst b))).classify x = (realigned d b).classify x :=
    fun x => classify_congr (by simp [moveCount, testedFirst]) (by simp [testedFirst]) x
  have ht : (forgetOffsets (moveCount d (testedFirst b))).table = b.table := by simp [testedFirst]
  generalize (realigned d b).classify = place at hcl
  rw [realigned, realignTable]
  dsimp only
  rw [State.withTable_table, removeEntries_entries, ht]
  refine congrArg _ (List.filter_congr fun e _ => ?_)
  rw [hcl]
  simp [bne]

theorem realigned_entryOf (x : BitVec 16) :
    (realigned d b).entryOf x = if (realigned d b).classify x = .inRange then (b.entryOf x).map (fun e => { e with doubt := true }) else none := by
  have hmap := entryOf_map (a := b.withTable { b.table with entries := b.table.entries.filter (fun e => (realigned d b).classify e.tag == .inRange) })
    (b := realigned d b) (g := fun e => { e with doubt := true }) (by simp) (realigned_entries d b) x
  have hfilter := entryOf_filter (a := b) (b := b.withTable { b.table with entries := b.table.entries.filter (fun e => (realigned d b).classify e.tag == .inRange) })
    (gone := fun t => (realigned d b).classify t != .inRange) (by simp [bne]) x
  rw [hmap, hfilter]
  by_cases hc : (realigned d b).classify x = .inRange <;> simp [hc]

end

/-! ### The sequence that ends (R61, R63) -/

/-- R61, R63: the standby test before the realign leaves the sequence alone, or discards it. -/
theorem testedFirst_ctx {b : State} (hrun : b.ctl.run ≠ .fault) :
    (testedFirst b).eng.ctx = if b.ctl.activity = .active ∧ b.lowerQualifies = true then none else b.eng.ctx := by
  have hctl : (refreshLevels b).ctl = b.ctl := refreshLevels_ctl b
  have hl : (refreshLevels b).lowerQualifies = b.lowerQualifies := lowerQualifies_refresh
  rw [testedFirst, standbyTest_eq, ← hctl, ← hl]
  rcases standbyOutcome (a := refreshLevels b) (by rwa [hctl]) with ⟨hact, hq, h⟩ | ⟨-, hq, h⟩ | ⟨hact, -, h⟩ <;> rw [h]
  · rw [if_pos ⟨hact, hq⟩]
    by_cases hc : b.eng.ctx = none <;> simp [stoodBy, discarded, endedEngine, hc]
  · rw [if_neg (by simp [hq])]
    simp [tookOver]
  · rw [if_neg (fun ha => by simp [hact ha.1] at ha)]
    simp

end Sys2Proof.Machine
end

section
/-! The Unit Table and the transmit queue after a realign (R31, R32, R37, R61, R145, R147, R167). -/

namespace Sys2Proof.Machine

/-! ### The Unit Table (R37, R61) -/

/-- R37, R132: a tag in range after the realign by `d`, with no firing dropped. -/
def State.keepsTag (b : State) (d x : BitVec 16) : Bool := (peerTests b).classify x == .inRange && !b.dropsTag d x

/-- R37: the entry of a tag as the realign leaves it before the record of the sequence enters. -/
def State.marked (b : State) (d x : BitVec 16) : Option Entry := if b.keepsTag d x then (b.entryOf x).map (fun e => { e with doubt := true }) else none

section
variable {d : BitVec 16} {b : State} (h : b.realignBy = some d)
include h

theorem tests_entries_idle (hidle : (testedFirst b).eng.ctx = none) :
    (peerTests b).table.entries = (b.table.entries.filter (fun e => b.keepsTag d e.tag)).map (fun e => { e with doubt := true }) := by
  have hend : realignEnded d b = realigned d b := by rw [realignEnded, endRunning, realigned_eng, hidle]
  rw [tests_entries h, hend, realigned_entries, List.filter_map, List.filter_filter]
  refine congrArg _ (List.filter_congr fun e _ => ?_)
  rw [State.keepsTag, tests_classify h, Bool.and_comm]
  rfl

omit h in
theorem realignEnded_eq {y : Ctx} (hc : (testedFirst b).eng.ctx = some y) : realignEnded d b = endEarly .doubt y (realigned d b) := by
  rw [realignEnded, endRunning, realigned_eng, hc]

theorem realigned_marked {x : BitVec 16} (hx : b.dropsTag d x = false) : (realigned d b).entryOf x = b.marked d x := by
  rw [realigned_entryOf, State.marked, State.keepsTag, tests_classify h, hx]
  by_cases hin : (realigned d b).classify x = .inRange <;> simp [hin]

theorem tests_entryOf_other {y : Ctx} (hc : (testedFirst b).eng.ctx = some y) {x : BitVec 16} (hx : x ≠ y.tag ∨ b.keepsTag d x = false) :
    (peerTests b).entryOf x = b.marked d x := by
  rw [tests_entryOf h]
  cases hd : b.dropsTag d x
  · rw [if_neg (by simp), realignEnded_eq hc, ← realigned_marked h hd]
    by_cases hne : x = y.tag
    · subst hne
      have hin : (realigned d b).classify y.tag ≠ .inRange := by simpa [State.keepsTag, hd, tests_classify h] using hx
      have hno : (realigned d b).entryOf y.tag = none := by rw [realigned_entryOf, if_neg hin]
      rw [endEarly_entryOf_none hin hno, hno]
    · exact endEarly_entryOf_other hne
  · simp [State.marked, State.keepsTag, hd]

/-- R61: where its unit stays, the entry is the one that the ending leaves. -/
theorem tests_entryOf_same {y : Ctx} (hc : (testedFirst b).eng.ctx = some y) (hk : b.keepsTag d y.tag = true) :
    (peerTests b).entryOf y.tag = (endEarly .doubt y (realigned d b)).entryOf y.tag ∧ (realigned d b).classify y.tag = .inRange
      ∧ (realigned d b).entryOf y.tag = b.marked d y.tag := by
  obtain ⟨hin, hd⟩ : (peerTests b).classify y.tag = .inRange ∧ b.dropsTag d y.tag = false := by simpa [State.keepsTag] using hk
  rw [tests_classify h] at hin
  refine ⟨?_, hin, realigned_marked h hd⟩
  rw [tests_entryOf h, hd, if_neg (by simp), realignEnded_eq hc]

/-- R61, R66: the VALUE of quality DOUBT in the own slot. -/
theorem tests_entryOf_unit {y : Ctx} (hc : (testedFirst b).eng.ctx = some y) (hk : b.keepsTag d y.tag = true) (hkind : y.kind = .unit) {k : Slot}
    (hslot : b.role.bind slotOfRole = some k) :
    (peerTests b).entryOf y.tag
      = some
          { ((b.marked d y.tag).getD (Entry.blank y.tag .none)).fillSlot k (((endedRecord b y .doubt).held b.ctl.node).forSlot k) with
            ownStage := .done } := by
  obtain ⟨he, hin, hm⟩ := tests_entryOf_same h hc hk
  have hctl : (realigned d b).ctl.role = b.ctl.role ∧ (realigned d b).ctl.node = b.ctl.node := by simp [testedFirst]
  have hrole : (realigned d b).role = b.role := by rw [State.role, hctl.1, State.role]
  rw [he, endEarly_entryOf_unit hkind (by rw [hrole, hslot]) hin, State.entryOrBlank, hm, hctl.2, endedRecord_congr hctl.1]
  rfl

/-- R61, R66: the class CONTACT where the entry has none. -/
theorem tests_entryOf_coarse {y : Ctx} (hc : (testedFirst b).eng.ctx = some y) (hk : b.keepsTag d y.tag = true) (hkind : y.kind = .coarse) :
    (peerTests b).entryOf y.tag
      = some
          { (if ((b.marked d y.tag).getD (Entry.blank y.tag .none)).cls = none then
              { (b.marked d y.tag).getD (Entry.blank y.tag .none) with
                stamp := some y.stamp, cls := some .contact, coarse := none, assumedPage := false }
            else (b.marked d y.tag).getD (Entry.blank y.tag .none)) with ownStage := .done } := by
  obtain ⟨he, hin, hm⟩ := tests_entryOf_same h hc hk
  rw [he, endEarly_entryOf_coarse hkind hin, State.entryOrBlank, hm]
  rfl

theorem tests_entryOf_check {y : Ctx} (hc : (testedFirst b).eng.ctx = some y) (hk : b.keepsTag d y.tag = true) (hkind : y.kind = .check) :
    (peerTests b).entryOf y.tag = (b.marked d y.tag).map (fun e => { e with ownStage := .done }) := by
  obtain ⟨he, -, hm⟩ := tests_entryOf_same h hc hk
  rw [he, endEarly_entryOf_check hkind, hm]

end

/-! ### The transmit queue (R145, R147) -/

theorem standbyTest_queue_subset (a : State) : ∀ q ∈ (standbyTest a).link.queue, q ∈ a.link.queue := by
  have hd : (discarded a).link = a.link := by unfold discarded; split <;> simp
  rw [standbyTest_eq]
  by_cases hrun : a.ctl.run = .fault
  · simp [tested, hrun]
  · rcases standbyOutcome hrun with ⟨-, -, h⟩ | ⟨-, -, h⟩ | ⟨-, -, h⟩ <;> rw [h]
    · simp only [stoodBy, offerHail_link, State.withCtl_link, keepQueued, State.withLink_link, hd]
      exact fun q hq => List.mem_of_mem_filter hq
    · simp [tookOver]
    · exact fun q hq => hq

/-- R147: at an entry to STANDBY the unit records leave the queue. -/
theorem standbyTest_noUnits {a : State} (hrun : a.ctl.run ≠ .fault) (hact : a.ctl.activity = .active) (hl : a.lowerQualifies = true) :
    ∀ q ∈ (standbyTest a).link.queue, q.frame.isUnit = false := by
  have ht : tested a = stoodBy a := by rw [tested, if_neg hrun, if_pos ⟨hact, hl⟩]
  rw [standbyTest_eq, ht]
  simp [stoodBy, keepQueued]

section
variable {d : BitVec 16} {b : State} (h : b.realignBy = some d)
include h

/-- R147, R167: a station that goes to STANDBY in either test holds no unit record. -/
theorem tests_noUnits (hz : (b.withPeers (vmap forgottenRow b.peers)).lowerQualifies = true)
    (hact : b.ctl.activity = .active ∨ b.ctl.activity = .standby ∧ b.lowerQualifies = false) :
    ∀ q ∈ (peerTests b).link.queue, q.frame.isUnit = false := by
  have hrun := realign_run h
  have hqueue : (realignSettled d b).link.queue = (testedFirst b).link.queue := by
    simp [realignSettled, realignDropped, realignEnded, realigned]
  rw [peerTests_realign h]
  cases hl : b.lowerQualifies
  · have hnm : b.ctl.activity ≠ .muted := by
      rcases hact with ha | ⟨ha, -⟩ <;> simp [ha]
    refine standbyTest_noUnits (mt (realignSettled_fault_iff d b).mp hrun) ?_ (by rw [realignSettled_lowerQualifies, hz])
    rw [realignSettled_activity, testedFirst_activity h, if_neg hnm, hl]
    rfl
  · have ha : b.ctl.activity = .active := hact.resolve_right (by simp [hl])
    intro q hq
    have hq := standbyTest_queue_subset _ q hq
    rw [hqueue] at hq
    exact standbyTest_noUnits (a := refreshLevels b) (by simpa using hrun) (by simpa using ha) (by rw [lowerQualifies_refresh, hl]) q hq

/-- R61, R66, R145: where no lower row holds the own role, an ACTIVE station stays so, and the record of the sequence is offered. -/
theorem tests_record (hroles : ∀ m : Fin 8, m.val < b.ctl.node.val → (b.peers[m]).role ≠ some b.ctl.role) (hact : b.ctl.activity = .active)
    {y : Ctx} (hc : b.eng.ctx = some y) :
    (peerTests b).work.units = b.work.units ++ endingFrames .doubt y b ∧ (peerTests b).link.queue = b.link.queue
      ∧ ∀ f, (peerTests b).admits f = b.admits f := by
  have hl : b.lowerQualifies = false := lowerQualifies_of_roles hroles
  have hz : (realignSettled d b).lowerQualifies = false := by
    refine lowerQualifies_of_roles fun m hm => ?_
    have hrow : (vmap forgottenRow b.peers)[m] = forgottenRow b.peers[m] := by simp [vmap]
    simp only [realignSettled_node, realignSettled_role, realignSettled_peers, hrow] at hm ⊢
    exact hroles m hm
  have hfirst : testedFirst b = refreshLevels b :=
    standbyTest_stays (fun _ => by rw [lowerQualifies_refresh, hl]) (fun hs => by simp [hact] at hs)
  have hlast : peerTests b = realignSettled d b := by
    rw [peerTests_realign h]
    refine standbyTest_stays (fun _ => hz) (fun hs => ?_)
    rw [realignSettled_activity, hfirst, refreshLevels_ctl, hact] at hs
    cases hs
  have hend : realignEnded d b = endEarly .doubt y (realigned d b) := realignEnded_eq (by rw [hfirst, refreshLevels_eng, hc])
  have hrole : (realigned d b).ctl.role = b.ctl.role := by simp [testedFirst]
  have hframes : endingFrames .doubt y (realigned d b) = endingFrames .doubt y b := by
    unfold endingFrames
    cases y.kind <;> simp only [endedRecord_congr hrole]
  rw [hlast]
  refine ⟨?_, ?_, fun f => ?_⟩
  · simp [realignSettled, realignDropped, hend, endEarly_units, hframes]
  · simp [realignSettled, realignDropped, realignEnded, realigned, hfirst]
  · rw [admits_congr (a := drainTest (realignDropped d b)) (by simp [realignSettled]), drainTest_admits]
    exact admits_congr (by simp [realignDropped, realignEnded, hfirst]) f

end

end Sys2Proof.Machine
end

section
/-! What a unit record leaves of a realign made just before it, and the end of the command (R20 to R26, R145, R162); O32. -/

namespace Sys2Proof.Machine

/-! ### The record after the realign -/

theorem forgotten_row (v : Vector PeerRow 8) (m : Fin 8) : (vmap forgottenRow v)[m] = forgottenRow v[m] := by simp [vmap]

/-- R170, R171: rows without offsets ask for no realign. -/
theorem realignBy_of_noOffsets {a : State} (h : ∀ m : Fin 8, (a.peers[m]).offset = none) : a.realignBy = none := by
  rw [Option.eq_none_iff_forall_ne_some]
  intro d hd
  obtain ⟨-, -, -, ⟨m, -, -, hm, -⟩, -⟩ := (realignBy_iff a d).mp hd
  have ho := hm.2.2
  rw [h m] at ho
  cases ho

/-- What the content of a unit record keeps. -/
structure RecordKept (w v : State) : Prop where
  count : v.idx.count = w.idx.count
  lastIndex : v.idx.lastIndex = w.idx.lastIndex
  ctx : w.eng.ctx = none → v.eng.ctx = none
  measReq : w.idx.measReq = false → v.idx.measReq = false
  flags : ∀ g, flagIn w.alerts.word g = true → flagIn v.alerts.word g = true
  rows : ∀ m : Fin 8, { v.peers[m] with ahead := false } = { w.peers[m] with ahead := false }
  drift : v.drift = w.drift
  pages : v.pages = w.pages
  gates : v.gates = w.gates

/-- What it keeps besides where no lower row holds the role of an ACTIVE station. -/
structure QueueKept (w v : State) : Prop where
  units : v.work.units = w.work.units
  queue : v.link.queue = w.link.queue
  ctl : v.ctl = w.ctl

theorem modifyRow_ahead (n : Fin 8) (w : State) (m : Fin 8) :
    (modifyRow n (fun r => { r with ahead := true }) w).peers[m] = w.peers[m]
      ∨ (modifyRow n (fun r => { r with ahead := true }) w).peers[m] = { w.peers[m] with ahead := true } := by
  unfold modifyRow
  split
  · exact .inl rfl
  · by_cases hmn : n = m
    · subst hmn
      exact .inr (by simp)
    · have hne : n.val ≠ m.val := fun he => hmn (Fin.ext he)
      exact .inl (by simp [hne])

/-- R162: after a realign a record ahead asks for no second one. -/
theorem reportAhead_tested {n : Fin 8} {w : State} (hw : ∀ m : Fin 8, (w.peers[m]).offset = none) :
    reportAhead n w = refreshLevels (standbyTest (modifyRow n (fun r => { r with ahead := true }) w)) := by
  rw [standbyTest_eq]
  refine peerTests_tested (realignBy_of_noOffsets fun m => ?_)
  rcases modifyRow_ahead n w m with hm | hm <;> rw [hm]
  · exact hw m
  · exact hw m

theorem RecordEffect.kept {w v : State} (h : RecordEffect w v) (hw : ∀ m : Fin 8, (w.peers[m]).offset = none) : RecordKept w v := by
  cases h with
  | nothing => exact ⟨rfl, rfl, id, id, fun _ => id, fun _ => rfl, rfl, rfl, rfl⟩
  | table x => exact ⟨rfl, rfl, id, id, fun _ => id, fun _ => rfl, rfl, rfl, rfl⟩
  | late =>
    refine ⟨by simp, by simp, by simp, by simp, fun g hg => ?_, by simp, by simp, by simp, by simp⟩
    rw [reportLate, raiseIf_flag, hg]
    rfl
  | ahead n =>
    rw [reportAhead_tested hw]
    refine ⟨by simp, by simp, fun hc => ?_, fun hm => ?_, fun g hg => ?_, fun m => ?_, by simp, by simp, by simp⟩
    · rw [refreshLevels_eng]
      rcases standbyTest_ctx (modifyRow n (fun r => { r with ahead := true }) w) with hs | hs
      · rw [hs, modifyRow_eng, hc]
      · exact hs.1
    · rw [refreshLevels_idx]
      exact standbyTest_measReq (by simpa using hm)
    · rw [refreshLevels_flag, standbyTest_flag, modifyRow_alerts, hg]
      rfl
    · rw [refreshLevels_peers, standbyTest_peers]
      rcases modifyRow_ahead n w m with hm | hm <;> rw [hm]

theorem RecordEffect.queueKept {w v : State} (h : RecordEffect w v) (hw : ∀ m : Fin 8, (w.peers[m]).offset = none)
    (hroles : ∀ m : Fin 8, m.val < w.ctl.node.val → (w.peers[m]).role ≠ some w.ctl.role) (hact : w.ctl.activity = .active) : QueueKept w v := by
  cases h with
  | nothing => exact ⟨rfl, rfl, rfl⟩
  | table x => exact ⟨rfl, rfl, rfl⟩
  | late => exact ⟨by simp, by simp, by simp⟩
  | ahead n =>
    have hl : (modifyRow n (fun r => { r with ahead := true }) w).lowerQualifies = false := by
      refine lowerQualifies_of_roles fun m hm => ?_
      rw [modifyRow_ctl] at hm ⊢
      rcases modifyRow_ahead n w m with hr | hr <;> rw [hr]
      · exact hroles m hm
      · exact hroles m hm
    have hstays : standbyTest (modifyRow n (fun r => { r with ahead := true }) w) = modifyRow n (fun r => { r with ahead := true }) w :=
      standbyTest_stays (fun _ => hl) (fun hs => by simp [hact] at hs)
    rw [reportAhead_tested hw, hstays]
    exact ⟨by simp, by simp, by simp⟩

/-! ### The end of the command (R145) -/

/-- R145: a STANDBY station admits no unit record. -/
theorem isUnit_of_admits_standby {st : StationState} {f : QFrame} (h : admits st .standby f = true) : f.isUnit = false := by
  unfold admits at h
  cases st
  case fault | listen => rw [beq_iff_eq.mp h]; rfl
  case config | ready | run | halt => simpa using h

theorem offer_noUnits {a : State} {f : QFrame} (hact : a.ctl.activity = .standby) (hq : ∀ q ∈ a.link.queue, q.frame.isUnit = false) :
    ∀ q ∈ (offer f a).link.queue, q.frame.isUnit = false := by
  unfold offer
  split
  · exact hq
  · rename_i had
    split
    · simpa using hq
    · intro q hm
      rw [enqueue, State.withLink_link, List.map_singleton] at hm
      rcases List.mem_append.mp hm with hm | hm
      · exact hq q hm
      · obtain rfl := List.mem_singleton.mp hm
        rw [State.admits, hact] at had
        exact isUnit_of_admits_standby (by simpa using had)

theorem offerAll_noUnits (fs : List QFrame) {a : State} (hact : a.ctl.activity = .standby) (hq : ∀ q ∈ a.link.queue, q.frame.isUnit = false) :
    ∀ q ∈ (fs.foldl (fun a f => offer f a) a).link.queue, q.frame.isUnit = false := by
  induction fs generalizing a with
  | nil => exact hq
  | cons f fs ih => exact ih (by simpa using hact) (offer_noUnits hact hq)

theorem settle_noUnits {a : State} (hs : a.work.status = []) (hact : a.ctl.activity = .standby) (hq : ∀ q ∈ a.link.queue, q.frame.isUnit = false) :
    ∀ q ∈ (settle a).link.queue, q.frame.isUnit = false := by
  obtain ⟨more, hm, hkind, -⟩ := settle_more hs
  intro q hmem
  rw [hm] at hmem
  rcases List.mem_append.mp hmem with hmem | hmem
  · exact offerAll_noUnits a.work.units (by simpa using hact) (by simpa using hq) q hmem
  · rcases (hkind q hmem).2 with hf | hf <;> rw [hf] <;> rfl

/-- R140: the end of a command starts no header while a frame is on the line. -/
theorem settle_line {a : State} (h : a.link.tx.isSome = true ∨ a.link.rx.isSome = true) :
    (settle a).link.tx = a.link.tx ∧ (settle a).link.rx = a.link.rx := by
  have ht := settle_tail a
  refine ⟨?_, ht.rx⟩
  rcases ht.line with ⟨-, he, -⟩ | ⟨hm, -⟩
  · exact he
  · have hfree := hm
    unfold State.mayStart at hfree
    simp only [Bool.and_eq_true, Option.isNone_iff_eq_none] at hfree
    rcases h with h | h <;> simp [hfree.1.1.2, hfree.1.2] at h

end Sys2Proof.Machine
end

section
/-! The realign through every command that changes a row (R16, R170, R171); O32. -/

namespace Sys2Proof.Machine

/-- R170: no row vetoes. -/
theorem noVeto_iff (b : State) :
    (∀ n, b.vetoes n = false)
      ↔ ∀ (n : Fin 8) (o : Offset), b.near n → (b.peers[n]).ahead = false → (b.peers[n]).offset = some o → o.agrees = false := by
  constructor
  · intro h n o hn ha ho
    by_contra hag
    have hv := (vetoes_iff b n).mpr ⟨hn, ha, o, ho, by simpa using hag⟩
    rw [h n] at hv
    cases hv
  · intro h n
    by_contra hv
    obtain ⟨hn, ha, o, ho, hag⟩ := (vetoes_iff b n).mp (by simpa using hv)
    rw [h n o hn ha ho] at hag
    cases hag

section
variable {t : Instant} {s b : State} {d : BitVec 16} (hch : RowChange t s b) (h : b.realignBy = some d)

include hch in
theorem RowChange.drops : b.drops d = s.drops d := by
  funext f
  rw [State.drops, State.drops, hch.ctl, hch.idx]

include hch in
theorem RowChange.keepsTag (x : BitVec 16) :
    b.keepsTag d x = ((peerTests b).classify x == .inRange && !s.gates.firings.any (fun f => s.drops d f && f.tag == x)) := by
  rw [State.keepsTag, State.dropsTag, hch.drops, hch.gates]

include hch h

/-- R37, R61, R66: the Unit Table as the tests leave it. -/
theorem tests_table :
    let w := peerTests b
    let inRange (x : BitVec 16) : Bool := w.classify x == .inRange && !s.gates.firings.any (fun f => s.drops d f && f.tag == x)
    let marked (x : BitVec 16) : Option Entry := if inRange x then (s.entryOf x).map (fun e => { e with doubt := true }) else none
    let ends : Prop := s.ctl.activity ≠ .active ∨ b.lowerQualifies = false
    (s.eng.ctx = none ∨ ¬ends → w.table.entries = (s.table.entries.filter (fun e => inRange e.tag)).map (fun e => { e with doubt := true }))
      ∧ ∀ y, s.eng.ctx = some y → ends →
        let e := (marked y.tag).getD (Entry.blank y.tag .none)
        (∀ x, x ≠ y.tag ∨ inRange x = false → w.entryOf x = marked x)
          ∧ (inRange y.tag = true →
              (y.kind = .unit → ∀ k, s.role.bind slotOfRole = some k →
                  w.entryOf y.tag = some { e.fillSlot k (((endedRecord s y .doubt).held s.ctl.node).forSlot k) with ownStage := .done })
                ∧ (y.kind = .coarse → e.cls = none →
                    w.entryOf y.tag
                      = some { e with stamp := some y.stamp, cls := some .contact, coarse := none, assumedPage := false, ownStage := .done })
                ∧ (y.kind = .coarse → e.cls ≠ none → w.entryOf y.tag = some { e with ownStage := .done })
                ∧ (y.kind = .check → w.entryOf y.tag = (marked y.tag).map (fun e => { e with ownStage := .done }))) := by
  intro w inRange marked ends
  have hkeep : ∀ x, b.keepsTag d x = inRange x := hch.keepsTag
  have hmark : ∀ x, b.marked d x = marked x := fun x => by rw [State.marked, hkeep, entryOf_congr hch.table]
  clear_value marked inRange
  have hctx := testedFirst_ctx (realign_run h)
  rw [hch.ctl, hch.eng] at hctx
  constructor
  · intro hidle
    have hnone : (testedFirst b).eng.ctx = none := by
      rw [hctx]
      split
      · rfl
      · rename_i hn
        refine hidle.resolve_right fun hne => hn ?_
        simpa [ends, not_or] using hne
    rw [tests_entries_idle h hnone, hch.table]
    simp only [hkeep]
  · intro y hy hends e
    have hc : (testedFirst b).eng.ctx = some y := by
      rw [hctx, if_neg, hy]
      rintro ⟨ha, hl⟩
      rcases hends with hn | hn
      · exact hn ha
      · rw [hl] at hn
        cases hn
    have he : (b.marked d y.tag).getD (Entry.blank y.tag .none) = e := by rw [hmark]
    clear_value e
    refine ⟨fun x hx => ?_, fun hin => ⟨fun hk k hslot => ?_, fun hk hcls => ?_, fun hk hcls => ?_, fun hk => ?_⟩⟩
    · rw [← hkeep] at hx
      rw [← hmark]
      exact tests_entryOf_other h hc hx
    all_goals rw [← hkeep] at hin
    · have hu := tests_entryOf_unit h hc hin hk (k := k) (by rw [State.role, hch.ctl]; exact hslot)
      rwa [he, hch.ctl, endedRecord_congr (a := s) (by rw [hch.ctl])] at hu
    · have hu := tests_entryOf_coarse h hc hin hk
      rwa [he, if_pos hcls] at hu
    · have hu := tests_entryOf_coarse h hc hin hk
      rwa [he, if_neg hcls] at hu
    · have hu := tests_entryOf_check h hc hin hk
      rwa [hmark] at hu

end

/-- R9, R146: what a silence that leads to a realign leaves on the line. -/
theorem silence_line {t : Instant} {s b : State} {d : BitVec 16} (hlink : b.link = (advance t s).link) (h : b.realignBy = some d) :
    (s.link.tx = none → (settle (peerTests b)).link.rx = s.link.rx.map (Mark.shift d))
      ∧ ∀ x, (advance t s).link.tx = some x →
        ((settle (peerTests b)).link.tx = some { x with mark := x.mark.shift d } ∧ (settle (peerTests b)).link.rx = s.link.rx.map (Mark.shift d))
          ∨ (x.won = false ∧ (settle (peerTests b)).link.tx = none ∧ (settle (peerTests b)).link.rx = some (x.mark.shift d)) := by
  have hline := tests_line h
  have hrx : b.link.rx = s.link.rx := by rw [hlink, advance_link_rx]
  constructor
  · intro htx
    have hb : b.link.tx = none := by rw [hlink, advance_link t s htx, htx]
    rw [(settle_tail (peerTests b)).rx, (hline.idle hb).2, hrx]
  · intro x hx
    rw [← hlink] at hx
    rcases hline.sending x hx with ⟨htx, hrx'⟩ | ⟨hwon, htx, hrx'⟩
    · obtain ⟨htx', hrx''⟩ := settle_line (a := peerTests b) (.inl (by rw [htx]; rfl))
      exact .inl ⟨htx'.trans htx, by rw [hrx'', hrx', hrx]⟩
    · obtain ⟨htx', hrx''⟩ := settle_line (a := peerTests b) (.inr (by rw [hrx']; rfl))
      exact .inr ⟨hwon, htx'.trans htx, hrx''.trans hrx'⟩

/-- R61, R66, R145: the record of the sequence that a realign ends joins a queue with room. -/
theorem realign_queues {t : Instant} {s b v : State} {d : BitVec 16} (hch : RowChange t s b) (h : b.realignBy = some d) (heff : RecordEffect (peerTests b) v)
    {y : Ctx} (hy : s.eng.ctx = some y) (hroles : ∀ m : Fin 8, m.val < s.ctl.node.val → (b.peers[m]).role ≠ some s.ctl.role) (hsends : SendsUnits s)
    (hroom : HasRoom 1 (advance t s)) : ∀ f ∈ endingFrames .doubt y s, { frame := f, waiting := 0 } ∈ (settle v).link.queue := by
  obtain ⟨hact, hrun⟩ := hsends
  obtain ⟨hwork, hlen⟩ := hroom
  rw [advance_work] at hwork
  have hroles' : ∀ m : Fin 8, m.val < b.ctl.node.val → (b.peers[m]).role ≠ some b.ctl.role := by rwa [hch.ctl]
  obtain ⟨hunits, hqueue, hadm⟩ := tests_record h hroles' (by rw [hch.ctl, hact]) (by rw [hch.eng, hy])
  have hframes : endingFrames .doubt y b = endingFrames .doubt y s := by
    unfold endingFrames
    cases y.kind <;> simp only [endedRecord_congr (a := s) (b := b) (by rw [hch.ctl])]
  have hpeers := tests_peers h
  have hl : b.lowerQualifies = false := lowerQualifies_of_roles hroles'
  have hrow : ∀ m : Fin 8, (peerTests b).peers[m] = forgottenRow b.peers[m] := fun m => by rw [hpeers, forgotten_row]
  have hz : (b.withPeers (vmap forgottenRow b.peers)).lowerQualifies = false :=
    lowerQualifies_of_roles fun m hm => by
      rw [State.withPeers_peers, forgotten_row]
      exact hroles' m hm
  have hkept : QueueKept (peerTests b) v := heff.queueKept (fun m => by rw [hrow]; rfl)
    (fun m hm => by rw [hrow, peerTests_ctl_role]; rw [peerTests_ctl_node] at hm; exact hroles' m hm)
    (by rw [tests_activity h, hz, hch.ctl, hact]; rfl)
  have hvu : v.work.units = endingFrames .doubt y s := by
    rw [hkept.units, hunits, hch.work, hwork, hframes]
    rfl
  have hvq : v.link.queue = (advance t s).link.queue := by rw [hkept.queue, hqueue, hch.queue]
  have hone : (endingFrames .doubt y s).length ≤ 1 := by
    unfold endingFrames
    cases y.kind <;> simp
  obtain ⟨more, hm⟩ := settle_units v
    (fun f _ => by
      rw [admits_congr hkept.ctl, hadm, State.admits, hch.ctl, hact]
      rcases hrun with hr | hr <;> rw [hr] <;> rfl)
    (by rw [hvu, hvq]; omega)
  intro f hf
  rw [hm, hvu]
  simp only [List.mem_append, List.mem_map]
  exact .inl (.inr ⟨f, hf, rfl⟩)

/-! ### O32 -/

/-- R16, R171: counts, engine, flags and rows of a station that has realigned, whatever a record then does. -/
theorem realign_leaves {t : Instant} {s b v : State} {d : BitVec 16} (hch : RowChange t s b) (h : b.realignBy = some d) (hk : RecordKept (peerTests b) v) :
    (settle v).idx.count = s.idx.count + d ∧ (settle v).idx.lastIndex = s.idx.lastIndex ∧ (settle v).eng.ctx = none
      ∧ (s.eng.ctx ≠ none → (settle v).idx.measReq = false) ∧ flagIn (settle v).alerts.word .indexRealign = true
      ∧ (∀ m : Fin 8, { (settle v).peers[m] with ahead := false } = { b.peers[m] with offset := none, ahead := false })
      ∧ (settle v).drift = s.drift ∧ (settle v).pages = s.pages := by
  have ht := settle_tail v
  refine ⟨?_, ?_, ?_, fun hc => ?_, ?_, fun m => ?_, ?_, ?_⟩
  · rw [ht.idx, hk.count, tests_count h, hch.idx]
  · rw [ht.idx, hk.lastIndex, peerTests_idx_lastIndex, hch.idx]
  · rw [ht.eng]
    exact hk.ctx (tests_ctx h)
  · rw [ht.idx]
    exact hk.measReq (tests_measReq h (by rwa [hch.eng]))
  · exact ht.keeps_flag (by simp) (hk.flags _ (tests_indexRealign h))
  · rw [ht.peers, hk.rows, tests_peers h, forgotten_row]
    rfl
  · rw [ht.drift, hk.drift, peerTests_drift, hch.drift]
  · rw [ht.pages, hk.pages, peerTests_pages, hch.pages]

/-- R132: firings, drivers and tallies of a station that has realigned, whatever a record then does. -/
theorem realign_gates {t : Instant} {s b v : State} {d : BitVec 16} (hch : RowChange t s b) (h : b.realignBy = some d) (hk : RecordKept (peerTests b) v)
    (hn : (s.gates.firings.map Firing.tag).Nodup) :
    (settle v).gates.firings = s.gates.firings.filter (fun f => !s.drops d f) ∧ (settle v).gates.drivers = s.gates.drivers
      ∧ (settle v).gates.binTallies = s.gates.binTallies
      ∧ ∀ f ∈ s.gates.firings, s.drops d f = true → flagIn (settle v).alerts.word .gateMissed = true := by
  have ht := settle_tail v
  have hdrops : b.drops d = s.drops d := hch.drops
  refine ⟨?_, ?_, ?_, fun f hf hd => ?_⟩
  · rw [ht.gates, hk.gates, tests_firings h (by rwa [hch.gates]), hch.gates, hdrops]
  · rw [ht.gates, hk.gates, peerTests_gates_drivers, hch.gates]
  · rw [ht.gates, hk.gates, peerTests_gates_binTallies, hch.gates]
  · exact ht.keeps_flag (by simp) (hk.flags _ (tests_gateMissed h (by rwa [hch.gates]) (by rwa [hdrops])))

/-- R132: the entry of a firing that is dropped leaves. -/
theorem tests_entryOf_dropped {t : Instant} {s b : State} {d : BitVec 16} (hch : RowChange t s b) (h : b.realignBy = some d) {f : Firing}
    (hf : f ∈ s.gates.firings) (hd : s.drops d f = true) : (peerTests b).entryOf f.tag = none := by
  rw [tests_entryOf h, if_pos]
  rw [State.dropsTag, hch.drops, hch.gates, List.any_eq_true]
  exact ⟨f, hf, by simp [hd]⟩

/-- Settles O32: the test by its witnesses and vetoes; the realign act by act, from the row update that every such command makes to the tests on it; then what a unit record keeps of it, and the end of the command. -/
theorem realignMovesCount : Obligations.RealignMovesCount := by
  unfold Obligations.RealignMovesCount
  refine ⟨fun d b => ?_, fun c d s b hr _ hb h => ?_⟩
  · intro near disagrees twice
    rw [realignBy_iff, noVeto_iff]
    rfl
  · obtain ⟨hch, hsil, v, he, heff, hid⟩ := tests_of_rowChanged hr hb
    have hoff : ∀ m : Fin 8, ((peerTests b).peers[m]).offset = none := fun m => by rw [tests_peers h, forgotten_row]; rfl
    have hk := heff.kept hoff
    obtain ⟨hcount, hlast, hctx, hmeas, hflag, hrows, hdrift, hpages⟩ := realign_leaves hch h hk
    have hahead : c.isRecord = false → ∀ m : Fin 8, ((settle v).peers[m]).ahead = false := fun hrec m => by
      rw [hid hrec, (settle_tail _).peers, tests_peers h, forgotten_row]
      rfl
    have hact := tests_activity h
    have hdue := tests_hailDue h
    have hover := tests_takeover h
    rw [hch.ctl] at hact hdue hover
    rw [hch.alerts] at hover
    refine ⟨settle v, he, hcount, hlast, hctx, hmeas, hflag, hrows, hahead, hdrift, hpages, fun t n hc => ?_,
      fun y hy hroles hsends hroom => ?_, fun hn => ?_, ⟨hact, hover, hdue, fun hrec hwork hz hwas => ?_⟩, fun hrec => ?_⟩
    · subst hc
      rw [hid rfl]
      exact silence_line (hsil t n rfl) h
    · have hq := realign_queues hch h heff hy hroles hsends hroom
      exact ⟨fun hkind => hq _ (by simp [endingFrames, hkind, Ending.quality]), fun hkind => hq _ (by simp [endingFrames, hkind, Ending.entryClass])⟩
    · obtain ⟨hfirings, hdrivers, htallies, hmissed⟩ := realign_gates hch h hk hn
      refine ⟨hfirings, hdrivers, htallies, hmissed, fun hrec f hf hd => ?_, tests_table hch h⟩
      rw [hid hrec, entryOf_congr (settle_tail _).table]
      exact tests_entryOf_dropped hch h hf hd
    · replace hz : (b.withPeers (vmap forgottenRow b.peers)).lowerQualifies = true := hz
      rw [hid hrec]
      have hstandby : (peerTests b).ctl.activity = .standby := by
        rw [hact, if_neg, if_pos hz]
        rcases hwas with ha | ⟨ha, -⟩ <;> simp [ha]
      refine settle_noUnits ?_ hstandby (tests_noUnits h hz (by rwa [hch.ctl]))
      rw [peerTests_work_status, hch.work, hwork]
      rfl
    · rw [hid hrec]
      exact ⟨by rw [(settle_tail _).table], by simp⟩

end Sys2Proof.Machine
end

section
/-! Settles O38 and O39: the active source of a role, and what an ENTRY and a VALUE of the active source do at the Unit Table (R20, R22, R25, R26, R31, R32, R165, R166). -/

namespace Sys2Proof.Machine

/-! ### The active source (R165) -/

/-- R157, R163: the statements' standing code of a row is the code of its standing. -/
theorem standingCode_eq (s : State) (n : Fin 8) : standingCode s n = (s.standing n).code.toNat := by
  have hle : ∀ heard now : Nat, heard + 10000000 ≤ now ↔ 10000000 ≤ now - heard := by omega
  have hsilent : (s.peers[n]).heardAt + ms 1000 ≤ s.now ↔ Config.silenceLimit ≤ s.now - (s.peers[n]).heardAt := hle _ _
  unfold standingCode State.standing standing
  simp only [hsilent, Bool.not_eq_true']
  split
  · rfl
  · split
    · rfl
    · split
      · rfl
      · cases (s.peers[n]).offset with
        | none => cases (s.peers[n]).ahead <;> rfl
        | some o =>
          obtain ⟨value, agrees⟩ := o
          cases (s.peers[n]).ahead <;> cases agrees <;> rfl

theorem standing_code_eq_four_iff (x : Standing) : x.code.toNat = 4 ↔ x = .present := by cases x <;> decide

theorem sourceRow_eq (s : State) (r : BitVec 3) (n : Fin 8) : sourceRow s r n = rowQualifies s.now r s.peers[n] := by
  have hst : (standingCode s n == 4) = (standing s.now s.peers[n] == .present) := by
    rw [Bool.eq_iff_iff, beq_iff_eq, beq_iff_eq, standingCode_eq]
    exact standing_code_eq_four_iff _
  unfold sourceRow rowQualifies
  rw [hst]

theorem allNodes_eq_finRange : allNodes = List.finRange 8 := by decide

theorem find_allNodes_eq_some_iff (p : Fin 8 → Bool) (k : Fin 8) : allNodes.find? p = some k ↔ p k = true ∧ ∀ m : Fin 8, m < k → p m = false := by
  rw [allNodes_eq_finRange, List.find?_eq_some_iff_getElem]
  simp only [List.getElem_finRange, Bool.not_eq_true', and_congr_right_iff]
  intro _
  constructor
  · rintro ⟨i, hi, rfl, hfirst⟩ m hm
    exact hfirst m.val hm
  · intro hfirst
    exact ⟨k.val, by simp, rfl, fun j hj => hfirst _ hj⟩

/-- R165: the active source is the lowest row that qualifies. -/
theorem activeSource_eq_some_iff (s : State) (r : BitVec 3) (k : Fin 8) :
    s.activeSource r = some k ↔ sourceRow s r k = true ∧ ∀ m : Fin 8, m < k → sourceRow s r m = false := by
  simp only [sourceRow_eq]
  exact find_allNodes_eq_some_iff _ k

/-! ### ENTRY_RECEIVED (R25, R31) -/

theorem classOfCode_undefined {c : BitVec 3} (h : 5 ≤ c.toNat) : classOfCode c = none := by
  revert c
  decide

theorem qualityOfCode_undefined {c : BitVec 4} (h : 9 ≤ c.toNat) : qualityOfCode c = none := by
  revert c
  decide

/-- R25: an ENTRY of a sender that is not PROBE is discarded. -/
theorem tableEntry_of_ne_probe {r : Role} (hr : r ≠ .probe) (b : EntryBody) (n : Fin 8) (a : State) : tableEntry b n r a = a := by
  cases r with
  | probe => exact absurd rfl hr
  | _ => rfl

/-- R151: an ENTRY of an undefined class is discarded. -/
theorem tableEntry_undefined {b : EntryBody} (h : 5 ≤ b.cls.toNat) (n : Fin 8) (r : Role) (a : State) : tableEntry b n r a = a := by
  unfold tableEntry
  rw [classOfCode_undefined h]
  cases r <;> rfl

/-- The record that an ENTRY frame of class `cls` carries. -/
def entryRecordOf (b : EntryBody) (cls : EntryClass) : EntryRecord :=
  { tag := b.tag, stamp := { page := pageOfBits b.page, digest := b.digest }, cls := cls, coarse := b.coarse }

theorem tableEntry_inRange {b : EntryBody} {cls : EntryClass} {a : State} (hc : b.cls = cls.code) (h : a.classify b.tag = .inRange) (n : Fin 8) :
    tableEntry b n .probe a = putEntryRecord (entryRecordOf b cls) a := by
  simp only [tableEntry, hc, classOfCode_code, h]
  rfl

theorem putEntryRecord_of_none {r : EntryRecord} {a : State} (h : a.entryOf r.tag = none) :
    putEntryRecord r a = addEntry { Entry.blank r.tag .none with stamp := some r.stamp, cls := some r.cls, coarse := r.coarse } a := by
  simp only [putEntryRecord, h]

theorem putEntryRecord_of_unclassed {r : EntryRecord} {a : State} {e : Entry} (h : a.entryOf r.tag = some e) (hc : e.cls = none) :
    putEntryRecord r a
      = modifyEntry r.tag (fun e => { e with stamp := some r.stamp, cls := some r.cls, coarse := r.coarse, assumedPage := false }) a := by
  simp only [putEntryRecord, h, if_pos hc]

theorem putEntryRecord_of_classed {r : EntryRecord} {a : State} {e : Entry} (h : a.entryOf r.tag = some e) (hc : e.cls ≠ none) :
    putEntryRecord r a = a := by
  simp only [putEntryRecord, h, if_neg hc]

/-- Settles O38. -/
theorem entryReceived : Obligations.EntryReceived := by
  unfold Obligations.EntryReceived
  refine ⟨activeSource_eq_some_iff, ?_⟩
  intro t h body n m s hr hrx hs hn a stamp
  obtain ⟨u, he, ht⟩ := record_tail (t := t) hr hrx hs hn (tableEntry body)
  have hrole : (a.peers[n]).role = (s.peers[n]).role := heardState_role hn
  have hfault : a.ctl.run = .fault ↔ s.ctl.run = .fault := heardState_fault_iff
  refine ⟨u, he, fun hd => ?discarded, fun cls hcls hrow hsrc hf hin => ?taken⟩
  case discarded =>
    rwa [fromActiveSource_leaves hs fun r hrow hsrc hf => ?_] at ht
    by_cases hprobe : r = .probe
    · subst hprobe
      rcases hd with hd | hd | hd | hd
      · exact absurd (hfault.mpr hd) hf
      · exact absurd (hrole.symm.trans hrow) hd
      · exact absurd hsrc hd
      · exact tableEntry_undefined hd n .probe _
    · exact tableEntry_of_ne_probe hprobe body n _
  case taken =>
    rw [fromActiveSource_eq (r := .probe) _ hs (hrole.trans hrow) hsrc (mt hfault.mp hf), tableEntry_inRange hcls hin] at ht
    refine ⟨fun hno => ?_, fun e hheld hc => ?_, fun e hheld hc => ?_⟩
    · rw [putEntryRecord_of_none (r := entryRecordOf body cls) hno] at ht
      refine ⟨ht, ?_⟩
      rw [entryOf_congr ht.table]
      exact entryOf_addEntry (e := { Entry.blank body.tag .none with stamp := some stamp, cls := some cls, coarse := body.coarse }) hno
    · rwa [putEntryRecord_of_unclassed (r := entryRecordOf body cls) hheld hc] at ht
    · rwa [putEntryRecord_of_classed (r := entryRecordOf body cls) hheld hc] at ht

/-! ### VALUE_RECEIVED (R20, R26, R32) -/

theorem slotOfRole_eq_some_iff (r : Role) (k : Slot) :
    slotOfRole r = some k ↔ (r = .precise ∧ k = .cold) ∨ (r = .retest ∧ k = .retest) ∨ (r = .thermal ∧ k = .hot) := by
  cases r <;> cases k <;> simp [slotOfRole]

/-- R20: PROBE and SORT, codes 0 and 4, have no slot. -/
theorem slotOfRole_none {r : Role} (h : r.code.toNat = 0 ∨ 4 ≤ r.code.toNat) : slotOfRole r = none := by
  revert h
  cases r <;> decide

/-- R26: a VALUE of a role without a slot is discarded. -/
theorem tableValue_no_slot {r : Role} (h : slotOfRole r = none) (b : ValueBody) (n : Fin 8) (a : State) : tableValue b n r a = a := by
  simp only [tableValue, h]

/-- R151: a VALUE of an undefined quality is discarded. -/
theorem tableValue_undefined {b : ValueBody} (h : 9 ≤ b.quality.toNat) (n : Fin 8) (r : Role) (a : State) : tableValue b n r a = a := by
  unfold tableValue
  rw [qualityOfCode_undefined h]
  cases slotOfRole r <;> rfl

theorem soundValue_iff (b : ValueBody) (q : Quality) : soundValue b q = true ↔ (b.deviation.isSome = true ↔ q = .good) := by
  rw [soundValue, beq_iff_eq, Bool.eq_iff_iff, beq_iff_eq]

theorem qualityOfCode_good_iff {c : BitVec 4} {q : Quality} (h : qualityOfCode c = some q) : q = .good ↔ c = 0 := by
  revert c
  cases q <;> decide

/-- R20: in range, a VALUE whose deviation does not fit its quality is discarded. -/
theorem tableValue_unsound {b : ValueBody} {a : State} (hin : a.classify b.tag = .inRange) (h : ¬(b.deviation.isSome = true ↔ b.quality = 0))
    (n : Fin 8) (r : Role) : tableValue b n r a = a := by
  unfold tableValue
  split
  · rename_i k q hk hq
    rw [hin]
    exact if_neg fun hsound => h (((soundValue_iff b q).mp hsound).trans (qualityOfCode_good_iff hq))
  · rfl

theorem tableValue_inRange {b : ValueBody} {q : Quality} {r : Role} {k : Slot} {a : State} (hk : slotOfRole r = some k) (hq : b.quality = q.code)
    (hsound : b.deviation.isSome = true ↔ q = .good) (hin : a.classify b.tag = .inRange) (n : Fin 8) :
    tableValue b n r a = putValue b.tag k (heldOf b n q) a := by
  simp only [tableValue, hk, hq, qualityOfCode_code, hin, if_pos ((soundValue_iff b q).mpr hsound)]

/-- R20, log entry 17: outside the hot slot a VALUE is held without TCR and TCR_ABSENT. -/
theorem heldOf_forSlot (b : ValueBody) (n : Fin 8) (q : Quality) (k : Slot) :
    (heldOf b n q).forSlot k
      = { source := n, quality := q, deviation := b.deviation, temperature := b.temperature
          flags := if k = .hot then b.flags else { b.flags with tcrAbsent := false }
          tcr := if k = .hot then b.tcr else none } := by
  cases k <;> rfl

theorem putValue_of_none {tag : BitVec 16} {k : Slot} {v : HeldValue} {a : State} (h : a.entryOf tag = none) :
    putValue tag k v a = addEntry ((Entry.blank tag .none).fillSlot k (v.forSlot k)) a := by
  simp only [putValue, h]

theorem putValue_of_held {tag : BitVec 16} {k : Slot} {v : HeldValue} {a : State} (h : (a.entryOf tag).isSome = true) :
    putValue tag k v a = modifyEntry tag (fun e => e.fillSlot k (v.forSlot k)) a := by
  obtain ⟨e, he⟩ := Option.isSome_iff_exists.mp h
  simp only [putValue, he]

/-- R32: the empty slot of a blank entry takes the record. -/
theorem fillSlot_blank (tag : BitVec 16) (st : OwnStage) (k : Slot) (v : HeldValue) :
    (Entry.blank tag st).fillSlot k v
      = match k with
        | .cold => { Entry.blank tag st with cold := some v }
        | .retest => { Entry.blank tag st with retest := some v }
        | .hot => { Entry.blank tag st with hot := some v } := by
  cases k <;> rfl

/-- Settles O39. -/
theorem valueReceived : Obligations.ValueReceived := by
  unfold Obligations.ValueReceived
  intro t h body n m s hr hrx hs hn a
  obtain ⟨u, he, ht⟩ := record_tail (t := t) hr hrx hs hn (tableValue body)
  have hrole : (a.peers[n]).role = (s.peers[n]).role := heardState_role hn
  have hfault : a.ctl.run = .fault ↔ s.ctl.run = .fault := heardState_fault_iff
  refine ⟨u, he, fun hd => ?discarded, fun hin hfit => ?unsound, fun q r k hq hfit hrk hrow hsrc hf hin => ?taken⟩
  case discarded =>
    rwa [fromActiveSource_leaves hs fun r hrow hsrc hf => ?_] at ht
    rcases hd with hd | hd | hd
    · exact absurd (hfault.mpr hd) hf
    · exact tableValue_undefined hd n r _
    · rcases hd r.code (hrole.symm.trans hrow) with hd | hd | hd
      · exact tableValue_no_slot (slotOfRole_none (.inl hd)) body n _
      · exact tableValue_no_slot (slotOfRole_none (.inr hd)) body n _
      · exact absurd hsrc hd
  case unsound =>
    rwa [fromActiveSource_leaves hs fun r _ _ _ => tableValue_unsound hin hfit n r] at ht
  case taken =>
    intro held put
    rw [fromActiveSource_eq (r := r) _ hs (hrole.trans hrow) hsrc (mt hfault.mp hf),
      tableValue_inRange ((slotOfRole_eq_some_iff r k).mpr hrk) hq hfit hin] at ht
    have hheld : (heldOf body n q).forSlot k = held := heldOf_forSlot body n q k
    refine ⟨fun hno => ?_, fun hsome => ?_⟩
    · have hblank : (Entry.blank body.tag .none).fillSlot k held = put (Entry.blank body.tag .none) := fillSlot_blank ..
      have htag : (put (Entry.blank body.tag .none)).tag = body.tag := by rw [← hblank, fillSlot_tag]; rfl
      rw [putValue_of_none hno, hheld, hblank] at ht
      refine ⟨ht, ?_⟩
      rw [entryOf_congr ht.table]
      have hadd := entryOf_addEntry (e := put (Entry.blank body.tag .none)) (by rw [htag]; exact hno)
      rwa [htag] at hadd
    · rw [putValue_of_held hsome, hheld] at ht
      exact ht

end Sys2Proof.Machine
end

section
/-! Refutes O10: like O9, it speaks of TXQ_OVERFLOW on a queue that holds more than the six frames of R145. -/

namespace Sys2Proof.Machine

/-- R145: where the station sends unit records, `IndexSends` sets TXQ_OVERFLOW on a queue above six frames even when no record is offered. -/
theorem IndexSends.overflow_of_long {t : Instant} {s u : State} (h : IndexSends t s [] u) (hw : s.work = Work.empty) (hs : SendsUnits s)
    (hlong : 6 < (agedQueue (advance t s)).length) : flagIn u.alerts.word .txqOverflow = true := by
  obtain ⟨more, -, -, -, -, hover, -⟩ := h hw
  exact hover hs hlong

/-- The station of `overfull` as PRECISE at position 0, whose memory of the entry last removed names page 0, which is LOCKED: the unit of tag 1 has no entry, and its measurement runs under that page. -/
def overfullPrecise : State :=
  let s := overfull (some 0)
  ((((s.withCtl { s.ctl with role := 1 }).withIdx { s.idx with retireLimit := some 0 }).withTable { entries := [], lastRemoved := some ⟨0, 0⟩ }).withPages
    (s.pages.set 0 { Page.cleared with state := .locked }))

/-- The station that an index event at instant 0 leaves of it. -/
def overfullPreciseIndexed : State := settle (indexEffect 0 (advance 0 overfullPrecise))

/-- Refutes O10: the UNIT measurement that starts offers no frame, and the queue of seven raises no TXQ_OVERFLOW. -/
theorem not_indexStartsUnit : ¬ Obligations.IndexStartsUnit := by
  unfold Obligations.IndexStartsUnit
  intro h
  obtain ⟨u, he, -, hlocked, -⟩ := h 0 0 overfullPrecise 0 .cold rfl (fun e he => by cases he) rfl rfl rfl rfl (Nat.zero_le _) rfl rfl
    (fun c0 hc => by cases hc) (.inl ⟨.inl rfl, fun e he => by cases he⟩)
  obtain rfl : overfullPreciseIndexed = u := by
    rw [exec_indexEvent rfl fun _ he => by cases he] at he
    exact Host.Outcome.next.inj he
  obtain ⟨-, -, -, -, -, -, -, hsends, -⟩ := hlocked ⟨0, 0⟩ rfl rfl
  have hset := IndexSends.overflow_of_long (s := overfullPrecise) hsends rfl ⟨rfl, .inl rfl⟩ (by decide)
  have hclear : flagIn overfullPreciseIndexed.alerts.word .txqOverflow = false := rfl
  exact absurd (hset.symm.trans hclear) (by decide)

end Sys2Proof.Machine
end

section
/-! Rounding half away from zero in the terms of the statements (00 "Rounding", R41, R65). -/

namespace Sys2Proof.Machine

theorem roundDiv_mag (n : Int) {d : Int} (hd : d ≠ 0) : (roundDiv n d).mag = roundedMag n d := by
  have hpos : 0 < d.natAbs := Int.natAbs_pos.mpr hd
  have hr : n.natAbs % d.natAbs < d.natAbs := Nat.mod_lt _ hpos
  have hsplit : 2 * n.natAbs + d.natAbs = 2 * (n.natAbs % d.natAbs) + d.natAbs + 2 * d.natAbs * (n.natAbs / d.natAbs) := by
    conv_lhs => rw [← Nat.div_add_mod n.natAbs d.natAbs]
    ring
  simp only [roundDiv, roundedMag]
  rw [hsplit, Nat.add_mul_div_left _ _ (by omega)]
  split
  · have hup : (2 * (n.natAbs % d.natAbs) + d.natAbs) / (2 * d.natAbs) = 1 := Nat.div_eq_of_lt_le (by omega) (by omega)
    rw [hup, Nat.add_comm]
  · have hdown : (2 * (n.natAbs % d.natAbs) + d.natAbs) / (2 * d.natAbs) = 0 := Nat.div_eq_of_lt (by omega)
    rw [hdown, Nat.zero_add]

theorem roundDiv_neg (n : Int) {d : Int} (hd : 0 < d) : (roundDiv n d).neg = decide (n < 0) := by
  rw [Bool.eq_iff_iff]
  simp [roundDiv]
  omega

theorem roundDiv_toInt (n : Int) {d : Int} (hd : 0 < d) : (roundDiv n d).toInt = rounded n d := by
  rw [SignMag.toInt, roundDiv_neg n hd, roundDiv_mag n hd.ne', rounded]
  rcases lt_trichotomy n 0 with h | rfl | h
  · simp [h, Int.sign_eq_neg_one_of_neg h]
  · simp [roundedMag, Nat.div_eq_of_lt (show d.natAbs < 2 * d.natAbs by omega)]
  · simp [h.le, Int.sign_eq_one_of_pos h]

/-- R65: a rounded quotient in the deviation form. -/
theorem roundDiv_toDev (n : Int) {d : Int} (hd : 0 < d) : (roundDiv n d).toDev = roundedDev n d := by
  rw [SignMag.toDev, roundDiv_neg n hd, roundDiv_mag n hd.ne', roundedDev]

/-- R41: the average over the kept conversions. -/
theorem phaseAverage_eq (sum : Int) {n : Nat} (hn : 0 < n) : phaseAverage sum n = rounded sum n := roundDiv_toInt sum (by omega)

/-- An integer in the deviation form is itself divided by 1. -/
theorem signMagOfInt_toDev (z : Int) : (signMagOfInt z).toDev = roundedDev z 1 := by
  have h : roundedMag z 1 = z.natAbs := by simp only [roundedMag, Int.natAbs_one]; omega
  rw [SignMag.toDev, roundedDev, h, signMagOfInt]

end Sys2Proof.Machine
end

section
/-! Settles O17, O18, O22 and O23: the timers of a sequence, the contact test that goes on, and the conversions of a phase (R40, R41, R49 to R53, R57). -/

namespace Sys2Proof.Machine

/-! ### The outputs of a running sequence (R40, R50, R57) -/

theorem pgiaFactor_table (g : BitVec 3) : pgiaFactor g = [1, 2, 4, 8, 16, 32, 64, 128].getD g.toNat 128 := by
  revert g; decide

theorem rangeCurrent_table (g : BitVec 3) : rangeCurrent g = [100000000, 10000000, 1000000, 100000, 10000, 1000, 100].getD g.toNat 100 := by
  revert g; decide

/-- R40, R50, R57: the outputs at the end of a command that leaves a sequence running. -/
theorem Tail.outputs {a u : State} {e : Engine} {c : Ctx} (ht : Tail (a.withEng e) u) (hr : a.resetHeld = false) (hc : e.ctx = some c) :
    u.contactOut = (testedPair c.kind c.state).map (fun pair => (pair, 1000000))
      ∧ u.pgiaOut = some ([1, 2, 4, 8, 16, 32, 64, 128].getD c.gain.toNat 128)
      ∧ (e.excitation = .off → u.excitationOut = none)
      ∧ (e.excitation ≠ .off →
          u.excitationOut = some (e.excitation, [100000000, 10000000, 1000000, 100000, 10000, 1000, 100].getD c.range.toNat 100)) := by
  have hheld : u.resetHeld = false := ht.resetHeld.trans hr
  have heng : u.eng = e := ht.eng
  rw [← pgiaFactor_table, ← rangeCurrent_table]
  refine ⟨by simp [State.contactOut, hheld, heng, hc], by simp [State.pgiaOut, hheld, heng, hc], fun hx => ?_, fun hx => ?_⟩
  · simp [State.excitationOut, hheld, heng, hx]
  · cases h : e.excitation with
    | off => exact absurd h hx
    | forward | reverse => simp [State.excitationOut, hheld, heng, hc, h]

/-! ### What each step does (R49 to R53) -/

/-- R41: the context with one more conversion kept. -/
def keptCtx (x std : BitVec 24) (c : Ctx) : Ctx :=
  { c with sums := ⟨c.sums.x + x.toInt, c.sums.s + std.toInt⟩, kept := c.kept + 1 }

section Steps

variable {t : Instant} {s : State} {c : Ctx} (hc : s.eng.ctx = some c) (hd : c.due ≤ max s.now t)

theorem setCtx_advance (c' : Ctx) : setCtx c' (advance t s) = (advance t s).withEng { s.eng with ctx := some c' } := by simp [setCtx]

theorem beginPhase_advance (x : Excitation) (st : SeqState) :
    beginPhase x st c (advance t s) = (advance t s).withEng { s.eng with excitation := x, ctx := some (phaseCtx (advance t s) st c) } := by
  simp [beginPhase, phaseCtx]

include hc hd

theorem endSettle_due (hst : c.state = .settle) :
    endSettle (advance t s) = (advance t s).withEng { s.eng with ctx := some { c with state := .contactA, due := max s.now t + us 200 } } := by
  rw [endSettle, stepEnded_some _ hc hd (by simp [hst])]
  simp [setCtx]

theorem endOffInterval_due (hst : c.state = .fwdWait) :
    endOffInterval (advance t s)
      = (advance t s).withEng { s.eng with excitation := .forward, ctx := some (phaseCtx (advance t s) .fwd c) } := by
  rw [endOffInterval, stepEnded_some _ hc hd (by simp [hst])]
  exact beginPhase_advance _ _

theorem endGap_due (hst : c.state = .gap) :
    endGap (advance t s) = (advance t s).withEng { s.eng with excitation := .reverse, ctx := some (phaseCtx (advance t s) .rev c) } := by
  rw [endGap, stepEnded_some _ hc hd (by simp [hst])]
  exact beginPhase_advance _ _

/-- R41: a conversion thrown away. -/
theorem endConversion_discards (x std : BitVec 24) (hst : c.state = .fwd ∨ c.state = .rev) (h0 : 0 < c.discards) :
    endConversion x std (advance t s)
      = (advance t s).withEng
          { s.eng with ctx := some { c with discards := c.discards - 1, due := max s.now t + 625 * 2 ^ s.ctl.items.osr } } := by
  rw [endConversion, stepEnded_some _ hc hd (by rcases hst with h | h <;> simp [h])]
  simp [h0, setCtx, conversionTime]

/-- R41: a conversion kept that is not the last of its phase. -/
theorem endConversion_sums {x std : BitVec 24} (hst : c.state = .fwd ∨ c.state = .rev) (h0 : c.discards = 0)
    (h1 : x ≠ 0x7FFFFF) (h2 : x ≠ 0x800000) (h3 : std ≠ 0x7FFFFF) (h4 : std ≠ 0x800000) (hk : c.kept + 1 < s.ctl.items.phaseAvg) :
    endConversion x std (advance t s)
      = (advance t s).withEng
          { s.eng with
            ctx := some
              { c with sums := ⟨c.sums.x + x.toInt, c.sums.s + std.toInt⟩, kept := c.kept + 1, due := max s.now t + 625 * 2 ^ s.ctl.items.osr } } := by
  rw [endConversion, stepEnded_some _ hc hd (by rcases hst with h | h <;> simp [h])]
  have hscale : (atFullScale x || atFullScale std) = false := by
    simp only [atFullScale, Bool.or_eq_false_iff, beq_eq_false_iff_ne]
    exact ⟨⟨h1, h2⟩, h3, h4⟩
  simp [h0, hk, hscale, setCtx, conversionTime]

theorem endContactTest_sideA (r : Nat) (hst : c.state = .contactA) :
    endContactTest r (advance t s)
      = (advance t s).withEng
          { s.eng with
            ctx := some { c with state := .contactB (decide (r < 100 * s.ctl.items.contactLimit)), due := max s.now t + us 200 } } := by
  rw [(endContactTest_eq r hc hd).1 hst, setCtx_advance, pairClosed, advance_ctl]

theorem endContactTest_closed {r : Nat} (hst : c.state = .contactB true) (hclosed : r < 100 * s.ctl.items.contactLimit) :
    endContactTest r (advance t s) = enterFwd c (advance t s) := by
  have hp : pairClosed (advance t s) r = true := by simpa [pairClosed] using hclosed
  rw [(endContactTest_eq r hc hd).2 true hst, hp]

/-- R41: the last kept conversion of a phase, with its rounded averages. -/
theorem endConversion_endsPhase {x std : BitVec 24} (hst : c.state = .fwd ∨ c.state = .rev) (h0 : c.discards = 0) (h1 : x ≠ 0x7FFFFF)
    (h2 : x ≠ 0x800000) (h3 : std ≠ 0x7FFFFF) (h4 : std ≠ 0x800000) (hlast : s.ctl.items.phaseAvg ≤ c.kept + 1) :
    endConversion x std (advance t s)
      = endPhase (keptCtx x std c)
          ⟨rounded (c.sums.x + x.toInt) (c.kept + 1), rounded (c.sums.s + std.toInt) (c.kept + 1)⟩ (advance t s) := by
  rw [endConversion_last hc hd hst h0 h1 h2 h3 h4 hlast, phaseAverage_eq _ c.kept.succ_pos, phaseAverage_eq _ c.kept.succ_pos]
  rfl

end Steps

/-- R51, R52: FWD ends, and a GAP follows. -/
theorem endPhase_toGap {t : Instant} {s : State} {c : Ctx} (hst : c.state = .fwd) (hk : c.kind ≠ .coarse) (hx : s.eng.excitation ≠ .off)
    (avg : Pair) :
    endPhase c avg (advance t s)
      = (advance t s).withEng
          { s.eng with
            excitation := .off, lastOff := some (max s.now t)
            ctx := some { c with state := .gap, fwd := some avg, due := max s.now t + us (10 * s.ctl.items.gap) } } := by
  simp [endPhase, hst, hk, turnOff, hx, setCtx]

/-- R53: REV ends, and the temperature sample follows. -/
theorem endPhase_toSampling {t : Instant} {s : State} {c : Ctx} (hst : c.state = .rev) (avg : Pair) :
    endPhase c avg (advance t s)
      = (advance t s).withEng { s.eng with ctx := some { c with state := .sampling, rev := some avg, due := max s.now t + us 250 } } := by
  rw [endPhase, if_pos hst, setCtx_advance, advance_now]

/-- R51, R57: FWD whose off interval has passed, or that follows no turn-off. -/
theorem enterFwd_driven {t : Instant} {s : State} (c : Ctx) (hoff : ∀ o, s.eng.lastOff = some o → o + us (10 * s.ctl.items.gap) ≤ max s.now t) :
    enterFwd c (advance t s)
      = (advance t s).withEng { s.eng with excitation := .forward, ctx := some (phaseCtx (advance t s) .fwd c) } := by
  rw [enterFwd, ← beginPhase_advance]
  cases ho : s.eng.lastOff with
  | none => simp [State.offUntil, ho]
  | some o =>
    have hover : ¬max s.now t < o + us (10 * s.ctl.items.gap) := Nat.not_lt.mpr (hoff o ho)
    simp only [State.offUntil, advance_eng, ho, Option.map_some, advance_now, advance_ctl, if_neg hover]

/-- R57: FWD within the off interval. -/
theorem enterFwd_waits {t : Instant} {s : State} (c : Ctx) {o : Instant} (ho : s.eng.lastOff = some o)
    (hlt : max s.now t < o + us (10 * s.ctl.items.gap)) :
    enterFwd c (advance t s)
      = (advance t s).withEng { s.eng with ctx := some { c with state := .fwdWait, due := o + us (10 * s.ctl.items.gap) } } := by
  rw [← setCtx_advance, enterFwd]
  simp only [State.offUntil, advance_eng, ho, Option.map_some, advance_now, advance_ctl, if_pos hlt]

/-! ### O17, O18, O22, O23 -/

/-- Settles O17, timer by timer. -/
theorem sequenceTimers : Obligations.SequenceTimers := by
  unfold Obligations.SequenceTimers
  intro t s c hr hc hd
  have ha : (advance t s).resetHeld = false := by rw [advance_resetHeld, hr]
  refine ⟨fun hst => ?settle, fun hst => ?offInterval, fun hst => ?gap⟩
  case settle =>
    obtain ⟨u, he, ht⟩ := event_tail t endSettle s hr
    rw [endSettle_due hc hd hst] at ht
    obtain ⟨hcontact, hpgia, hoff, -⟩ := ht.outputs ha rfl
    exact ⟨u, he, ht, hcontact, hpgia, hoff⟩
  case offInterval =>
    obtain ⟨u, he, ht⟩ := event_tail t endOffInterval s hr
    rw [endOffInterval_due hc hd hst] at ht
    obtain ⟨hcontact, hpgia, -, hon⟩ := ht.outputs ha rfl
    exact ⟨u, he, ht, hcontact, hpgia, hon (by simp)⟩
  case gap =>
    obtain ⟨u, he, ht⟩ := event_tail t endGap s hr
    rw [endGap_due hc hd hst] at ht
    obtain ⟨hcontact, hpgia, -, hon⟩ := ht.outputs ha rfl
    exact ⟨u, he, ht, hcontact, hpgia, hon (by simp)⟩

/-- Settles O18: side A, and side B with both pairs closed, whose FWD starts at once or waits. -/
theorem contactTestSides : Obligations.ContactTestSides := by
  unfold Obligations.ContactTestSides
  intro t r s c hr hc hd
  have ha : (advance t s).resetHeld = false := by rw [advance_resetHeld, hr]
  obtain ⟨u, he, ht⟩ := event_tail t (endContactTest r) s hr
  refine ⟨fun hst => ?sideA, fun hst hclosed hoff => ?driven, fun o hst hclosed ho hlt => ?waits⟩
  case sideA =>
    rw [endContactTest_sideA hc hd r hst] at ht
    obtain ⟨hcontact, -⟩ := ht.outputs ha rfl
    exact ⟨u, he, ht, hcontact⟩
  case driven =>
    rw [endContactTest_closed hc hd hst hclosed, enterFwd_driven c hoff] at ht
    obtain ⟨hcontact, -, -, hon⟩ := ht.outputs ha rfl
    exact ⟨u, he, ht, hcontact, hon (by simp)⟩
  case waits =>
    rw [endContactTest_closed hc hd hst hclosed, enterFwd_waits c ho hlt] at ht
    obtain ⟨hcontact, -, hoff, -⟩ := ht.outputs ha rfl
    exact ⟨u, he, ht, hcontact, hoff⟩

/-- Settles O22: a conversion thrown away, and one kept. -/
theorem conversionCounts : Obligations.ConversionCounts := by
  unfold Obligations.ConversionCounts
  intro t x std s c hr hc hd hst
  obtain ⟨u, he, ht⟩ := event_tail t (endConversion x std) s hr
  refine ⟨fun h0 => ⟨u, he, ?discarded⟩, fun h0 h1 h2 h3 h4 hk => ⟨u, he, ?kept⟩⟩
  case discarded => rwa [endConversion_discards hc hd x std hst h0] at ht
  case kept => rwa [endConversion_sums hc hd hst h0 h1 h2 h3 h4 hk] at ht

/-- Settles O23: the end of FWD, and the end of REV. -/
theorem phaseEnds : Obligations.PhaseEnds := by
  unfold Obligations.PhaseEnds
  intro t x std s c hr hc hd h0 h1 h2 h3 h4 hlast
  obtain ⟨u, he, ht⟩ := event_tail t (endConversion x std) s hr
  refine ⟨fun hst hk hx => ⟨u, he, ?forward⟩, fun hst => ⟨u, he, ?reverse⟩⟩
  case forward =>
    rw [endConversion_endsPhase hc hd (.inl hst) h0 h1 h2 h3 h4 hlast, endPhase_toGap (c := keptCtx x std c) hst hk (by simp [hx])] at ht
    exact ht
  case reverse =>
    rw [endConversion_endsPhase hc hd (.inr hst) h0 h1 h2 h3 h4 hlast, endPhase_toSampling (c := keptCtx x std c) hst] at ht
    exact ht

end Sys2Proof.Machine
end

section
/-! What the endings of a measurement leave, and what is sent (R50, R54 to R59, R66). -/

namespace Sys2Proof.Machine

/-! ### What the end of a sequence leaves -/

@[simp] theorem afterSequence_table (a : State) : (afterSequence a).table = a.table := rfl
@[simp] theorem afterSequence_drift (a : State) : (afterSequence a).drift = a.drift := rfl
@[simp] theorem afterSequence_pages (a : State) : (afterSequence a).pages = a.pages := rfl
@[simp] theorem afterSequence_link (a : State) : (afterSequence a).link = a.link := rfl
@[simp] theorem afterSequence_ctl (a : State) : (afterSequence a).ctl = a.ctl := rfl
@[simp] theorem afterSequence_work (a : State) : (afterSequence a).work = a.work := rfl

@[simp] theorem ownValue_ctl (k : Slot) (r : ValueRecord) (b : State) : (ownValue k r b).ctl = b.ctl := (ownValue_keeps k r b).1
@[simp] theorem ownValue_link (k : Slot) (r : ValueRecord) (b : State) : (ownValue k r b).link = b.link := (ownValue_keeps k r b).2.1
@[simp] theorem ownValue_work (k : Slot) (r : ValueRecord) (b : State) : (ownValue k r b).work = b.work := (ownValue_keeps k r b).2.2
@[simp] theorem ownEntry_ctl (r : EntryRecord) (b : State) : (ownEntry r b).ctl = b.ctl := (ownEntry_keeps r b).1
@[simp] theorem ownEntry_link (r : EntryRecord) (b : State) : (ownEntry r b).link = b.link := (ownEntry_keeps r b).2.1
@[simp] theorem ownEntry_work (r : EntryRecord) (b : State) : (ownEntry r b).work = b.work := (ownEntry_keeps r b).2.2

theorem raiseIf_true (f : AlertFlag) (s : State) : raiseIf true f s = raise f s := rfl

theorem raiseIf_false (f : AlertFlag) (s : State) : raiseIf false f s = s := rfl

theorem raiseIf_decide (p : Prop) [Decidable p] (f : AlertFlag) (s : State) : raiseIf (decide p) f s = if p then raise f s else s := by
  simp [raiseIf]

/-- Kind and tag of the context, role, count, retire limit and table decide whether a UNIT measurement has its entry. -/
theorem UnitRun.congr {a b : State} {c d : Ctx} {k : Slot} (hctl : b.ctl = a.ctl) (hcount : b.idx.count = a.idx.count)
    (hlimit : b.idx.retireLimit = a.idx.retireLimit) (htable : b.table = a.table) (hkind : d.kind = c.kind) (htag : d.tag = c.tag)
    (h : UnitRun a c k) : UnitRun b d k := by
  obtain ⟨hk, hslot, hentry⟩ := h
  refine ⟨hkind.trans hk, by simpa only [State.role, hctl] using hslot, ?_⟩
  rw [htag, classify_congr hcount hlimit]
  simpa only [State.entryOf, htable] using hentry

/-! ### A command that sends one record (R145) -/

/-- R145: a command whose whole effect `Y` ends in one unit record leaves `Y` but for its tail, and the record in a queue that has room. -/
theorem event_sends_record {t : Instant} {s X Y : State} {f : QFrame} {body : State → State} (hr : s.resetHeld = false)
    (hbody : body (advance t s) = Y) (hY : Y = offerUnit f X) (hctl : X.ctl = s.ctl) (hlink : X.link = (advance t s).link)
    (hunits : X.work.units = s.work.units) (hf : f.isUnit = true) :
    ∃ u, event t body s = .next u ∧ Tail Y u ∧ (SendsUnits s → HasRoom 1 (advance t s) → Queued (advance t s) [f] u) := by
  obtain ⟨u, he, ht⟩ := event_tail t body s hr
  subst hY
  exact ⟨u, he, tail_of_unit_record body hbody he ht hr hctl hlink hunits hf⟩

/-! ### Early endings (R50, R58, R59) -/

/-- R50: the ending of a contact test that does not find both pairs closed. -/
def contactEnding (first second : Bool) : Ending := if first || second then .contactOne else .contactBoth

@[simp] theorem contactEnding_quality (first second : Bool) : (contactEnding first second).quality = .contact := by
  cases first <;> cases second <;> rfl

theorem contactEnding_entryClass (first second : Bool) :
    (contactEnding first second).entryClass = (if first || second then .contact else .empty, none) := by
  cases first <;> cases second <;> rfl

section Endings

variable {t : Instant} {s : State} {c : Ctx} (hc : s.eng.ctx = some c)
include hc

theorem endContactTest_open (hd : c.due ≤ max s.now t) {r : Nat} {first : Bool} (hst : c.state = .contactB first)
    (hopen : first = false ∨ 100 * s.ctl.items.contactLimit ≤ r) :
    endContactTest r (advance t s) = endEarly (contactEnding first (decide (r < 100 * s.ctl.items.contactLimit))) c (advance t s) := by
  rw [(endContactTest_eq r hc hd).2 first hst, pairClosed, advance_ctl]
  by_cases hclosed : r < 100 * s.ctl.items.contactLimit
  · obtain rfl : first = false := hopen.resolve_right (by omega)
    simp [hclosed, contactEnding]
  · cases first <;> simp [hclosed, contactEnding]

theorem expireLimit_due (hd : c.limitDue ≤ max s.now t) : expireLimit (advance t s) = raise .measTimeout (timeOut c (advance t s)) := by
  simp only [expireLimit, advance_eng, hc, advance_now, if_pos hd]

/-- R59: MEAS_LIMIT before the temperature conversion has ended. -/
theorem expireLimit_early (hd : c.limitDue ≤ max s.now t) (hst : c.state ≠ .sampling ∨ max s.now t < c.due) :
    expireLimit (advance t s) = raise .measTimeout (endEarly .timeout c (advance t s)) := by
  rw [expireLimit_due hc hd, timeOut_early (by simpa using hst)]

/-- R54, R59: MEAS_LIMIT after it: a reading is found. -/
theorem expireLimit_late (hd : c.limitDue ≤ max s.now t) (hst : c.state = .sampling) (hdue : c.due ≤ max s.now t) :
    expireLimit (advance t s)
      = raise .measTimeout
          (endEarly .timeout (withReading ((Config.freeBits s.freeDraws).extractLsb' 0 12) c)
            (raiseIf ((Config.freeBits s.freeDraws).extractLsb' 0 12 == (4095 : BitVec 12)) .tempFault
              ((advance t s).withFreeDraws (s.freeDraws + 1)))) := by
  rw [expireLimit_due hc hd, timeOut_late hst (by simpa using hdue), advance_freeDraws]

/-- R53 to R55: the temperature conversion ends with the release step. -/
theorem endTemperature_due (hd : c.due ≤ max s.now t) (hst : c.state = .sampling) {f v : Pair} (hf : c.fwd = some f) (hv : c.rev = some v)
    (reading : BitVec 12) :
    endTemperature reading (advance t s)
      = computeRelease (withReading reading c) f v (raiseIf (reading == 4095) .tempFault (afterSequence (advance t s))) := by
  rw [endTemperature, stepEnded_some _ hc hd (by simp [hst])]
  simp [hf, hv, closeSequence_eq]

end Endings

end Sys2Proof.Machine
end

section
/-! Settles O19 and O25: the endings of a UNIT measurement (R50, R53 to R55, R58, R59, R66). -/

namespace Sys2Proof.Machine

/-- R66: an early ending as its context stands. -/
theorem endEarly_unit_advance {t : Instant} {s : State} {c : Ctx} {k : Slot} (hu : UnitRun s c k) (e : Ending) :
    endEarly e c (advance t s)
      = offerUnit (.value (endedRecord s c e.quality)) (ownValue k (endedRecord s c e.quality) (afterSequence (advance t s))) := by
  rw [endEarly_unit (hu.advance t), endedRecord_congr (show (advance t s).ctl.role = s.ctl.role by simp)]

/-- R54, R59: the record of a TIMEOUT that has found a reading: an open sensor sets TEMP_ABSENT. -/
theorem endedRecord_withReading {a b : State} (h : b.ctl.role = a.ctl.role) (reading : BitVec 12) (c : Ctx) (q : Quality) :
    endedRecord b (withReading reading c) q = endedRecord a { c with tempAbsent := c.tempAbsent || reading == 4095 } q := by
  obtain ⟨-, htag, -, hassumed, htemp⟩ := withReading_keeps reading c
  simp only [endedRecord, State.role, h, htag, hassumed, htemp]

/-- R54: a reading leaves a UNIT measurement one. -/
theorem UnitRun.withReading {s : State} {c : Ctx} {k : Slot} (h : UnitRun s c k) (reading : BitVec 12) : UnitRun s (withReading reading c) k := by
  obtain ⟨hkind, htag, -⟩ := withReading_keeps reading c
  exact h.congr rfl rfl rfl rfl hkind htag

/-- Settles O19, ending by ending. -/
theorem unitEndsEarly : Obligations.UnitEndsEarly := by
  unfold Obligations.UnitEndsEarly
  intro t s c k hr hc hu
  refine ⟨fun r first hst hd hopen => ?contact, fun x std hst hd h0 hfull => ?overload, fun hl hst => ?limit, fun hl hst hd => ?limitLate⟩
  case contact =>
    have hbody := endContactTest_open hc hd hst hopen
    rw [endEarly_unit_advance hu, contactEnding_quality] at hbody
    exact event_sends_record hr hbody rfl (by simp) (by simp) (by simp) rfl
  case overload =>
    have hbody := endConversion_overload x std hc hd hst h0 hfull
    rw [endEarly_unit_advance hu] at hbody
    exact event_sends_record hr hbody (raise_offerUnit _ _ _) (by simp) (by simp) (by simp) rfl
  case limit =>
    have hbody := expireLimit_early hc hl hst
    rw [endEarly_unit_advance hu] at hbody
    exact event_sends_record hr hbody (raise_offerUnit _ _ _) (by simp) (by simp) (by simp) rfl
  case limitLate =>
    have hbody := expireLimit_late hc hl hst hd
    have hrun : UnitRun s (withReading ((Config.freeBits s.freeDraws).extractLsb' 0 12) c) k := hu.withReading _
    rw [endEarly_unit (hrun.congr (by simp) (by simp) (by simp) (by simp) rfl rfl), endedRecord_withReading (a := s) (by simp)] at hbody
    exact event_sends_record hr hbody (raise_offerUnit _ _ _) (by simp) (by simp) (by simp) rfl

/-- R55, R68: COMPUTE of a UNIT measurement that reached its release step. -/
theorem computeRelease_unit {s : State} {c : Ctx} {k : Slot} (hu : UnitRun s c k) (f v : Pair) :
    computeRelease c f v s
      = offerUnit (.value (completedRecord s c f v).1)
          (ownValue k (completedRecord s c f v).1 (raiseIf (decide (f.s - v.s < s.ctl.items.minStd * 4096)) .stdLow s)) := by
  have hlow : UnitRun (raiseIf (completedRecord s c f v).2 .stdLow s) c k := hu.congr (by simp) (by simp) (by simp) (by simp) rfl rfl
  obtain ⟨hkind, hslot, hentry⟩ := hlow
  rw [computeRelease, hkind]
  dsimp only
  rw [deliverValue_own k _ _ (by rw [completedRecord_tag]; exact hentry) hslot, completedRecord_low]

/-- Settles O25. -/
theorem temperatureSampleEnds : Obligations.TemperatureSampleEnds := by
  unfold Obligations.TemperatureSampleEnds
  intro t reading s c k f v hr hc hu hst hd hf hv
  have hbody := endTemperature_due hc hd hst hf hv reading
  have hrun : UnitRun (raiseIf (reading == 4095) .tempFault (afterSequence (advance t s))) (withReading reading c) k :=
    (hu.withReading reading).congr (by simp) (by simp [afterSequence]) (by simp [afterSequence]) (by simp) rfl rfl
  rw [computeRelease_unit hrun, completedRecord_congr (s := advance t s) _ _ _ (by simp) (by simp) (by simp) (by simp)] at hbody
  simp only [raiseIf_ctl, afterSequence_ctl, advance_ctl] at hbody
  simp only [← raiseIf_decide]
  exact event_sends_record hr hbody rfl (by simp) (by simp) (by simp) rfl

end Sys2Proof.Machine
end

section
/-! Settles O20 and O24: the endings of a COARSE measurement (R50, R55, R56, R58, R59, R81, R82). -/

namespace Sys2Proof.Machine

/-! ### The coarse value (R81, R82) -/

theorem coarseValue_eq {f : Pair} (h : 0 < f.s) :
    coarseValue f = ⟨decide ((f.x - f.s) * 10000 < 0), BitVec.ofNat 11 (min 2047 (roundedMag ((f.x - f.s) * 10000) f.s))⟩ := by
  simp only [coarseValue, roundDiv_neg _ h, roundDiv_mag _ h.ne']

/-- R82: Sf below its limit. -/
theorem coarseOutcome_low {m : Nat} {f : Pair} (h : f.s < m * 4096) (gross : BitVec 11) :
    coarseOutcome m gross f = if 0 ≤ f.x - f.s then (.grossHigh, ⟨false, 2047⟩, true) else (.grossLow, ⟨true, 2047⟩, true) :=
  if_pos (by push_cast; exact h)

/-- R82: the class by the coarse value and GROSS. -/
theorem coarseOutcome_pass {m : Nat} {f : Pair} (h : (m : Int) * 4096 ≤ f.s) (gross : BitVec 11) :
    coarseOutcome m gross f
      = (if (coarseValue f).mag.toNat ≤ gross.toNat then .present else if (coarseValue f).neg then .grossLow else .grossHigh, coarseValue f,
          false) := by
  rw [coarseOutcome, if_neg (by push_cast; omega)]
  by_cases hg : (coarseValue f).mag.toNat ≤ gross.toNat
  · simp [hg, Nat.not_lt.mpr hg]
  · cases hn : (coarseValue f).neg <;> simp [hg, Nat.lt_of_not_le hg, hn]

/-! ### The endings -/

theorem CoarseRun.congr {a b : State} {c d : Ctx} (hcount : b.idx.count = a.idx.count) (hlimit : b.idx.retireLimit = a.idx.retireLimit)
    (htable : b.table = a.table) (hkind : d.kind = c.kind) (htag : d.tag = c.tag) (h : CoarseRun a c) : CoarseRun b d := by
  obtain ⟨hk, hentry⟩ := h
  refine ⟨hkind.trans hk, ?_⟩
  rw [htag, classify_congr hcount hlimit]
  simpa only [State.entryOf, htable] using hentry

/-- R55, R81, R82: COMPUTE of a COARSE measurement whose FWD completed. -/
theorem computeCoarse_own {s : State} {c : Ctx} (hu : CoarseRun s c) {f : Pair} {cls : EntryClass} {v : Coarse} {low : Bool}
    (ho : coarseOutcome s.ctl.items.minStd (s.page c.stamp.page).gross f = (cls, v, low)) :
    computeCoarse c f s
      = offerUnit (.entry { tag := c.tag, stamp := c.stamp, cls := cls, coarse := some v })
          (ownEntry { tag := c.tag, stamp := c.stamp, cls := cls, coarse := some v } (raiseIf low .stdLow s)) := by
  obtain ⟨-, hentry⟩ : CoarseRun (raiseIf low .stdLow s) c := hu.congr (by simp) (by simp) (by simp) rfl rfl
  rw [computeCoarse, ho]
  exact deliverEntry_own _ _ hentry

/-- R51, R55, R56: FWD ends, and with it a COARSE measurement. -/
theorem endPhase_coarse {t : Instant} {s : State} {c : Ctx} (hst : c.state = .fwd) (hu : CoarseRun s c) {avg : Pair} {cls : EntryClass}
    {v : Coarse} {low : Bool} (ho : coarseOutcome s.ctl.items.minStd (s.pages[c.stamp.page]).gross avg = (cls, v, low)) :
    endPhase c avg (advance t s)
      = offerUnit (.entry { tag := c.tag, stamp := c.stamp, cls := cls, coarse := some v })
          (ownEntry { tag := c.tag, stamp := c.stamp, cls := cls, coarse := some v } (raiseIf low .stdLow (afterSequence (advance t s)))) := by
  rw [endPhase, if_neg (by simp [hst]), if_pos hu.1, closeSequence_eq]
  refine computeCoarse_own (hu.congr (by simp [afterSequence]) (by simp [afterSequence]) (by simp) rfl rfl) ?_
  simpa [State.page] using ho

/-- R56: an early ending as its context stands. -/
theorem endEarly_coarse_advance {t : Instant} {s : State} {c : Ctx} (hu : CoarseRun s c) {e : Ending} {cls : EntryClass} {v : Option Coarse}
    (he : e.entryClass = (cls, v)) :
    endEarly e c (advance t s)
      = offerUnit (.entry { tag := c.tag, stamp := c.stamp, cls := cls, coarse := v })
          (ownEntry { tag := c.tag, stamp := c.stamp, cls := cls, coarse := v } (afterSequence (advance t s))) := by
  rw [endEarly_coarse (hu.advance t), he]

/-- Settles O20, ending by ending. -/
theorem coarseEndsEarly : Obligations.CoarseEndsEarly := by
  unfold Obligations.CoarseEndsEarly
  intro t s c hr hc hu
  refine ⟨fun r first cls hst hd hends => ?contact, fun x std cls v hst hd h0 hfull => ?overload, fun hl hst => ?limit⟩
  case contact =>
    have hopen : first = false ∨ 100 * s.ctl.items.contactLimit ≤ r := by tauto
    have hcls : (contactEnding first (decide (r < 100 * s.ctl.items.contactLimit))).entryClass = (cls, none) := by
      rw [contactEnding_entryClass]
      rcases hends with ⟨rfl, hlim, rfl⟩ | ⟨rfl, hlim, rfl⟩ | ⟨rfl, hlim, rfl⟩
      · simp [Nat.not_lt.mpr hlim]
      · simp [hlim]
      · simp
    have hbody := endContactTest_open hc hd hst hopen
    rw [endEarly_coarse_advance hu hcls] at hbody
    exact event_sends_record hr hbody rfl (by simp) (by simp) (by simp) rfl
  case overload =>
    have hscale : x = 0x7FFFFF ∨ x = 0x800000 ∨ std = 0x7FFFFF ∨ std = 0x800000 := by tauto
    have hcls : (Ending.overload (x == 0x7FFFFF#24)).entryClass = (cls, some v) := by
      rcases hfull with ⟨rfl, rfl, rfl⟩ | ⟨hx, -, rfl, rfl⟩
      · rfl
      · rw [show (x == 0x7FFFFF#24) = false from beq_false_of_ne hx]
        rfl
    have hbody := endConversion_overload x std hc hd hst h0 hscale
    rw [endEarly_coarse_advance hu hcls] at hbody
    exact event_sends_record hr hbody (raise_offerUnit _ _ _) (by simp) (by simp) (by simp) rfl
  case limit =>
    have hbody := expireLimit_early hc hl (.inl hst)
    rw [endEarly_coarse_advance hu rfl] at hbody
    exact event_sends_record hr hbody (raise_offerUnit _ _ _) (by simp) (by simp) (by simp) rfl

/-- Settles O24: a standard below its limit, and a coarse value. -/
theorem coarseCompletes : Obligations.CoarseCompletes := by
  unfold Obligations.CoarseCompletes
  intro t x std s c hr hc hd h0 h1 h2 h3 h4 hlast hu hst a f record gross n v
  have hends {cls : EntryClass} {v : Coarse} {low : Bool}
      (ho : coarseOutcome s.ctl.items.minStd (s.pages[c.stamp.page]).gross f = (cls, v, low)) :
      endConversion x std (advance t s)
        = offerUnit (.entry (record cls v)) (ownEntry (record cls v) (raiseIf low .stdLow (afterSequence (advance t s)))) := by
    rw [endConversion_endsPhase hc hd (.inl hst) h0 h1 h2 h3 h4 hlast]
    exact endPhase_coarse (c := keptCtx x std c) hst hu ho
  refine ⟨fun hlow => ?low, fun hpass hpos => ?value⟩
  case low =>
    have ho := coarseOutcome_low (f := f) hlow (s.pages[c.stamp.page]).gross
    by_cases hx : 0 ≤ f.x - f.s
    · rw [if_pos hx] at ho
      have hbody := hends ho
      rw [raiseIf_true] at hbody
      rw [if_pos hx]
      exact event_sends_record hr hbody rfl (by simp [a]) (by simp [a]) (by simp [a]) rfl
    · rw [if_neg hx] at ho
      have hbody := hends ho
      rw [raiseIf_true] at hbody
      rw [if_neg hx]
      exact event_sends_record hr hbody rfl (by simp [a]) (by simp [a]) (by simp [a]) rfl
  case value =>
    have ho := coarseOutcome_pass (f := f) hpass (s.pages[c.stamp.page]).gross
    rw [show coarseValue f = v from coarseValue_eq (f := f) hpos] at ho
    have hbody := hends ho
    rw [raiseIf_false] at hbody
    exact event_sends_record hr hbody rfl (by simp [a]) (by simp [a]) (by simp [a]) rfl

end Sys2Proof.Machine
end

section
/-! Settles O21: the endings of a CHECK measurement, and the drift slot (R58, R59, R64, R69, R90 to R93). -/

namespace Sys2Proof.Machine

/-! ### Stages A and B, and the samples (R67, R68, R91 to R93) -/

theorem stageB_stdLow {m : Nat} {a : Reversal} (h : a.ss < m * 4096) : stageB m a = .stdLow := if_pos (by push_cast; exact h)

theorem stageB_polarity {m : Nat} {a : Reversal} (hs : (m : Int) * 4096 ≤ a.ss) (hx : a.sx ≤ 0) : stageB m a = .polarity := by
  rw [stageB, if_neg (by push_cast; omega), if_pos hx]

theorem stageB_pass {m : Nat} {a : Reversal} (hs : (m : Int) * 4096 ≤ a.ss) (hx : 0 < a.sx) : stageB m a = .pass := by
  rw [stageB, if_neg (by push_cast; omega), if_neg (by omega)]

/-- R91: the first check is the baseline. -/
theorem acceptCheck_first (x : Dev) {d : DriftSlot} (h : d.baseline = none) :
    acceptCheck x d = { baseline := some x, ring := [⟨false, 0⟩], staleness := 0 } := by
  rw [acceptCheck, h]
  rfl

/-- R92: a later check is a sample of its distance from the baseline. -/
theorem acceptCheck_later (x : Dev) {d : DriftSlot} {base : Dev} (h : d.baseline = some base) :
    acceptCheck x d
      = { baseline := some base
          ring := if 4 < (d.ring ++ [roundedDev (x.toInt - base.toInt) 1]).length then (d.ring ++ [roundedDev (x.toInt - base.toInt) 1]).tail
            else d.ring ++ [roundedDev (x.toInt - base.toInt) 1]
          staleness := 0 } := by
  rw [acceptCheck, h, ← signMagOfInt_toDev]

theorem driftK_nil : driftK [] = none := rfl

/-- R93: the rounded mean. -/
theorem driftK_mean {ring : List Dev} (h : ring ≠ []) : driftK ring = some (roundedDev (ring.map Dev.toInt).sum ring.length) := by
  have hpos : (0 : Int) < ring.length := by
    have := List.length_pos_iff.mpr h
    omega
  rw [driftK, if_neg (by simpa using h), roundDiv_toDev _ hpos]

/-! ### The endings -/

/-- R90: a CHECK measurement that reached its release step, by what Stage B finds. -/
theorem computeRelease_check {s : State} {c : Ctx} (hk : c.kind = .check) (f v : Pair) (reading : BitVec 12) :
    computeRelease (withReading reading c) f v s = setStage c.tag .done (deliverCheck (withReading reading c) f v s) := by
  obtain ⟨hkind, htag, -⟩ := withReading_keeps reading c
  rw [computeRelease, hkind, hk, htag]

theorem deliverCheck_stdLow {s : State} {f v : Pair} (h : f.s - v.s < s.ctl.items.minStd * 4096) (c : Ctx) :
    deliverCheck c f v s = raise .stdLow s := by
  simp only [deliverCheck, stageB_stdLow (a := stageA f v) h]

theorem deliverCheck_polarity {s : State} {f v : Pair} (hs : (s.ctl.items.minStd : Int) * 4096 ≤ f.s - v.s) (hx : f.x - v.x ≤ 0) (c : Ctx) :
    deliverCheck c f v s = s := by
  simp only [deliverCheck, stageB_polarity (a := stageA f v) hs hx]

theorem deliverCheck_pass {s : State} {f v : Pair} (hs : (s.ctl.items.minStd : Int) * 4096 ≤ f.s - v.s) (hpos : 0 < f.s - v.s)
    (hx : 0 < f.x - v.x) (c : Ctx) :
    deliverCheck c f v s
      = s.withDrift
          (s.drift.set c.slot (acceptCheck (roundedDev ((f.x - v.x - (f.s - v.s)) * 10000000) (f.s - v.s)) s.drift[c.slot])) := by
  simp only [deliverCheck, stageB_pass (a := stageA f v) hs hx]
  rw [stageC, roundDiv_toDev _ (show 0 < (stageA f v).ss from hpos)]
  rfl

/-- Settles O21, ending by ending. -/
theorem checkEnds : Obligations.CheckEnds := by
  unfold Obligations.CheckEnds
  intro t s c hr hc hk a done
  refine ⟨fun r first hst hd hopen => ?contact, fun x std hst hd h0 hfull => ?overload, fun hl hst => ?limit, fun hl hst hd => ?limitLate,
    fun reading f v hst hd hf hv => ?completed, driftK_nil, fun ring => driftK_mean⟩
  case contact =>
    obtain ⟨u, he, ht⟩ := event_tail t (endContactTest r) s hr
    rw [endContactTest_open hc hd hst hopen, endEarly_check hk] at ht
    exact ⟨u, he, ht⟩
  case overload =>
    obtain ⟨u, he, ht⟩ := event_tail t (endConversion x std) s hr
    rw [endConversion_overload x std hc hd hst h0 hfull, endEarly_check hk] at ht
    exact ⟨u, he, ht⟩
  case limit =>
    obtain ⟨u, he, ht⟩ := event_tail t expireLimit s hr
    rw [expireLimit_early hc hl hst, endEarly_check hk] at ht
    exact ⟨u, he, ht⟩
  case limitLate =>
    obtain ⟨u, he, ht⟩ := event_tail t expireLimit s hr
    obtain ⟨hkind, htag, -⟩ := withReading_keeps ((Config.freeBits s.freeDraws).extractLsb' 0 12) c
    rw [expireLimit_late hc hl hst hd, endEarly_check (hkind.trans hk), htag] at ht
    exact ⟨u, he, ht⟩
  case completed =>
    intro b
    obtain ⟨-, -, hslot, -⟩ := withReading_keeps reading c
    have hitems : b.ctl.items = s.ctl.items := by simp [b, a]
    obtain ⟨u, he, ht⟩ := event_tail t (endTemperature reading) s hr
    rw [endTemperature_due hc hd hst hf hv, computeRelease_check hk] at ht
    refine ⟨u, he, fun hlow => ?stdLow, fun hs hx => ?polarity, fun hs hpos hx => ?pass⟩
    case stdLow => rwa [deliverCheck_stdLow (by rw [hitems]; exact hlow)] at ht
    case polarity => rwa [deliverCheck_polarity (by rw [hitems]; exact hs) hx] at ht
    case pass =>
      rw [deliverCheck_pass (by rw [hitems]; exact hs) hpos hx] at ht
      simp only [hslot, raiseIf_drift, afterSequence_drift, advance_drift] at ht
      refine ⟨fun hnone => ?first, fun base hbase => ?later⟩
      case first => rwa [acceptCheck_first _ hnone] at ht
      case later => rwa [acceptCheck_later _ hbase] at ht

end Sys2Proof.Machine
end

section
/-! Refutes O11 and O12: like O9 and O10, they speak of TXQ_OVERFLOW on a queue that holds more than the six frames of R145. -/

namespace Sys2Proof.Machine

/-- Refutes O12: the station of `overfull` without a POSITION takes no work and offers no frame, and its queue of seven raises no TXQ_OVERFLOW. -/
theorem not_indexWithoutWork : ¬ Obligations.IndexWithoutWork := by
  unfold Obligations.IndexWithoutWork
  intro h
  obtain ⟨u, he, -, -, -, hsends⟩ := h 0 0 (overfull none) rfl (fun e he => by cases he) (.inr (.inr rfl))
  obtain rfl : overfullIndexed none = u := by
    rw [exec_overfull] at he
    exact Host.Outcome.next.inj he
  exact not_indexSends_overfull none (.inl rfl) (hsends (by decide))

/-- The station of `overfull` as RETEST at position 0 with an empty Unit Table: the unit of tag 1 has no entry, so it takes no work (R46). -/
def overfullRetest : State :=
  let s := overfull (some 0)
  (s.withCtl { s.ctl with role := 2 }).withIdx { s.idx with retireLimit := some 0 }

/-- The station that an index event at instant 0 leaves of it. -/
def overfullRetestIndexed : State := settle (indexEffect 0 (advance 0 overfullRetest))

/-- Refutes O11: RETEST without an entry offers no frame, and the queue of seven raises no TXQ_OVERFLOW. -/
theorem not_indexSkipsUnit : ¬ Obligations.IndexSkipsUnit := by
  unfold Obligations.IndexSkipsUnit
  intro h
  obtain ⟨-, hretest⟩ := h 0 0 overfullRetest 0 rfl (fun e he => by cases he) rfl rfl rfl (Nat.zero_le _) rfl (fun c0 hc => by cases hc)
  obtain ⟨u, he, ⟨-, -, hsends⟩, -⟩ := hretest (by decide) rfl
  obtain rfl : overfullRetestIndexed = u := by
    rw [exec_indexEvent rfl fun _ he => by cases he] at he
    exact Host.Outcome.next.inj he
  have hset := IndexSends.overflow_of_long (s := overfullRetest) hsends rfl ⟨rfl, .inl rfl⟩ (by decide)
  have hclear : flagIn overfullRetestIndexed.alerts.word .txqOverflow = false := rfl
  exact absurd (hset.symm.trans hclear) (by decide)

end Sys2Proof.Machine
end

section
/-! Settles O26: the record of a completed UNIT measurement, stage by stage (R67 to R74, R79, R94, R95, R97). -/

namespace Sys2Proof.Machine

/-! ### Values in the deviation form (R65) -/

/-- R65: saturation bounds the magnitude and keeps the sign. -/
theorem roundedDev_toInt (n : Int) {d : Int} (hd : 0 < d) : (roundedDev n d).toInt = n.sign * ((min 8388607 (roundedMag n d) : Nat) : Int) := by
  have hfit : min 8388607 (roundedMag n d) < 2 ^ 23 := by omega
  simp only [roundedDev, Dev.toInt, BitVec.toNat_ofNat, Nat.mod_eq_of_lt hfit]
  rcases lt_trichotomy n 0 with h | rfl | h
  · simp [h, Int.sign_eq_neg_one_of_neg h]
  · simp [roundedMag, Nat.div_eq_of_lt (show d.natAbs < 2 * d.natAbs by omega)]
  · simp [h.le, Int.sign_eq_one_of_pos h]

theorem SignMag.saturates_iff (q : SignMag) : q.saturates = true ↔ 8388607 < q.mag := by simp [SignMag.saturates, Config.devMax]

/-! ### Stages C and D (R69 to R72) -/

theorem stageC_mag {a : Reversal} (h : 0 < a.ss) : (stageC a).mag = roundedMag ((a.sx - a.ss) * 10000000) a.ss := roundDiv_mag _ h.ne'

theorem stageC_toDev_toInt {a : Reversal} (h : 0 < a.ss) :
    (stageC a).toDev.toInt
      = ((a.sx - a.ss) * 10000000).sign * ((min 8388607 (roundedMag ((a.sx - a.ss) * 10000000) a.ss) : Nat) : Int) := by
  rw [stageC, roundDiv_toDev _ h, roundedDev_toInt _ h]

theorem crossTerm_toInt (d : Dev) (c : Int) : (crossTerm d c).toInt = rounded (d.toInt * c) 10000000 := roundDiv_toInt _ (by decide)

/-- R71: the exact sum of Stage D. -/
def stageDSum (d c : Int) : Int := d + c + rounded (d * c) 10000000

theorem stageD_toInt_eq (d : Dev) (c : Int) : (stageD d c).toInt = stageDSum d.toInt c := by rw [stageD_toInt, crossTerm_toInt, stageDSum]

theorem SignMag.natAbs_toInt (q : SignMag) : q.toInt.natAbs = q.mag := by
  rcases q with ⟨n, m⟩
  cases n <;> simp [SignMag.toInt]

/-- R71: a zero sum takes the sign of a cross term that rounds to a zero. -/
theorem stageD_of_sum_zero {d : Dev} {c : Int} (h : stageDSum d.toInt c = 0) :
    stageD d c = ⟨decide (d.toInt * c < 0 ∧ rounded (d.toInt * c) 10000000 = 0), 0⟩ := by
  have hzero : (crossTerm d c).mag = 0 ↔ rounded (d.toInt * c) 10000000 = 0 := by
    rw [← SignMag.natAbs_toInt, crossTerm_toInt, Int.natAbs_eq_zero]
  have hneg : (crossTerm d c).neg = decide (d.toInt * c < 0) := roundDiv_neg _ (by decide)
  have hsum : d.toInt + c + (crossTerm d c).toInt = 0 := by rw [crossTerm_toInt]; exact h
  rw [stageD, if_pos hsum, hneg, Bool.decide_and, ← decide_eq_decide.mpr hzero]
  rfl

/-! ### The cold side and Stage E (R73, R74) -/

theorem HeldValue.good_of {v : HeldValue} {d : Dev} (hq : v.quality = .good) (hd : v.deviation = some d) : v.good = some d := by
  rw [HeldValue.good, if_pos hq, hd]

theorem HeldValue.good_eq_none {v : HeldValue} (h : v.quality ≠ .good ∨ v.deviation = none) : v.good = none := by
  rw [HeldValue.good]
  split
  · exact h.resolve_left (not_not.mpr ‹_›)
  · rfl

theorem coldSide_retest {e : Entry} {r : HeldValue} {d : Dev} {t : BitVec 12} (hr : e.retest = some r) (hg : r.good = some d)
    (ht : r.temperature = some t) : coldSide (some e) = some (d, some t) := by
  simp only [coldSide, hr, hg, ht]

/-- R73: without a retest record that serves, the cold record decides. -/
theorem coldSide_cold {e : Entry} (h : ∀ r, e.retest = some r → r.good = none ∨ r.temperature = none) :
    coldSide (some e) = e.cold.bind (fun v => v.good.map (fun d => (d, v.temperature))) := by
  have hcold : coldSide (some { e with retest := none }) = e.cold.bind (fun v => v.good.map (fun d => (d, v.temperature))) := by
    cases e.cold with
    | none => rfl
    | some v => cases hg : v.good <;> simp [coldSide, hg]
  rw [← hcold]
  cases hr : e.retest with
  | none => simp only [coldSide, hr]
  | some r =>
    rcases h r hr with hg | ht
    · simp only [coldSide, hr, hg]
    · cases hg : r.good <;> simp only [coldSide, hr, hg, ht]

theorem stageE_measured {m th tc : BitVec 12} {dh dc : Dev} (hm : (m.toNat : Int) ≤ (th.toNat : Int) - tc.toNat)
    (hpos : 0 < (th.toNat : Int) - tc.toNat) :
    stageE m dh (some th) (some (dc, some tc)) = some (roundDiv ((dh.toInt - dc.toInt) * 16) ((th.toNat : Int) - tc.toNat)) :=
  if_neg (by omega)

theorem stageE_belowMin {m th tc : BitVec 12} {dh dc : Dev} (h : (th.toNat : Int) - tc.toNat < m.toNat ∨ (th.toNat : Int) - tc.toNat ≤ 0) :
    stageE m dh (some th) (some (dc, some tc)) = none :=
  if_pos h

theorem stageE_absent {th : Option (BitVec 12)} {cold : Option (Dev × Option (BitVec 12))}
    (h : th = none ∨ ∀ dc tc, cold ≠ some (dc, some tc)) (m : BitVec 12) (dh : Dev) : stageE m dh th cold = none := by
  rcases cold with _ | ⟨dc, _ | tc⟩
  · rfl
  · rfl
  · obtain rfl := h.resolve_right (fun h => h dc tc rfl)
    rfl

/-! ### The flags (R67, R94, R95, R97) -/

theorem suspectOf_iff (limit : Nat) (a : Reversal) : suspectOf limit a = true ↔ limit ≠ 0 ∧ 64 * limit < a.ox.natAbs := by simp [suspectOf]

theorem overLimit_iff (limit : Nat) (ring : List Dev) :
    overLimit limit ring = true ↔ limit ≠ 0 ∧ ∃ k, driftK ring = some k ∧ limit < k.mag.toNat := by
  cases h : driftK ring <;> simp [overLimit, h]

theorem isStale_iff (d : DriftSlot) : isStale d = true ↔ 256 ≤ d.staleness := by simp [isStale, Config.staleLimit]

/-! ### The record (R66, R72) -/

/-- R68: the record of a measurement that Stage B rejects. -/
def rejectedRecord (s : State) (c : Ctx) (q : Quality) : ValueRecord :=
  valueless (s.role == some .thermal) c.tag q c.temperature c.tempAbsent c.assumedPage

/-- R70: the correction a context takes. -/
def unitCorrection (s : State) (c : Ctx) : Int :=
  correction s.ctl.items.stdCert[c.slot] s.ctl.items.channelTrim (driftK s.drift[c.slot].ring)

/-- R71: Stage D on the averages, before saturation. -/
def unitQuotient (s : State) (c : Ctx) (f v : Pair) : SignMag := stageD (stageC (stageA f v)).toDev (unitCorrection s c)

/-- R69: the numerator of Stage C on the averages. -/
def unitNumerator (f v : Pair) : Int := (f.x - v.x - (f.s - v.s)) * 10000000

/-- R69: d_raw on the averages. -/
def unitRaw (f v : Pair) : Int := (unitNumerator f v).sign * ((min 8388607 (roundedMag (unitNumerator f v) (f.s - v.s)) : Nat) : Int)

/-- R71: the exact deviation of a measurement. -/
def unitSum (s : State) (c : Ctx) (f v : Pair) : Int := stageDSum (unitRaw f v) (unitCorrection s c)

/-- R72: Stage C or Stage D saturates. -/
def DeviationSaturates (s : State) (c : Ctx) (f v : Pair) : Prop :=
  8388607 < roundedMag (unitNumerator f v) (f.s - v.s) ∨ 8388607 < (unitSum s c f v).natAbs

/-- R73, R74: the coefficient of a measurement before saturation, at THERMAL alone. -/
def unitTcr (s : State) (c : Ctx) (d : Dev) : Option SignMag :=
  if s.role == some .thermal then stageE (s.page c.stamp.page).tcrMinDt d c.temperature (coldSide (s.entryOf c.tag)) else none

/-- R72: whether a coefficient saturates. -/
def tcrSaturates : Option SignMag → Bool
  | some q => q.saturates
  | none => false

/-- R72: the record of a measurement that passes Stage B. -/
def passedRecord (s : State) (c : Ctx) (f v : Pair) : ValueRecord :=
  let d := (unitQuotient s c f v).toDev
  let alpha := unitTcr s c d
  { tag := c.tag, quality := .good, deviation := some d, temperature := c.temperature
    flags :=
      { suspect := suspectOf s.ctl.items.offsetLimit (stageA f v)
        drift := overLimit s.ctl.items.driftLimit s.drift[c.slot].ring
        driftStale := isStale s.drift[c.slot]
        tempAbsent := c.tempAbsent
        saturated := (stageC (stageA f v)).saturates || (unitQuotient s c f v).saturates || tcrSaturates alpha
        near := s.role == some .precise && stageH (s.page c.stamp.page) (normaliseDefault (s.page c.stamp.page) d c.temperature)
        assumedPage := c.assumedPage
        tcrAbsent := s.role == some .thermal && alpha.isNone }
    tcr := alpha.map SignMag.toDev }

section Record

variable {s : State} {c : Ctx} {f v : Pair}

theorem completedRecord_stdLow (h : f.s - v.s < s.ctl.items.minStd * 4096) : (completedRecord s c f v).1 = rejectedRecord s c .stdLow := by
  simp only [completedRecord, stageB_stdLow (a := stageA f v) h, rejectedRecord]

theorem completedRecord_polarity (hs : (s.ctl.items.minStd : Int) * 4096 ≤ f.s - v.s) (hx : f.x - v.x ≤ 0) :
    (completedRecord s c f v).1 = rejectedRecord s c .polarity := by
  simp only [completedRecord, stageB_polarity (a := stageA f v) hs hx, rejectedRecord]

theorem completedRecord_pass (hs : (s.ctl.items.minStd : Int) * 4096 ≤ f.s - v.s) (hx : 0 < f.x - v.x) :
    (completedRecord s c f v).1 = passedRecord s c f v := by
  simp only [completedRecord, stageB_pass (a := stageA f v) hs hx]
  rfl

/-- R68: a failed test of Stage B. -/
theorem completedRecord_rejected (h : f.s - v.s < s.ctl.items.minStd * 4096 ∨ f.x - v.x ≤ 0) :
    ∃ q, (completedRecord s c f v).1 = rejectedRecord s c q := by
  rcases lt_or_ge (f.s - v.s) (s.ctl.items.minStd * 4096) with hs | hs
  · exact ⟨_, completedRecord_stdLow hs⟩
  · exact ⟨_, completedRecord_polarity hs (h.resolve_left (not_lt.mpr hs))⟩

/-- R68: the two outcomes of Stage B. -/
theorem completedRecord_cases (s : State) (c : Ctx) (f v : Pair) :
    (∃ q, (completedRecord s c f v).1 = rejectedRecord s c q) ∨ (completedRecord s c f v).1 = passedRecord s c f v := by
  by_cases h : f.s - v.s < s.ctl.items.minStd * 4096 ∨ f.x - v.x ≤ 0
  · exact .inl (completedRecord_rejected h)
  · obtain ⟨hs, hx⟩ := not_or.mp h
    exact .inr (completedRecord_pass (not_lt.mp hs) (not_le.mp hx))

/-- R66: what every record takes over from its context. -/
theorem completedRecord_keeps (s : State) (c : Ctx) (f v : Pair) :
    (completedRecord s c f v).1.temperature = c.temperature ∧ (completedRecord s c f v).1.flags.tempAbsent = c.tempAbsent
      ∧ (completedRecord s c f v).1.flags.assumedPage = c.assumedPage := by
  obtain ⟨q, h⟩ | h := completedRecord_cases s c f v <;> rw [h] <;> exact ⟨rfl, rfl, rfl⟩

theorem unitTcr_thermal (h : s.role = some .thermal) (c : Ctx) (d : Dev) :
    unitTcr s c d = stageE (s.page c.stamp.page).tcrMinDt d c.temperature (coldSide (s.entryOf c.tag)) := by simp [unitTcr, h]

theorem unitTcr_of_ne (h : s.role ≠ some .thermal) (c : Ctx) (d : Dev) : unitTcr s c d = none := by simp [unitTcr, h]

theorem unitTcr_measured {dc d : Dev} {tc th : BitVec 12} (ht : s.role = some .thermal)
    (hside : coldSide (s.entryOf c.tag) = some (dc, some tc)) (hth : c.temperature = some th)
    (hmin : ((s.page c.stamp.page).tcrMinDt.toNat : Int) ≤ (th.toNat : Int) - tc.toNat) (hpos : 0 < (th.toNat : Int) - tc.toNat) :
    unitTcr s c d = some (roundDiv ((d.toInt - dc.toInt) * 16) ((th.toNat : Int) - tc.toNat)) := by
  rw [unitTcr_thermal ht, hth, hside, stageE_measured hmin hpos]

theorem unitTcr_belowMin {dc d : Dev} {tc th : BitVec 12} (ht : s.role = some .thermal)
    (hside : coldSide (s.entryOf c.tag) = some (dc, some tc)) (hth : c.temperature = some th)
    (h : (th.toNat : Int) - tc.toNat < (s.page c.stamp.page).tcrMinDt.toNat ∨ (th.toNat : Int) - tc.toNat ≤ 0) : unitTcr s c d = none := by
  rw [unitTcr_thermal ht, hth, hside, stageE_belowMin h]

theorem unitTcr_absent (ht : s.role = some .thermal)
    (h : c.temperature = none ∨ ∀ dc tc, coldSide (s.entryOf c.tag) ≠ some (dc, some tc)) (d : Dev) : unitTcr s c d = none := by
  rw [unitTcr_thermal ht, stageE_absent h]

/-- R72: TCR and TCR_ABSENT speak of THERMAL alone. -/
theorem completedRecord_noTcr (h : s.role ≠ some .thermal) (c : Ctx) (f v : Pair) :
    (completedRecord s c f v).1.tcr = none ∧ (completedRecord s c f v).1.flags.tcrAbsent = false := by
  obtain ⟨q, hrec⟩ | hrec := completedRecord_cases s c f v
  · rw [hrec]
    exact ⟨rfl, by simpa [rejectedRecord, valueless] using h⟩
  · rw [hrec]
    simp [passedRecord, unitTcr_of_ne h, h]

/-- R79: no station but PRECISE tests for a near value. -/
theorem passedRecord_near_of_ne (h : s.role ≠ some .precise) (c : Ctx) (f v : Pair) : (passedRecord s c f v).flags.near = false := by
  simp [passedRecord, h]

/-- R79: Stage H on the deviation normalised in the default form. -/
theorem passedRecord_near (h : s.role = some .precise) (c : Ctx) (f v : Pair) :
    (passedRecord s c f v).flags.near
      = stageH (s.page c.stamp.page) (normaliseDefault (s.page c.stamp.page) (unitQuotient s c f v).toDev c.temperature) := by
  simp [passedRecord, h]

section Passed

variable (hpos : 0 < f.s - v.s)
include hpos

theorem stageC_unit_toInt : (stageC (stageA f v)).toDev.toInt = unitRaw f v := stageC_toDev_toInt (a := stageA f v) hpos

theorem unitQuotient_toInt (s : State) (c : Ctx) : (unitQuotient s c f v).toInt = unitSum s c f v := by
  rw [unitQuotient, stageD_toInt_eq, stageC_unit_toInt hpos, unitSum]

/-- R71, R72: the deviation of the record. -/
theorem unitQuotient_toDev_toInt (s : State) (c : Ctx) :
    (unitQuotient s c f v).toDev.toInt = max (-8388607) (min 8388607 (unitSum s c f v)) := by
  rw [toDev_toInt, unitQuotient_toInt hpos]

/-- R71, R72: a deviation of 0 takes the sign of its cross term. -/
theorem unitQuotient_of_sum_zero (h : unitSum s c f v = 0) :
    (unitQuotient s c f v).toDev
      = ⟨decide (unitRaw f v * unitCorrection s c < 0 ∧ rounded (unitRaw f v * unitCorrection s c) 10000000 = 0), 0⟩ := by
  have hraw := stageC_unit_toInt hpos
  rw [unitQuotient, stageD_of_sum_zero (by rwa [hraw]), hraw]
  rfl

/-- R72: a passed record saturates by its deviation, or by its coefficient. -/
theorem passedRecord_saturated :
    (passedRecord s c f v).flags.saturated = true
      ↔ DeviationSaturates s c f v ∨ tcrSaturates (unitTcr s c (unitQuotient s c f v).toDev) = true := by
  have hc : (stageC (stageA f v)).mag = roundedMag (unitNumerator f v) (f.s - v.s) := stageC_mag (a := stageA f v) hpos
  have hd : (unitQuotient s c f v).mag = (unitSum s c f v).natAbs := by rw [← SignMag.natAbs_toInt, unitQuotient_toInt hpos]
  simp only [passedRecord, Bool.or_eq_true, SignMag.saturates_iff, hc, hd, DeviationSaturates]

theorem passedRecord_saturated_noTcr (h : unitTcr s c (unitQuotient s c f v).toDev = none) :
    (passedRecord s c f v).flags.saturated = true ↔ DeviationSaturates s c f v := by
  rw [passedRecord_saturated hpos, h]
  exact or_iff_left Bool.false_ne_true

/-- R72, R74: the record with the coefficient that Stage E gives. -/
theorem passedRecord_tcr {n dt : Int} (hdt : 0 < dt) (h : unitTcr s c (unitQuotient s c f v).toDev = some (roundDiv n dt)) :
    (passedRecord s c f v).tcr = some (roundedDev n dt) ∧ (passedRecord s c f v).flags.tcrAbsent = false
      ∧ ((passedRecord s c f v).flags.saturated = true ↔ DeviationSaturates s c f v ∨ 8388607 < roundedMag n dt) := by
  refine ⟨by simp [passedRecord, h, roundDiv_toDev n hdt], by simp [passedRecord, h], ?_⟩
  rw [passedRecord_saturated hpos, h, tcrSaturates, SignMag.saturates_iff, roundDiv_mag n hdt.ne']

/-- R74: the record of THERMAL without a coefficient. -/
theorem passedRecord_tcrAbsent (ht : s.role = some .thermal) (h : unitTcr s c (unitQuotient s c f v).toDev = none) :
    (passedRecord s c f v).tcr = none ∧ (passedRecord s c f v).flags.tcrAbsent = true
      ∧ ((passedRecord s c f v).flags.saturated = true ↔ DeviationSaturates s c f v) :=
  ⟨by simp [passedRecord, h], by simp [passedRecord, h, ht], passedRecord_saturated_noTcr hpos h⟩

end Passed

end Record

/-- Settles O26: the cold side, then the outcomes of Stage B, then the record that passes it. -/
theorem completedRecord_spec : Obligations.CompletedRecord := by
  unfold Obligations.CompletedRecord
  refine ⟨fun e => ⟨fun r d t hr hq hd ht => coldSide_retest hr (HeldValue.good_of hq hd) ht, fun hno => ?cold⟩, rfl, fun s c f v => ?record⟩
  case cold =>
    have hside := coldSide_cold (e := e) fun r hr => ((or_assoc.mpr (hno r hr)).imp_left HeldValue.good_eq_none)
    refine ⟨fun v d hv hq hd => ?_, fun hcold => ?_⟩
    · rw [hside, hv, Option.bind_some, HeldValue.good_of hq hd, Option.map_some]
    · rw [hside, Option.bind_eq_none_iff]
      intro v hv
      rw [HeldValue.good_eq_none (hcold v hv), Option.map_none]
  case record =>
    intro r sx ss limit page
    obtain ⟨htemp, habsent, hassumed⟩ := completedRecord_keeps s c f v
    refine ⟨completedRecord_tag s c f v, htemp, habsent, hassumed, fun h => completedRecord_noTcr h c f v,
      fun hs => congrArg ValueRecord.quality (completedRecord_stdLow hs),
      fun hs hx => congrArg ValueRecord.quality (completedRecord_polarity hs hx), fun h => ?rejected, fun hs hx hpos => ?passed⟩
    case rejected =>
      obtain ⟨q, hq⟩ := completedRecord_rejected (c := c) h
      have hr : r = rejectedRecord s c q := hq
      rw [hr]
      exact ⟨rfl, rfl, rfl, rfl, rfl, rfl, rfl, rfl⟩
    case passed =>
      intro clamped corr raw dRaw x sum saturates
      have hr : r = passedRecord s c f v := completedRecord_pass hs hx
      rw [hr]
      refine ⟨rfl, suspectOf_iff _ _, overLimit_iff _ _, isStale_iff _, fun h => passedRecord_near_of_ne h c f v,
        (unitQuotient s c f v).toDev, rfl, unitQuotient_toDev_toInt hpos s c, unitQuotient_of_sum_zero hpos,
        fun h => passedRecord_near h c f v, fun h => passedRecord_saturated_noTcr hpos (unitTcr_of_ne h _ _),
        fun ht => ⟨fun dc tc th hside hth => ?coefficient, fun h => passedRecord_tcrAbsent hpos ht (unitTcr_absent ht h _)⟩⟩
      intro n dt
      exact ⟨fun hmin hdt => passedRecord_tcr hpos hdt (unitTcr_measured ht hside hth hmin hdt),
        fun h => passedRecord_tcrAbsent hpos ht (unitTcr_belowMin ht hside hth h)⟩

end Sys2Proof.Machine
end

section
/-! Settles O48: the level conditions, the alert word after a BIN CLEAR, a CLEAR and a MASK, and when a flag that rises puts an ALERT in the queue (R95, R97, R133, R134, R145, R163, R164, R182 to R185). -/

namespace Sys2Proof.Machine

/-! ### The level conditions (R95, R97, R133, R163, R164) -/

@[simp] theorem mem_allPages : ∀ k : Fin 4, k ∈ allPages := by decide

theorem standing_silent_iff (s : State) (n : Fin 8) :
    s.standing n = .silent ↔ (s.peers[n]).heard = true ∧ (s.peers[n]).heardAt + ms 1000 ≤ s.now := by
  have hcode : s.standing n = .silent ↔ standingCode s n = 1 := by
    rw [standingCode_eq]
    cases s.standing n <;> decide
  rw [hcode, standingCode]
  by_cases hheard : (s.peers[n]).heard = false
  · rw [if_pos hheard, hheard]
    simp
  · rw [if_neg hheard]
    by_cases hold : (s.peers[n]).heardAt + ms 1000 ≤ s.now
    · rw [if_pos hold]
      exact iff_of_true rfl ⟨Bool.eq_true_of_not_eq_false hheard, hold⟩
    · rw [if_neg hold]
      refine iff_of_false ?_ fun h => hold h.2
      split <;> [decide; (split <;> decide)]

theorem standing_doubt_iff (s : State) (n : Fin 8) :
    s.standing n = .doubt
      ↔ (s.peers[n]).heard = true ∧ ¬((s.peers[n]).heard = true ∧ (s.peers[n]).heardAt + ms 1000 ≤ s.now) ∧ (s.peers[n]).distrusted = false
          ∧ ((s.peers[n]).ahead = true ∨ ∃ o, (s.peers[n]).offset = some o ∧ o.agrees = false) := by
  rw [← standing_silent_iff]
  unfold State.standing standing
  cases (s.peers[n]).heard
  · simp
  · simp only [Bool.not_true, Bool.false_eq_true, if_false]
    split
    · simp
    · cases (s.peers[n]).distrusted
      · cases (s.peers[n]).offset with
        | none => cases (s.peers[n]).ahead <;> simp
        | some o =>
          obtain ⟨value, agrees⟩ := o
          cases (s.peers[n]).ahead <;> cases agrees <;> simp
      · simp

/-- R133: some bin of some page is full. -/
theorem anyBinFull_iff (s : State) :
    s.anyBinFull = true ↔ ∃ q : Fin 4, ∃ x ∈ (s.pages[q]).bins, x.capacity ≠ 0 ∧ s.binTally q x.index = x.capacity := by
  simp [State.anyBinFull, State.binIsFull, State.page]

/-- R93, R95: k of some slot is beyond DRIFT_LIMIT. -/
theorem levelStands_driftLimit_iff (s : State) :
    s.levelStands .driftLimit = true
      ↔ s.ctl.items.driftLimit ≠ 0 ∧ ∃ j : Fin 4, (s.drift[j]).ring ≠ []
          ∧ s.ctl.items.driftLimit < (roundedDev ((s.drift[j]).ring.map Dev.toInt).sum (s.drift[j]).ring.length).mag.toNat := by
  have hslot : ∀ ring : List Dev, (∃ k, driftK ring = some k ∧ s.ctl.items.driftLimit < k.mag.toNat)
      ↔ ring ≠ [] ∧ s.ctl.items.driftLimit < (roundedDev (ring.map Dev.toInt).sum ring.length).mag.toNat := by
    intro ring
    by_cases h : ring = []
    · simp [h, driftK_nil]
    · simp [h, driftK_mean h]
  simp [State.levelStands, overLimit_iff, hslot]

/-! ### Flags in words (R182, R183) -/

theorem flagIn_and (w m : BitVec 32) (f : AlertFlag) : flagIn (w &&& m) f = (flagIn w f && flagIn m f) := BitVec.getLsbD_and

theorem flagIn_not (w : BitVec 32) (f : AlertFlag) : flagIn (~~~w) f = !flagIn w f := by
  have hpos : 32 - f.pos < 32 := by cases f <;> decide
  simp [flagIn, hpos]

theorem flagIn_zero (f : AlertFlag) : flagIn 0 f = false := BitVec.getLsbD_zero

theorem flagIn_bit (f g : AlertFlag) : flagIn f.bit g = (f == g) := by
  have h := flagIn_or_bit 0 f g
  rwa [flagIn_zero, Bool.false_or, show (0 : BitVec 32) ||| f.bit = f.bit from BitVec.zero_or] at h

theorem flagIn_foldl_bits (c : AlertFlag → Bool) (l : List AlertFlag) (w : BitVec 32) (g : AlertFlag) :
    flagIn (l.foldl (fun w f => if c f then w ||| f.bit else w) w) g = (flagIn w g || (l.contains g && c g)) := by
  induction l generalizing w with
  | nil => simp
  | cons f l ih =>
    rw [List.foldl_cons, ih]
    by_cases hfg : f = g
    · subst hfg
      cases c f <;> simp
    · have hgf : (g == f) = false := beq_eq_false_iff_ne.mpr (Ne.symm hfg)
      have hstep : flagIn (if c f then w ||| f.bit else w) g = flagIn w g := by
        split <;> simp [hfg]
      rw [hstep, List.contains_cons, hgf, Bool.false_or]

/-- R183: the flags that a CLEAR cannot clear are those whose level condition stands. -/
theorem flagIn_heldFlags (s : State) (f : AlertFlag) : flagIn s.heldFlags f = s.levelStands f := by
  rw [State.heldFlags, flagIn_foldl_bits, levelStands_mem, flagIn_zero, Bool.false_or]

/-- R183: a CLEAR clears the flags it names but for those held. -/
theorem flagIn_clearWord (s : State) (named : BitVec 32) (f : AlertFlag) :
    flagIn (clearWord s named) f = (flagIn s.alerts.word f && (!flagIn named f || s.levelStands f)) := by
  rw [clearWord, flagIn_and, flagIn_not, flagIn_and, flagIn_not, flagIn_heldFlags, Bool.not_and, Bool.not_not]

/-- R184: the mask bit of a flag is the one sent. -/
theorem flagIn_and_assignedMask (w : BitVec 32) (f : AlertFlag) : flagIn (w &&& assignedMask) f = flagIn w f := by
  rw [flagIn_and, show flagIn assignedMask f = true from assignedMask_flag f, Bool.and_true]

/-- R182, R185: what raising a clear flag does. -/
theorem raise_clear {f : AlertFlag} {s : State} (h : flagIn s.alerts.word f = false) :
    raise f s
      = (s.withAlerts { s.alerts with word := s.alerts.word ||| f.bit }).withWork
          { s.work with alert := s.work.alert || (s.ctl.items.broadcastAlerts && flagIn s.alerts.mask f) } := by
  unfold raise
  rw [if_neg (by simp [h])]
  cases hb : s.ctl.items.broadcastAlerts && flagIn s.alerts.mask f
  · rw [Bool.or_false]
    rfl
  · rw [Bool.or_true]
    rfl

/-! ### The console commands (R134, R183, R184) -/

@[simp] theorem consoleState_resetHeld (t : Instant) (h : ConsoleHead) (s : State) : (consoleState t h s).resetHeld = s.resetHeld := by
  simp [consoleState]

@[simp] theorem consoleState_gates (t : Instant) (h : ConsoleHead) (s : State) : (consoleState t h s).gates = s.gates := by simp [consoleState]

@[simp] theorem consoleState_alerts (t : Instant) (h : ConsoleHead) (s : State) : (consoleState t h s).alerts = s.alerts := by simp [consoleState]

@[simp] theorem consoleState_work (t : Instant) (h : ConsoleHead) (s : State) : (consoleState t h s).work = s.work := by simp [consoleState]

/-- R151: the effect of an addressed console frame, with the end of the command behind it. -/
theorem event_obey_addressed {t : Instant} {h : ConsoleHead} {s : State} (hr : s.resetHeld = false) (hrx : s.link.rx.isSome = true)
    (ha : s.addressed h = true) (act : State → State) :
    event t (obey h act) s = .next (settle (act (consoleState t h s))) := by
  simp [event, hr, obey_addressed hrx ha]

theorem tail_of_eq {a b : State} (h : b = a) : Tail a (settle b) := h ▸ settle_tail b

theorem clearBin_listen {b : State} (h : b.ctl.run = .listen) (page : BitVec 4) (bin : BitVec 8) : clearBin page bin b = b := if_pos h

theorem clearFlags_listen {b : State} (h : b.ctl.run = .listen) (form : ClearForm) : clearFlags form b = b := if_pos h

theorem setMask_listen {b : State} (h : b.ctl.run = .listen) (word : BitVec 32) (master : Bool) : setMask word master b = b := if_pos h

theorem clearFlags_named {b : State} (h : b.ctl.run ≠ .listen) (named : BitVec 32) :
    clearFlags (.flags named) b = b.withAlerts { b.alerts with word := clearWord b named } := if_neg h

theorem clearFlags_undefinedForm {b : State} (h : b.ctl.run ≠ .listen) (form : Fin 14) :
    clearFlags (.undefinedForm form) b = raise .consoleError b := if_neg h

theorem setMask_eq {b : State} (h : b.ctl.run ≠ .listen) (word : BitVec 32) (master : Bool) :
    setMask word master b = b.withAlerts { b.alerts with mask := word &&& assignedMask, master := master } := if_neg h

/-- R133: BIN_FULL after a tally was set to 0. -/
theorem settleBinFull_word (s : State) :
    ∃ word, settleBinFull s = s.withAlerts { s.alerts with word := word }
      ∧ (s.anyBinFull = true → word = s.alerts.word) ∧ (s.anyBinFull = false → word = s.alerts.word &&& ~~~AlertFlag.binFull.bit) := by
  unfold settleBinFull
  cases s.anyBinFull
  · exact ⟨_, rfl, by simp, by simp⟩
  · exact ⟨s.alerts.word, rfl, by simp, by simp⟩

/-- R133, R183: the end of a command leaves BIN_FULL just where a bin is full, when the command had cleared it where none was. -/
theorem Tail.binFull {a u : State} (ht : Tail a u) (h : a.anyBinFull = false → flagIn a.alerts.word .binFull = false) :
    flagIn u.alerts.word .binFull = u.anyBinFull := by
  have hu : u.anyBinFull = a.anyBinFull := anyBinFull_congr ht.pages (by rw [ht.gates])
  rw [ht.flags _ (by decide), hu, show a.levelStands .binFull = a.anyBinFull from rfl]
  cases hfull : a.anyBinFull
  · rw [h hfull, Bool.or_false]
  · rw [Bool.or_true]

/-- R134: BIN CLEAR of a bin of a page. -/
theorem clearBin_tail {b u : State} {page : BitVec 4} {bin : BitVec 8} {p : Fin 4} {k : Fin 16} (hrun : b.ctl.run ≠ .listen)
    (hp : page.toNat = p.val) (hk : bin.toNat = k.val + 1) (ht : Tail (clearBin page bin b) u) :
    ∃ word,
      Tail
          ((b.withGates { b.gates with binTallies := b.gates.binTallies.set p ((b.gates.binTallies[p]).set k 0) }).withAlerts
            { b.alerts with word := word }) u
        ∧ (u.anyBinFull = true → word = b.alerts.word) ∧ (u.anyBinFull = false → word = b.alerts.word &&& ~~~AlertFlag.binFull.bit)
        ∧ flagIn u.alerts.word .binFull = u.anyBinFull := by
  obtain ⟨word, hx, hfull, hclear⟩ := settleBinFull_word (setBinTally p k 0 b)
  have he : clearBin page bin b = settleBinFull (setBinTally p k 0 b) := by
    rw [clearBin, if_neg hrun, pageOfField_some hp, binOfIndex_some hk]
  rw [he, hx] at ht
  have hu : u.anyBinFull = (setBinTally p k 0 b).anyBinFull := anyBinFull_congr ht.pages (by rw [ht.gates]; rfl)
  refine ⟨word, ht, fun h => hfull (hu ▸ h), fun h => hclear (hu ▸ h), ht.binFull fun h => ?_⟩
  have hnone : (setBinTally p k 0 b).anyBinFull = false := h
  rw [State.withAlerts_alerts, hclear hnone, flagIn_and, flagIn_not, flagIn_bit]
  simp

/-- R134: a BIN CLEAR of no page or no bin. -/
theorem clearBin_refused {b : State} {page : BitVec 4} {bin : BitVec 8} (hrun : b.ctl.run ≠ .listen)
    (h : 4 ≤ page.toNat ∨ bin = 0 ∨ 17 ≤ bin.toNat) : clearBin page bin b = raise .consoleError b := by
  rw [clearBin, if_neg hrun]
  rcases h with hp | hb
  · rw [pageOfField_none hp]
  · rw [binOfIndex_none (hb.imp (fun h0 => by rw [h0]; rfl) id)]
    cases pageOfField page <;> rfl

/-- R184: the ALERT pin is driven by FAULT, or under the master enable by a flag whose mask bit is on. -/
theorem assertsAlert_iff {u : State} (hr : u.resetHeld = false) :
    u.assertsAlert = true
      ↔ u.ctl.run = .fault ∨ (u.alerts.master = true ∧ ∃ f : AlertFlag, flagIn u.alerts.word f = true ∧ flagIn u.alerts.mask f = true) := by
  rw [← masked_iff]
  simp [State.assertsAlert, hr]

/-- R178: the end of a command does not lead into FAULT or out of it. -/
theorem Tail.fault_iff {a u : State} (ht : Tail a u) : u.ctl.run = .fault ↔ a.ctl.run = .fault := by
  rw [ht.ctl]
  split
  · rename_i h
    simp only [Bool.and_eq_true, beq_iff_eq] at h
    simp [h.1.2]
  · rfl

/-- R184: a MASK sets mask and master enable, and the ALERT pin follows them. -/
theorem setMask_tail {b u : State} {word : BitVec 32} {master : Bool} (hr : b.resetHeld = false)
    (ht : Tail (b.withAlerts { b.alerts with mask := word &&& assignedMask, master := master }) u) :
    (∀ f : AlertFlag, flagIn u.alerts.mask f = flagIn word f)
      ∧ (u.assertsAlert = true
          ↔ b.ctl.run = .fault ∨ (master = true ∧ ∃ f : AlertFlag, flagIn u.alerts.word f = true ∧ flagIn word f = true)) := by
  have hmask : ∀ f, flagIn u.alerts.mask f = flagIn word f := fun f => by
    rw [ht.mask]
    exact flagIn_and_assignedMask word f
  refine ⟨hmask, ?_⟩
  rw [assertsAlert_iff (ht.resetHeld.trans hr), ht.fault_iff, ht.master]
  simp only [hmask]
  rfl

/-! ### What a command offers beside its records (R145, R169, R185) -/

/-- R185: an ALERT is offered where a clear flag rises under BROADCAST_ALERTS with its mask bit on. -/
theorem raise_work_alert (f : AlertFlag) (s : State) :
    (raise f s).work.alert = true
      ↔ s.work.alert = true ∨ (s.ctl.items.broadcastAlerts = true ∧ flagIn s.alerts.word f = false ∧ flagIn s.alerts.mask f = true) := by
  cases h : flagIn s.alerts.word f
  · rw [raise_clear h]
    simp
  · rw [raise_set h]
    simp

@[simp] theorem raise_work_hail (f : AlertFlag) (s : State) : (raise f s).work.hail = s.work.hail := by
  cases h : flagIn s.alerts.word f
  · rw [raise_clear h]
    rfl
  · rw [raise_set h]

@[simp] theorem refreshLevels_work_hail (s : State) : (refreshLevels s).work.hail = s.work.hail := by
  have hif : ∀ (c : Bool) (f : AlertFlag) (a : State), (raiseIf c f a).work.hail = a.work.hail := by
    intro c f a
    cases c
    · rfl
    · exact raise_work_hail f a
  simp [refreshLevels, levelFlags, hif]

@[simp] theorem drainTest_work_alert (s : State) : (drainTest s).work.alert = s.work.alert := by
  unfold drainTest setStation
  split
  · dsimp only; split <;> simp [offerHail]
  · rfl

/-- R178: only a station that drains offers a HAIL at the drain test. -/
theorem drainTest_work_hail {s : State} (h : s.ctl.drain = false) : (drainTest s).work.hail = s.work.hail := by simp [drainTest, h]

theorem foldl_raiseIf_work_alert (c : AlertFlag → Bool) (l : List AlertFlag) (a : State) :
    (l.foldl (fun a f => raiseIf (c f) f a) a).work.alert = true
      ↔ a.work.alert = true ∨ (a.ctl.items.broadcastAlerts = true
          ∧ ∃ f ∈ l, flagIn a.alerts.word f = false ∧ c f = true ∧ flagIn a.alerts.mask f = true) := by
  induction l generalizing a with
  | nil => simp
  | cons g l ih =>
    rw [List.foldl_cons, ih]
    cases hc : c g
    · simp [raiseIf, hc]
    · rw [raiseIf_true, raise_work_alert]
      simp only [raise_flag, raise_ctl, raise_alerts_mask, Bool.or_eq_false_iff, beq_eq_false_iff_ne, List.exists_mem_cons_iff, hc, true_and]
      constructor
      · rintro ((h | ⟨hb, hg⟩) | ⟨hb, f, hf, ⟨hw, -⟩, hs⟩)
        · exact .inl h
        · exact .inr ⟨hb, .inl hg⟩
        · exact .inr ⟨hb, .inr ⟨f, hf, hw, hs⟩⟩
      · rintro (h | ⟨hb, hg | ⟨f, hf, hw, hs, hm⟩⟩)
        · exact .inl (.inl h)
        · exact .inl (.inr ⟨hb, hg⟩)
        · by_cases he : g = f
          · subst he
            exact .inl (.inr ⟨hb, hw, hm⟩)
          · exact .inr ⟨hb, f, hf, ⟨hw, he⟩, hs, hm⟩

/-- R183, R185: a level flag that rises under BROADCAST_ALERTS with its mask bit on offers an ALERT. -/
theorem refreshLevels_work_alert (s : State) :
    (refreshLevels s).work.alert = true
      ↔ s.work.alert = true ∨ (s.ctl.items.broadcastAlerts = true
          ∧ ∃ f, flagIn s.alerts.word f = false ∧ s.levelStands f = true ∧ flagIn s.alerts.mask f = true) := by
  have hmem : ∀ f, s.levelStands f = true → f ∈ levelFlags := by
    intro f hf
    have h := levelStands_mem f s
    rw [hf, Bool.and_true] at h
    exact List.contains_iff_mem.mp h
  rw [refreshLevels, foldl_raiseIf_work_alert]
  refine or_congr_right (and_congr_right fun _ => exists_congr fun f => ⟨And.right, fun h => ⟨hmem f h.2.1, h⟩⟩)

/-- R183, R185: the flags that a command raising `g` alone makes rise, `g` and the level flags, offer an ALERT. -/
theorem raised_work_alert (g : AlertFlag) {a : State} (ha : a.work.alert = false) :
    (refreshLevels (drainTest (raise g a))).work.alert = true
      ↔ a.ctl.items.broadcastAlerts = true
          ∧ ∃ f, (flagIn a.alerts.word f = false ∧ (f = g ∨ a.levelStands f = true)) ∧ flagIn a.alerts.mask f = true := by
  have hlevel : ∀ f, (drainTest (raise g a)).levelStands f = a.levelStands f := fun f =>
    (levelStands_drainTest f _).trans (levelStands_congr (by simp) (by simp) (by simp) (by simp) (by simp) (by simp) (by simp) f)
  rw [refreshLevels_work_alert, drainTest_work_alert, raise_work_alert]
  simp only [hlevel, drainTest_alerts, drainTest_ctl_items, raise_flag, raise_ctl, raise_alerts_mask, Bool.or_eq_false_iff, beq_eq_false_iff_ne, ha,
    Bool.false_eq_true, false_or]
  constructor
  · rintro (⟨hb, hw, hm⟩ | ⟨hb, f, ⟨hw, -⟩, hs, hm⟩)
    · exact ⟨hb, g, ⟨hw, .inl rfl⟩, hm⟩
    · exact ⟨hb, f, ⟨hw, .inr hs⟩, hm⟩
  · rintro ⟨hb, f, ⟨hw, hf⟩, hm⟩
    by_cases he : g = f
    · subst he
      exact .inl ⟨hb, hw, hm⟩
    · exact .inr ⟨hb, f, ⟨hw, he⟩, hf.resolve_left (Ne.symm he), hm⟩

/-! ### Where a HAIL and an ALERT land -/

/-- R169, R185: a frame like `f` stands in the queue with its header cell not started. -/
def State.waits (s : State) (f : QFrame) : Prop := ∃ q ∈ s.unstarted, q.frame = f

theorem offerOnce_waiting {f : QFrame} {s : State} (h : s.waits f) : offerOnce f s = s := by
  obtain ⟨q, hq, hf⟩ := h
  have hany : s.unstarted.any (fun q => q.frame == f) = true := List.any_eq_true.mpr ⟨q, hq, beq_iff_eq.mpr hf⟩
  rw [offerOnce, if_pos hany]

theorem offerOnce_offers {f : QFrame} {s : State} (h : ¬s.waits f) : offerOnce f s = offer f s := by
  rw [offerOnce, if_neg]
  intro hany
  obtain ⟨q, hq, hf⟩ := List.any_eq_true.mp hany
  exact h ⟨q, hq, beq_iff_eq.mp hf⟩

theorem offer_room {f : QFrame} {s : State} (had : s.admits f = true) (h : s.link.queue.length < 6) : offer f s = enqueue [f] s := by
  have hfree : s.freePlaces ≠ 0 := Nat.sub_ne_zero_of_lt h
  rw [offer, had, if_neg (by simp), if_neg hfree]

theorem offer_overflow {f : QFrame} {s : State} (had : s.admits f = true) (h : 6 ≤ s.link.queue.length) : offer f s = raise .txqOverflow s := by
  have hfree : s.freePlaces = 0 := Nat.sub_eq_zero_of_le h
  rw [offer, had, if_neg (by simp), if_pos hfree]

theorem admits_hail (s : State) : s.admits .hail = true := by
  unfold State.admits
  cases s.ctl.run <;> cases s.ctl.activity <;> rfl

theorem admits_alert_iff {s : State} (h : s.ctl.run ≠ .listen) : s.admits .alert = true ↔ s.ctl.run ≠ .fault ∧ s.ctl.activity ≠ .muted := by
  unfold State.admits
  cases hrun : s.ctl.run <;> cases s.ctl.activity <;> simp_all [admits, QFrame.isUnit]

/-- R185: frames of another kind at the tail do not change whether one like `f` waits. -/
theorem waits_append {a b : State} {f : QFrame} {more : List QItem} (htx : b.link.tx = a.link.tx) (hq : b.link.queue = a.link.queue ++ more)
    (hm : ∀ q ∈ more, q.frame ≠ f) : b.waits f ↔ a.waits f := by
  have hun : ∃ rest, b.unstarted = a.unstarted ++ rest ∧ ∀ q ∈ rest, q ∈ more := by
    unfold State.unstarted
    rw [htx, hq]
    cases a.link.tx with
    | none => exact ⟨more, rfl, fun _ h => h⟩
    | some x =>
      cases hx : x.won
      · cases a.link.queue with
        | nil => exact ⟨more.tail, by simp [hx], fun _ h => List.mem_of_mem_tail h⟩
        | cons q qs => exact ⟨more, by simp [hx], fun _ h => h⟩
      · exact ⟨more, by simp [hx], fun _ h => h⟩
  obtain ⟨rest, hb, hrest⟩ := hun
  unfold State.waits
  rw [hb]
  constructor
  · rintro ⟨q, hq, hf⟩
    exact (List.mem_append.mp hq).elim (fun h => ⟨q, h, hf⟩) fun h => absurd hf (hm q (hrest q h))
  · rintro ⟨q, hq, hf⟩
    exact ⟨q, List.mem_append_left _ hq, hf⟩

/-- R145, R169: the station once the HAIL of a command has been offered, where no record and no reply was. -/
def hailOffered (s : State) : State := if s.work.hail then offerOnce .hail s else s

@[simp] theorem hailOffered_ctl (s : State) : (hailOffered s).ctl = s.ctl := by unfold hailOffered; split <;> simp

@[simp] theorem hailOffered_tx (s : State) : (hailOffered s).link.tx = s.link.tx := by unfold hailOffered; split <;> simp

/-- R145, R169: the HAIL of a command joins the queue alone, and where it finds six frames held none joins. A HAIL turned away by a full queue may have raised TXQ_OVERFLOW, which is a flag that may offer an ALERT. -/
theorem hailOffered_queue (s : State) :
    ∃ more, (hailOffered s).link.queue = s.link.queue ++ more ∧ (∀ q ∈ more, q.frame = .hail)
      ∧ more.length ≤ (if s.work.hail then 1 else 0) ∧ (6 ≤ s.link.queue.length → more = [])
      ∧ (s.work.alert = true → (hailOffered s).work.alert = true)
      ∧ (s.link.queue.length < 6 → (hailOffered s).work.alert = s.work.alert) := by
  unfold hailOffered
  cases s.work.hail
  · exact ⟨[], by simp⟩
  · rw [if_pos rfl, if_pos rfl]
    by_cases hw : s.waits .hail
    · rw [offerOnce_waiting hw]
      exact ⟨[], by simp⟩
    · rw [offerOnce_offers hw]
      by_cases hlen : s.link.queue.length < 6
      · rw [offer_room (admits_hail s) hlen]
        exact ⟨_, rfl, by simp, by simp, fun h => absurd hlen (by omega), by simp [enqueue], by simp [enqueue]⟩
      · rw [offer_overflow (admits_hail s) (by omega)]
        refine ⟨[], by simp, by simp, by simp, fun _ => rfl, fun h => ?_, fun h => absurd h hlen⟩
        exact (raise_work_alert _ _).mpr (.inl h)

theorem flush_eq {s : State} (hu : s.work.units = []) (hs : s.work.status = []) :
    flush s
      = (if (hailOffered s).work.alert && (hailOffered s).admits .alert then offerOnce .alert (hailOffered s) else hailOffered s).withWork
          Work.empty := by
  have hreply : offerReply s.work.status s = s := by rw [hs]; rfl
  unfold flush
  rw [hu, List.foldl_nil]
  dsimp only
  rw [hreply]
  rfl

/-- R145, R185: where a command offers no record and no reply, its ALERT joins a queue with room for it and the HAIL unless one waits, no other ALERT does, and with six frames held it raises TXQ_OVERFLOW. -/
theorem flush_alert {s : State} (hu : s.work.units = []) (hs : s.work.status = []) :
    ∃ more, (flush s).link.queue = s.link.queue ++ more
      ∧ (s.work.alert = true → s.admits .alert = true → ¬s.waits .alert → s.link.queue.length + (if s.work.hail then 2 else 1) ≤ 6 →
          { frame := .alert, waiting := 0 } ∈ more ∧ more.countP (fun q => q.frame == .alert) = 1)
      ∧ (s.work.alert = false ∨ s.admits .alert = false ∨ s.waits .alert → ∀ q ∈ more, q.frame ≠ .alert)
      ∧ (s.work.alert = true → s.admits .alert = true → ¬s.waits .alert → 6 ≤ s.link.queue.length →
          more = [] ∧ flagIn (flush s).alerts.word .txqOverflow = true) := by
  obtain ⟨hails, hq, hhail, hone, hfull, hkeep, hsame⟩ := hailOffered_queue s
  have hno : ∀ q ∈ hails, q.frame ≠ .alert := fun q h => by simp [hhail q h]
  have hadm : (hailOffered s).admits .alert = s.admits .alert := admits_congr (by simp) _
  have hwait : (hailOffered s).waits .alert ↔ s.waits .alert := waits_append (by simp) hq hno
  have hlen : (hailOffered s).link.queue.length = s.link.queue.length + hails.length := by rw [hq, List.length_append]
  have hroom : s.link.queue.length + (if s.work.hail then 2 else 1) ≤ 6 → s.link.queue.length + hails.length < 6 := by
    split at hone <;> rename_i h <;> simp only [h, if_true, if_false, Bool.false_eq_true] <;> omega
  rw [flush_eq hu hs, hadm, State.withWork_link, State.withWork_alerts]
  by_cases hoff : (hailOffered s).work.alert = true ∧ s.admits .alert = true ∧ ¬s.waits .alert
  · obtain ⟨hal, had, hnw⟩ := hoff
    rw [if_pos (by rw [hal, had]; rfl), offerOnce_offers (mt hwait.mp hnw)]
    by_cases h6 : (hailOffered s).link.queue.length < 6
    · rw [offer_room (hadm.trans had) h6]
      have hal' : s.work.alert = true := (hsame (by omega)).symm.trans hal
      refine ⟨hails ++ [{ frame := .alert, waiting := 0 }], by simp [enqueue, hq], fun _ _ _ _ => ⟨by simp, ?_⟩, fun h => ?_,
        fun _ _ _ h => absurd h (by omega)⟩
      · have hzero : hails.countP (fun q => q.frame == .alert) = 0 := List.countP_eq_zero.mpr fun q h => by simpa using hno q h
        rw [List.countP_append, hzero]
        rfl
      · simp [hal', had, hnw] at h
    · rw [offer_overflow (hadm.trans had) (by omega)]
      refine ⟨hails, by rw [raise_link, hq], fun _ _ _ h => ?_, fun _ => hno, fun _ _ _ h => ⟨hfull h, by simp⟩⟩
      have := hroom h
      omega
  · have hrest : (if (hailOffered s).work.alert && s.admits .alert then offerOnce .alert (hailOffered s) else hailOffered s) = hailOffered s := by
      by_cases hw : s.waits .alert
      · rw [offerOnce_waiting (hwait.mpr hw), ite_self]
      · rw [if_neg]
        intro h
        rw [Bool.and_eq_true] at h
        exact hoff ⟨h.1, h.2, hw⟩
    rw [hrest]
    exact ⟨hails, hq, fun hal had hnw _ => absurd ⟨hkeep hal, had, hnw⟩ hoff, fun _ => hno,
      fun hal had hnw _ => absurd ⟨hkeep hal, had, hnw⟩ hoff⟩

/-- R145, R178, R185: the ALERT of a command that does nothing but raise the flag `g`. -/
theorem raised_offers_alert (g : AlertFlag) {a : State} (hw : a.work = Work.empty) {offered : Prop}
    (hoff : offered ↔ a.ctl.items.broadcastAlerts = true
      ∧ ∃ f, (flagIn a.alerts.word f = false ∧ (f = g ∨ a.levelStands f = true)) ∧ flagIn a.alerts.mask f = true) :
    ∃ more, (settle (raise g a)).link.queue = a.link.queue ++ more
      ∧ (offered → a.admits .alert = true → ¬a.waits .alert → a.link.queue.length + (if a.ctl.drain then 2 else 1) ≤ 6 →
          { frame := .alert, waiting := 0 } ∈ more ∧ more.countP (fun q => q.frame == .alert) = 1)
      ∧ (¬offered ∨ ¬a.admits .alert = true ∨ a.waits .alert → ∀ q ∈ more, q.frame ≠ .alert)
      ∧ (offered → a.admits .alert = true → ¬a.waits .alert → 6 ≤ a.link.queue.length →
          more = [] ∧ flagIn (settle (raise g a)).alerts.word .txqOverflow = true) := by
  have halert := hoff.trans (raised_work_alert g (by rw [hw]; rfl)).symm
  have hlink : (refreshLevels (drainTest (raise g a))).link = a.link := by simp
  have hadm : (refreshLevels (drainTest (raise g a))).admits .alert = a.admits .alert := by
    rw [admits_congr (a := drainTest (raise g a)) (by simp), drainTest_admits, admits_congr (a := a) (by simp)]
  have hwaits : (refreshLevels (drainTest (raise g a))).waits .alert ↔ a.waits .alert := by
    unfold State.waits State.unstarted
    rw [hlink]
  have hhail : a.ctl.drain = false → (refreshLevels (drainTest (raise g a))).work.hail = false := by
    intro h
    rw [refreshLevels_work_hail, drainTest_work_hail (by simpa using h), raise_work_hail, hw]
    rfl
  have hroom : a.link.queue.length + (if a.ctl.drain then 2 else 1) ≤ 6 →
      a.link.queue.length + (if (refreshLevels (drainTest (raise g a))).work.hail then 2 else 1) ≤ 6 := by
    cases hd : a.ctl.drain
    · rw [hhail hd]
      exact id
    · rw [if_pos rfl]
      split <;> omega
  obtain ⟨more, hq, hjoins, hnone, hfull⟩ :=
    flush_alert (s := refreshLevels (drainTest (raise g a))) (by simp [hw, Work.empty]) (by simp [hw, Work.empty])
  rw [hlink] at hq hjoins hfull
  rw [hadm, ← halert, hwaits] at hjoins hfull
  rw [hadm, hwaits, Bool.eq_false_iff, Bool.eq_false_iff, ne_eq, ne_eq, ← halert] at hnone
  rw [settle, tryStart_link_queue, tryStart_alerts]
  exact ⟨more, hq, fun ho hd hn hl => hjoins ho hd hn (hroom hl), hnone, hfull⟩

/-- Settles O48: BIN_CLEAR, CLEAR_ALERT_FLAGS and MASK, the level conditions, and the ALERT of a refusal. -/
theorem clearAndMask : Obligations.ClearAndMask := by
  unfold Obligations.ClearAndMask
  intro t h s hr hrx ha a k stands
  have hstands : ∀ (b : State) (f : AlertFlag), b.levelStands f = true ↔ stands b f := by
    intro b f
    cases f with
    | peerSilent => simp [State.levelStands, stands, mem_allNodes, standing_silent_iff]
    | peerDistrusted => simp [State.levelStands, stands, mem_allNodes]
    | indexDoubt => simp [State.levelStands, stands, mem_allNodes, standing_doubt_iff]
    | driftLimit => exact levelStands_driftLimit_iff b
    | driftStale => simp [State.levelStands, stands, State.locked, State.page, isStale_iff]
    | binFull => exact anyBinFull_iff b
    | _ => simp [State.levelStands, stands]
  have hctl : a.ctl = s.ctl := consoleState_ctl t h s
  have hrun : a.ctl.run = s.ctl.run := congrArg RunControl.run hctl
  have hal : a.alerts = s.alerts := consoleState_alerts t h s
  have hlisten : s.ctl.run = .listen → a.ctl.run = .listen := hrun.trans
  have hacts : s.ctl.run ≠ .listen → a.ctl.run ≠ .listen := fun hl => hrun ▸ hl
  refine ⟨hstands, fun page bin => ?binClear, fun named => ?flags, fun form => ?undefinedForm, fun word master => ?mask, rfl,
    fun f b => ⟨raise_set, raise_clear⟩, fun form hl hw => ?alert⟩
  case binClear =>
    refine ⟨_, event_obey_addressed hr hrx ha (clearBin page bin), fun hl => tail_of_eq (clearBin_listen (hlisten hl) page bin),
      fun hl hbad => tail_of_eq (clearBin_refused (hacts hl) hbad), fun p b hl hp hb => ?_⟩
    intro full
    obtain ⟨word, ht, hfull, hclear, hflag⟩ := clearBin_tail (hacts hl) hp hb (settle_tail (clearBin page bin a))
    rw [show a.gates = s.gates from consoleState_gates t h s, hal] at ht
    rw [hal] at hfull hclear
    exact ⟨word, ht, fun hf => hfull ((anyBinFull_iff _).mpr hf),
      fun hf => hclear (Bool.eq_false_iff.mpr (mt (anyBinFull_iff _).mp hf)), hflag⟩
  case flags =>
    refine ⟨_, event_obey_addressed hr hrx ha (clearFlags (.flags named)), fun hl => tail_of_eq (clearFlags_listen (hlisten hl) _),
      fun hl => ⟨clearWord a named, ?_, fun f => ?_⟩⟩
    · rw [← hal]
      exact tail_of_eq (clearFlags_named (hacts hl) named)
    · rw [flagIn_clearWord, hal]
  case undefinedForm =>
    exact ⟨_, event_obey_addressed hr hrx ha (clearFlags (.undefinedForm form)), fun hl => tail_of_eq (clearFlags_listen (hlisten hl) _),
      fun hl => tail_of_eq (clearFlags_undefinedForm (hacts hl) form)⟩
  case mask =>
    refine ⟨_, event_obey_addressed hr hrx ha (setMask word master), fun hl => tail_of_eq (setMask_listen (hlisten hl) word master), fun hl => ?_⟩
    have ht := tail_of_eq (setMask_eq (hacts hl) word master)
    have hpin := setMask_tail ((consoleState_resetHeld t h s).trans hr) ht
    rw [hrun] at hpin
    rw [hal] at ht
    exact ⟨ht, hpin⟩
  case alert =>
    intro rises offered admitted unstarted waits
    have hoff : offered ↔ a.ctl.items.broadcastAlerts = true
        ∧ ∃ f, (flagIn a.alerts.word f = false ∧ (f = .consoleError ∨ a.levelStands f = true)) ∧ flagIn a.alerts.mask f = true := by
      simp only [hstands, hal, hctl]
      rfl
    have hadm : a.admits .alert = true ↔ admitted := by rw [admits_alert_iff (hacts hl), hctl]
    obtain ⟨more, hq, hjoins, hnone, hfull⟩ := raised_offers_alert .consoleError (a := a) ((consoleState_work t h s).trans hw) hoff
    rw [hadm] at hjoins hnone hfull
    rw [hctl] at hjoins
    rw [← clearFlags_undefinedForm (hacts hl) form] at hq hfull
    exact ⟨_, more, event_obey_addressed hr hrx ha (clearFlags (.undefinedForm form)), hq, hjoins, hnone, hfull⟩

end Sys2Proof.Machine
end

section
/-! What the recipe frames make of a page, said once for each of them (R101 to R110). -/

namespace Sys2Proof.Machine

/-! ### Clamps and pages -/

theorem clampUnsigned_bounds {lo hi : Nat} (h : lo ≤ hi) (v : Dev) : lo ≤ clampUnsigned lo hi v ∧ clampUnsigned lo hi v ≤ hi := by
  unfold clampUnsigned
  split <;> omega

theorem locked_iff (s : State) (p : Fin 4) : s.locked p = true ↔ (s.pages[p]).state = .locked := by simp [State.locked, State.page]

theorem getElem_set_place {α : Type} (v : Vector α 4) (p n : Fin 4) (y : α) : (v.set p y)[n] = if p = n then y else v[n] := by
  by_cases h : p = n
  · subst h
    simp
  · have hne : p.val ≠ n.val := fun he => h (Fin.ext he)
    simp [h, hne]

@[simp] theorem setPage_pages (p : Fin 4) (x : Page) (s : State) : (setPage p x s).pages = s.pages.set p x := rfl

/-! ### The frame of a recipe command (R102) -/

@[simp] theorem consoleState_pages (t : Instant) (h : ConsoleHead) (s : State) : (consoleState t h s).pages = s.pages := by simp [consoleState]

theorem recipeFrame_ignored {s : State} (h : s.ctl.run = .listen ∨ s.ctl.run = .fault) (page : BitVec 4) (act : Fin 4 → State → State) :
    recipeFrame page act s = s := if_pos h

theorem recipeFrame_page {t : Instant} {h : ConsoleHead} {s : State} (hl : s.ctl.run ≠ .listen) (hf : s.ctl.run ≠ .fault) {page : BitVec 4}
    {p : Fin 4} (hp : page.toNat = p.val) (act : Fin 4 → State → State) : recipeFrame page act (consoleState t h s) = act p (consoleState t h s) := by
  rw [recipeFrame_eq hl hf, pageOfField_some hp]

theorem recipeFrame_noPage {t : Instant} {h : ConsoleHead} {s : State} (hl : s.ctl.run ≠ .listen) (hf : s.ctl.run ≠ .fault) {page : BitVec 4}
    (hp : 4 ≤ page.toNat) (act : Fin 4 → State → State) :
    recipeFrame page act (consoleState t h s) = raise .consoleError (consoleState t h s) := by
  rw [recipeFrame_eq hl hf, pageOfField_none hp]

/-- R105: a frame refused whatever page it names. -/
theorem recipeFrame_refused {t : Instant} {h : ConsoleHead} {s : State} (hl : s.ctl.run ≠ .listen) (hf : s.ctl.run ≠ .fault)
    {act : Fin 4 → State → State} (ha : ∀ p, act p (consoleState t h s) = raise .consoleError (consoleState t h s)) (page : BitVec 4) :
    recipeFrame page act (consoleState t h s) = raise .consoleError (consoleState t h s) := by
  rw [recipeFrame_eq hl hf]
  cases pageOfField page with
  | none => rfl
  | some p => exact ha p

/-- R102: in LISTEN and FAULT a recipe frame ends and does nothing. -/
theorem recipe_ignored {t : Instant} {h : ConsoleHead} {s : State} (hr : s.resetHeld = false) (hrx : s.link.rx.isSome = true)
    (ha : s.addressed h = true) (hrun : s.ctl.run = .listen ∨ s.ctl.run = .fault) (page : BitVec 4) (act : Fin 4 → State → State) :
    ∃ u, event t (obey h (recipeFrame page act)) s = .next u ∧ Tail (consoleState t h s) u :=
  ⟨_, event_obey_addressed hr hrx ha _, tail_of_eq (recipeFrame_ignored (by rwa [consoleState_ctl]) page act)⟩

/-! ### LOAD (R103 to R105) -/

/-- R103: a parameter that is written is one of the twelve, within its range, and bins, state and digest are not touched. -/
theorem writeParameter_ranges {field : BitVec 12} {v : Dev} {x y : Page} (h : writeParameter field v x = some y) :
    (x.range.toNat ≤ 6 → y.range.toNat ≤ 6) ∧ (1 ≤ x.gross.toNat → 1 ≤ y.gross.toNat) ∧ (1 ≤ x.tcrMinDt.toNat → 1 ≤ y.tcrMinDt.toNat)
      ∧ y.bins = x.bins ∧ y.digest = x.digest := by
  have hrange := clampUnsigned_bounds (lo := 0) (hi := 6) (by decide) v
  have hgross := clampUnsigned_bounds (lo := 1) (hi := 2047) (by decide) v
  have hdt := clampUnsigned_bounds (lo := 1) (hi := 4095) (by decide) v
  unfold writeParameter at h
  split at h
  case h_1 => cases h; exact ⟨fun _ => by rw [BitVec.toNat_ofNat]; omega, id, id, rfl, rfl⟩
  case h_4 => cases h; exact ⟨id, fun _ => by rw [BitVec.toNat_ofNat]; omega, id, rfl, rfl⟩
  case h_8 => cases h; exact ⟨id, id, fun _ => by rw [BitVec.toNat_ofNat]; omega, rfl, rfl⟩
  case h_13 => cases h
  all_goals cases h; exact ⟨id, id, id, rfl, rfl⟩

theorem writeParameter_undefined {field : BitVec 12} (h : field = 0 ∨ 13 ≤ field.toNat) (v : Dev) (x : Page) :
    writeParameter field v x = none := by
  unfold writeParameter
  split
  case h_13 => rfl
  all_goals
    rcases h with rfl | h
    · rename_i hf; cases hf
    · omega

theorem loadParameterPage_locked {s : State} {p : Fin 4} (h : (s.pages[p]).state = .locked) (field : BitVec 12) (v : Dev) :
    loadParameterPage field v p s = raise .consoleError s := if_pos ((locked_iff s p).mpr h)

theorem loadParameterPage_written {s : State} {p : Fin 4} (h : (s.pages[p]).state ≠ .locked) {field : BitVec 12} {v : Dev} {y : Page}
    (hy : writeParameter field v s.pages[p] = some y) : loadParameterPage field v p s = setPage p y.loading s := by
  rw [loadParameterPage, if_neg (mt (locked_iff s p).mp h), State.page, hy]

theorem loadParameterPage_undefined {s : State} {p : Fin 4} {field : BitVec 12} {v : Dev} (hy : writeParameter field v s.pages[p] = none) :
    loadParameterPage field v p s = raise .consoleError s := by
  rw [loadParameterPage, State.page, hy, ite_self]

theorem loadBinPage_locked {s : State} {p : Fin 4} (h : (s.pages[p]).state = .locked) (bin : BitVec 12) (lower upper : Dev) (gate : BitVec 12)
    (capacity : BitVec 16) (lo hi : Option Dev) : loadBinPage bin lower upper gate capacity lo hi p s = raise .consoleError s :=
  if_pos ((locked_iff s p).mpr h)

theorem loadBinPage_written {s : State} {p : Fin 4} (h : (s.pages[p]).state ≠ .locked) {bin : BitVec 12} {lo hi : Option Dev} {b : Fin 16}
    {w : Option (Dev × Dev)} (hb : binOfIndex bin.toNat = some b) (hw : windowOf lo hi = some w) (lower upper : Dev) (gate : BitVec 12)
    (capacity : BitVec 16) :
    loadBinPage bin lower upper gate capacity lo hi p s
      = setPage p
          { s.pages[p] with
            bins := insertBin { index := b, lower := lower, upper := upper, window := w, gate := clampGate gate.toNat, capacity := capacity }
              (s.pages[p]).bins }.loading s := by
  rw [loadBinPage, if_neg (mt (locked_iff s p).mp h), hb, hw]
  rfl

theorem loadBinPage_undefined {s : State} {p : Fin 4} {bin : BitVec 12} {lo hi : Option Dev}
    (h : binOfIndex bin.toNat = none ∨ windowOf lo hi = none) (lower upper : Dev) (gate : BitVec 12) (capacity : BitVec 16) :
    loadBinPage bin lower upper gate capacity lo hi p s = raise .consoleError s := by
  unfold loadBinPage
  rcases h with h | h
  · rw [h, ite_self]
  · rw [h]
    cases binOfIndex bin.toNat <;> exact ite_self _

theorem removeBinPage_locked {s : State} {p : Fin 4} (h : (s.pages[p]).state = .locked) (bin : BitVec 12) :
    removeBinPage bin p s = raise .consoleError s := if_pos ((locked_iff s p).mpr h)

theorem removeBinPage_removed {s : State} {p : Fin 4} (h : (s.pages[p]).state ≠ .locked) {bin : BitVec 12} {b : Fin 16}
    (hb : binOfIndex bin.toNat = some b) :
    removeBinPage bin p s = setPage p { s.pages[p] with bins := (s.pages[p]).bins.filter (fun y => y.index != b) }.loading s := by
  rw [removeBinPage, if_neg (mt (locked_iff s p).mp h), hb]
  rfl

theorem removeBinPage_undefined {s : State} {p : Fin 4} {bin : BitVec 12} (h : binOfIndex bin.toNat = none) :
    removeBinPage bin p s = raise .consoleError s := by
  rw [removeBinPage, h, ite_self]

/-! ### The bin list (R101, R104) -/

theorem mem_insertBin_self (b : Bin) (l : List Bin) : b ∈ insertBin b l := by
  induction l with
  | nil => exact List.mem_singleton.mpr rfl
  | cons x xs ih =>
    unfold insertBin
    split
    · exact List.mem_cons_of_mem x ih
    · split <;> exact List.mem_cons_self

theorem mem_insertBin {b y : Bin} {l : List Bin} (h : y ∈ insertBin b l) : y = b ∨ y ∈ l := by
  induction l with
  | nil => exact .inl (List.mem_singleton.mp h)
  | cons x xs ih =>
    unfold insertBin at h
    split at h
    · rcases List.mem_cons.mp h with rfl | h
      · exact .inr List.mem_cons_self
      · exact (ih h).imp id (List.mem_cons_of_mem x)
    · split at h
      · exact (List.mem_cons.mp h).imp id (List.mem_cons_of_mem x)
      · exact List.mem_cons.mp h

/-- R104: the bins of the other indices stay as they were, in their order. -/
theorem insertBin_others (b : Bin) (l : List Bin) :
    (insertBin b l).filter (fun x => x.index ≠ b.index) = l.filter (fun x => x.index ≠ b.index) := by
  induction l with
  | nil => simp [insertBin]
  | cons x xs ih =>
    unfold insertBin
    split
    · rw [List.filter_cons, List.filter_cons, ih]
    · split
      · rename_i he
        simp [he]
      · simp

theorem insertBin_sorted {b : Bin} {l : List Bin} (hl : l.Pairwise (fun x y => x.index < y.index)) :
    (insertBin b l).Pairwise (fun x y => x.index < y.index) := by
  induction l with
  | nil => exact List.pairwise_singleton _ _
  | cons x xs ih =>
    obtain ⟨hx, hxs⟩ := List.pairwise_cons.mp hl
    unfold insertBin
    split
    · rename_i hlt
      refine List.pairwise_cons.mpr ⟨fun y hy => ?_, ih hxs⟩
      rcases mem_insertBin hy with rfl | hy
      · exact hlt
      · exact hx y hy
    · split
      · rename_i he
        exact List.pairwise_cons.mpr ⟨fun y hy => he ▸ hx y hy, hxs⟩
      · rename_i hge hne
        have hlt : b.index < x.index := lt_of_le_of_ne (not_lt.mp hge) (Ne.symm hne)
        exact List.pairwise_cons.mpr ⟨fun y hy => (List.mem_cons.mp hy).elim (fun h => h ▸ hlt) (fun h => hlt.trans (hx y h)), hl⟩

/-- R101: a bin list in index order holds one bin of an index. -/
theorem insertBin_alone {b : Bin} {l : List Bin} (hl : l.Pairwise (fun x y => x.index < y.index)) :
    (insertBin b l).filter (fun x => x.index = b.index) = [b] := by
  have habove : ∀ m : List Bin, (∀ y ∈ m, b.index < y.index) → m.filter (fun x => x.index = b.index) = [] := fun m hm =>
    List.filter_eq_nil_iff.mpr fun y hy => by simpa using (hm y hy).ne'
  induction l with
  | nil => simp [insertBin]
  | cons x xs ih =>
    obtain ⟨hx, hxs⟩ := List.pairwise_cons.mp hl
    unfold insertBin
    split
    · rename_i hlt
      rw [List.filter_cons, if_neg (by simpa using hlt.ne), ih hxs]
    · split
      · rename_i he
        rw [List.filter_cons, if_pos (by simp), habove xs fun y hy => he ▸ hx y hy]
      · rename_i hge hne
        have hlt : b.index < x.index := lt_of_le_of_ne (not_lt.mp hge) (Ne.symm hne)
        rw [List.filter_cons, if_pos (by simp), habove]
        exact fun y hy => (List.mem_cons.mp hy).elim (fun h => h ▸ hlt) (fun h => hlt.trans (hx y h))

/-! ### LOCK and ERASE (R107, R109, R110) -/

theorem lockPage_empty {s : State} {p : Fin 4} (h : (s.pages[p]).state = .empty) (expected : BitVec 12) :
    lockPage expected p s = raise .consoleError s := by
  simp only [lockPage, State.page, h]

theorem lockPage_refused {s : State} {p : Fin 4} (h : (s.pages[p]).state ≠ .empty) {expected : BitVec 12}
    (hd : pageDigest p s.pages[p] ≠ expected) : lockPage expected p s = raise .pageLockRefused s := by
  simp only [lockPage, State.page]
  split
  next hst => exact absurd hst h
  all_goals exact if_neg hd

theorem lockPage_locks {s : State} {p : Fin 4} (h : (s.pages[p]).state = .loading) :
    lockPage (pageDigest p s.pages[p]) p s = setPage p { s.pages[p] with state := .locked, digest := pageDigest p s.pages[p] } s := by
  simp only [lockPage, State.page, h, if_pos]

theorem lockPage_again {s : State} {p : Fin 4} (h : (s.pages[p]).state = .locked) : lockPage (pageDigest p s.pages[p]) p s = s := by
  simp only [lockPage, State.page, h, if_pos]

theorem lockPage_locked_pages {s : State} {p : Fin 4} (h : (s.pages[p]).state = .locked) (expected : BitVec 12) :
    (lockPage expected p s).pages = s.pages := by
  by_cases hd : pageDigest p s.pages[p] = expected
  · rw [← hd, lockPage_again h]
  · rw [lockPage_refused (by rw [h]; decide) hd, raise_pages]

theorem erasePage_inUse {s : State} {p : Fin 4} (h : s.pageInUse p = true) : erasePage p s = raise .pageInUse s := if_pos h

theorem erasePage_free {s : State} {p : Fin 4} (h : s.pageInUse p = false) (hr : s.role ≠ some .sort) :
    erasePage p s = setPage p Page.cleared s := by
  rw [erasePage, if_neg (by rw [h]; decide)]
  exact if_neg hr

theorem erasePage_sort {s : State} {p : Fin 4} (h : s.pageInUse p = false) (hr : s.role = some .sort) :
    erasePage p s = clearPageTallies p (setPage p Page.cleared s) := by
  rw [erasePage, if_neg (by rw [h]; decide)]
  exact if_pos hr

end Sys2Proof.Machine
end

section
/-! Settles O54 and O58: what a command can do to the recipe pages and the drift slots, said once for all (R88 to R98, R100 to R110, R172, R179). -/

namespace Sys2Proof.Machine

/-! ### The changes of a command -/

/-- Recipe pages and drift slots are the same in both states. -/
structure SameStores (a b : State) : Prop where
  pages : b.pages = a.pages := by simp
  drift : b.drift = a.drift := by simp

/-- R103 to R107, R110: what a command writes over the page `x` of number `p`. -/
inductive PageWrite (c : Instr) (p : Fin 4) (x : Page) : Page → Prop
  | parameter {field : BitVec 12} {v : Dev} {y : Page} (hx : x.state ≠ .locked) (hy : writeParameter field v x = some y) : PageWrite c p x y.loading
  | bin (b : Bin) (hx : x.state ≠ .locked) : PageWrite c p x { x with bins := insertBin b x.bins }.loading
  | binRemoved (b : Fin 16) (hx : x.state ≠ .locked) : PageWrite c p x { x with bins := x.bins.filter (fun y => y.index != b) }.loading
  | lock (hx : x.state = .loading) : PageWrite c p x { x with state := .locked, digest := pageDigest p x }
  | erase {t : Instant} {h : ConsoleHead} {page : BitVec 4} (hc : c = .erase t h page) : PageWrite c p x Page.cleared

/-- The contents of a drift slot after a hard reset and a RESTART (R98). -/
def DriftSlot.cleared : DriftSlot := { baseline := none, ring := [], staleness := 0 }

/-- R90 to R92, R96, R98: what a command writes over the drift slots `v`. -/
inductive DriftWrite (v : Vector DriftSlot 4) : Vector DriftSlot 4 → Prop
  | aged : DriftWrite v (vmap countStale v)
  | checked (k : Fin 4) (x : Dev) : DriftWrite v (v.set k (acceptCheck x v[k]))
  | cleared : DriftWrite v (Vector.replicate 4 DriftSlot.cleared)

/-- What a command does to both: nothing, a write to one page, a write to the drift slots, or the hard reset of all. -/
inductive StoreChange (c : Instr) (a b : State) : Prop
  | kept (h : SameStores a b)
  | page (p : Fin 4) {y : Page} (hy : PageWrite c p a.pages[p] y) (h : SameStores (setPage p y a) b)
  | drift {d : Vector DriftSlot 4} (hd : DriftWrite a.drift d) (h : SameStores (a.withDrift d) b)
  | reset {t : Instant} {cause : HardCause} {node role : BitVec 3} {page : BitVec 2} (hc : c = .hardReset t cause node role page)
      (hp : b.pages = Vector.replicate 4 Page.cleared) (hd : b.drift = Vector.replicate 4 DriftSlot.cleared)

theorem SameStores.refl (a : State) : SameStores a a := ⟨rfl, rfl⟩

theorem SameStores.trans {a b c : State} (h₁ : SameStores a b) (h₂ : SameStores b c) : SameStores a c :=
  ⟨h₂.pages.trans h₁.pages, h₂.drift.trans h₁.drift⟩

/-- What comes before a change and after it, touching neither pages nor drift slots, is no part of it. -/
theorem StoreChange.within {c : Instr} {a b u v : State} (h₁ : SameStores a b) (h : StoreChange c b u) (h₂ : SameStores u v) :
    StoreChange c a v := by
  cases h with
  | kept h => exact .kept ((h₁.trans h).trans h₂)
  | page p hy h =>
    rw [h₁.pages] at hy
    exact .page p hy (.trans ⟨by simp [h₁.pages], by simp [h₁.drift]⟩ (h.trans h₂))
  | drift hd h =>
    rw [h₁.drift] at hd
    exact .drift hd (.trans ⟨by simp [h₁.pages], by simp⟩ (h.trans h₂))
  | reset hc hp hd => exact .reset hc (h₂.pages.trans hp) (h₂.drift.trans hd)

/-! ### The frame of a command -/

/-- The operation does to pages and drift slots what the command `c` can do to them. -/
def ChangesStores (c : Instr) (f : State → State) : Prop := ∀ s, StoreChange c s (f s)

theorem ChangesStores.event {c : Instr} {body : State → State} (hb : ChangesStores c body) {t : Instant} {s u : State}
    (he : event t body s = .next u) : StoreChange c s u := by
  have ha : SameStores s (advance t s) := {}
  cases he
  split
  · exact .kept ha
  · exact (hb _).within ha {}

theorem ChangesStores.takeFrame {c : Instr} {content : State → State} (hc : ChangesStores c content) (h : FrameHead) (hail : Option HailBody) :
    ChangesStores c (takeFrame h hail content) := by
  intro s
  unfold Machine.takeFrame actOnFrame
  split
  · split
    · exact (hc (endFrame (some h.sender) s)).within {} (.refl _)
    · split
      · exact .kept {}
      · refine (hc _).within ?_ (.refl _)
        exact {}
  · exact .kept {}

theorem ChangesStores.obey {c : Instr} {act : State → State} (ha : ChangesStores c act) (h : ConsoleHead) : ChangesStores c (obey h act) :=
  .takeFrame (fun s => by split <;> [exact ha s; exact .kept {}]) h.frame none

theorem changesStores_fromActiveSource {c : Instr} {content : Fin 8 → Role → State → State} (hc : ∀ n r a, SameStores a (content n r a))
    (h : FrameHead) : ChangesStores c (fromActiveSource h content) := fun s =>
  .kept ⟨fromActiveSource_pages h content s fun n r a => (hc n r a).pages, fromActiveSource_drift h content s fun n r a => (hc n r a).drift⟩

theorem changesStores_setupFrame {c : Instr} (b : Bool) {act : State → State} (ha : ∀ a, SameStores a (act a)) :
    ChangesStores c (setupFrame b act) := fun s =>
  .kept ⟨setupFrame_pages b act s fun a => (ha a).pages, setupFrame_drift b act s fun a => (ha a).drift⟩

theorem changesStores_muteFrame {c : Instr} {act : State → State} (ha : ∀ a, SameStores a (act a)) : ChangesStores c (muteFrame act) := fun s =>
  .kept ⟨muteFrame_pages act s fun a => (ha a).pages, muteFrame_drift act s fun a => (ha a).drift⟩

theorem changesStores_query {c : Instr} {reply : State → State} (hr : ∀ a, SameStores a (reply a)) : ChangesStores c (query reply) := fun s =>
  .kept ⟨query_pages reply s fun a => (hr a).pages, query_drift reply s fun a => (hr a).drift⟩

/-! ### The recipe frames -/

theorem ChangesStores.recipeFrame {c : Instr} {act : Fin 4 → State → State} (ha : ∀ p, ChangesStores c (act p)) (page : BitVec 4) :
    ChangesStores c (recipeFrame page act) := by
  intro s
  unfold Machine.recipeFrame
  split
  · exact .kept {}
  · split
    · exact .kept {}
    · exact ha _ s

theorem changesStores_loadParameter (c : Instr) (field : BitVec 12) (v : Dev) (p : Fin 4) : ChangesStores c (loadParameterPage field v p) := by
  intro s
  by_cases hst : (s.pages[p]).state = .locked
  · rw [loadParameterPage_locked hst]
    exact .kept {}
  · cases hy : writeParameter field v s.pages[p] with
    | none =>
      rw [loadParameterPage_undefined hy]
      exact .kept {}
    | some y =>
      rw [loadParameterPage_written hst hy]
      exact .page p (.parameter hst hy) {}

theorem changesStores_loadBin (c : Instr) (bin : BitVec 12) (lower upper : Dev) (gate : BitVec 12) (capacity : BitVec 16) (lo hi : Option Dev)
    (p : Fin 4) : ChangesStores c (loadBinPage bin lower upper gate capacity lo hi p) := by
  intro s
  by_cases hst : (s.pages[p]).state = .locked
  · rw [loadBinPage_locked hst]
    exact .kept {}
  · cases hb : binOfIndex bin.toNat with
    | none =>
      rw [loadBinPage_undefined (.inl hb)]
      exact .kept {}
    | some b =>
      cases hw : windowOf lo hi with
      | none =>
        rw [loadBinPage_undefined (.inr hw)]
        exact .kept {}
      | some w =>
        rw [loadBinPage_written hst hb hw]
        exact .page p (.bin _ hst) (.refl _)

theorem changesStores_removeBin (c : Instr) (bin : BitVec 12) (p : Fin 4) : ChangesStores c (removeBinPage bin p) := by
  intro s
  by_cases hst : (s.pages[p]).state = .locked
  · rw [removeBinPage_locked hst]
    exact .kept {}
  · cases hb : binOfIndex bin.toNat with
    | none =>
      rw [removeBinPage_undefined hb]
      exact .kept {}
    | some b =>
      rw [removeBinPage_removed hst hb]
      exact .page p (.binRemoved b hst) {}

theorem changesStores_lock (c : Instr) (expected : BitVec 12) (p : Fin 4) : ChangesStores c (lockPage expected p) := by
  intro s
  cases hst : (s.pages[p]).state with
  | empty =>
    rw [lockPage_empty hst]
    exact .kept {}
  | loading =>
    by_cases hd : pageDigest p s.pages[p] = expected
    · rw [← hd, lockPage_locks hst]
      exact .page p (.lock hst) {}
    · rw [lockPage_refused (by rw [hst]; decide) hd]
      exact .kept {}
  | locked => exact .kept ⟨lockPage_locked_pages hst expected, by simp⟩

theorem changesStores_erase {c : Instr} {t : Instant} {h : ConsoleHead} {page : BitVec 4} (hc : c = .erase t h page) (p : Fin 4) :
    ChangesStores c (erasePage p) := by
  intro s
  cases hu : s.pageInUse p with
  | true =>
    rw [erasePage_inUse hu]
    exact .kept {}
  | false =>
    by_cases hr : s.role = some .sort
    · rw [erasePage_sort hu hr]
      exact .page p (.erase hc) {}
    · rw [erasePage_free hu hr]
      exact .page p (.erase hc) {}

/-! ### The drift slots -/

/-- R96: an index event ages the slots of a station that measures with standards. -/
theorem changesStores_index (c : Instr) (pins : BitVec 2) : ChangesStores c (indexEffect pins) := by
  intro s
  have hage : ChangesStores c ageStandards := by
    intro a
    unfold ageStandards
    split
    all_goals first | exact .drift .aged (.refl _) | exact .kept (.refl _)
  exact (hage (ageQueue (samplePage pins (markEdge (countEdge s))))).within {} { drift := by simp [indexEffect] }

/-- R90: a CHECK measurement that completes enters the slot; no other measurement does. -/
theorem changesStores_temperature (c : Instr) (reading : BitVec 12) : ChangesStores c (endTemperature reading) := by
  intro s
  have hcheck : ∀ (d : Ctx) (f v : Pair) (b : State), StoreChange c b (deliverCheck d f v b) := by
    intro d f v b
    unfold deliverCheck
    dsimp only
    split
    · exact .kept {}
    · exact .kept {}
    · exact .drift (.checked _ _) (.refl _)
  have hstage : ∀ (tag : BitVec 16) (st : OwnStage) (b : State), SameStores b (setStage tag st b) := fun _ _ _ => {}
  unfold endTemperature computeRelease
  dsimp only
  split
  · exact .kept {}
  · split
    · refine (hcheck _ _ _ _).within ?_ (hstage _ _ _)
      exact {}
    · exact .kept {}
    · exact .kept {}

/-- R98, R179: RESTART clears the slots and keeps the pages. -/
theorem changesStores_restart (c : Instr) : ChangesStores c restartStation := by
  intro s
  unfold restartStation
  dsimp only
  split
  · exact .kept {}
  · refine .drift .cleared ?_
    split <;> exact { drift := by simp [restartClears, clearRecords, DriftSlot.cleared] }

/-! ### Every command -/

/-- What a command can do to the pages and the drift slots. -/
theorem exec_stores {c : Instr} {s u : State} (he : exec c s = .next u) : StoreChange c s u := by
  have same {c : Instr} {body : State → State} (hb : ∀ a, SameStores a (body a)) : ChangesStores c body := fun a => .kept (hb a)
  cases c with
  | indexEvent t pins =>
    cases he
    split
    · exact (changesStores_index _ pins (advance t s)).within {} {}
    · exact .kept {}
  | resetAssert t => cases he; exact .kept {}
  | hardReset t cause node role page =>
    cases he
    exact .reset rfl (by simp [clearAll, State.cleared]) (by simp [clearAll, State.cleared, DriftSlot.cleared])
  | temperatureSampleEnd t r => exact (changesStores_temperature _ r).event he
  | entryReceived t hd b => exact ((changesStores_fromActiveSource (fun _ _ _ => {}) hd).takeFrame hd none).event he
  | valueReceived t hd b => exact ((changesStores_fromActiveSource (fun _ _ _ => {}) hd).takeFrame hd none).event he
  | verdictReceived t hd b => exact ((changesStores_fromActiveSource (fun _ _ _ => {}) hd).takeFrame hd none).event he
  | hailReceived t hd b => exact ((same SameStores.refl).takeFrame hd _).event he
  | alertFrameReceived t hd w => exact ((same SameStores.refl).takeFrame hd _).event he
  | statusReceived t hd b => exact ((same SameStores.refl).takeFrame hd _).event he
  | run t hd => exact ((same fun _ => {}).obey hd).event he
  | halt t hd m => exact ((same fun _ => {}).obey hd).event he
  | drain t hd => exact ((same fun _ => {}).obey hd).event he
  | setup t hd item v => exact ((changesStores_setupFrame _ fun _ => {}).obey hd).event he
  | setupPosition t hd v => exact ((changesStores_setupFrame _ fun _ => {}).obey hd).event he
  | setupGatePos t hd g v => exact ((changesStores_setupFrame _ fun _ => {}).obey hd).event he
  | done t hd v => exact ((changesStores_setupFrame _ fun _ => {}).obey hd).event he
  | loadParameter t hd page field v => exact ((ChangesStores.recipeFrame (changesStores_loadParameter _ field v) page).obey hd).event he
  | loadBin t hd page bin lower upper gate capacity lo hi =>
    exact ((ChangesStores.recipeFrame (changesStores_loadBin _ bin lower upper gate capacity lo hi) page).obey hd).event he
  | loadBinRemove t hd page bin => exact ((ChangesStores.recipeFrame (changesStores_removeBin _ bin) page).obey hd).event he
  | lock t hd page digest => exact ((ChangesStores.recipeFrame (changesStores_lock _ digest) page).obey hd).event he
  | erase t hd page => exact ((ChangesStores.recipeFrame (changesStores_erase rfl) page).obey hd).event he
  | binClear t hd page bin => exact ((same fun _ => {}).obey hd).event he
  | clearAlertFlags t hd form => exact ((same fun _ => {}).obey hd).event he
  | mask t hd word master => exact ((same fun _ => {}).obey hd).event he
  | mute t hd => exact ((changesStores_muteFrame fun _ => {}).obey hd).event he
  | unmute t hd => exact ((changesStores_muteFrame fun _ => {}).obey hd).event he
  | restart t hd => exact ((changesStores_restart _).obey hd).event he
  | queryState t hd item arg => exact ((changesStores_query fun _ => {}).obey hd).event he
  | queryAlertWord t hd arg => exact ((changesStores_query fun _ => {}).obey hd).event he
  | queryPeerRow t hd arg => exact ((changesStores_query fun _ => {}).obey hd).event he
  | queryBinTally t hd arg page bin => exact ((changesStores_query fun _ => {}).obey hd).event he
  | queryReasonTally t hd arg => exact ((changesStores_query fun _ => {}).obey hd).event he
  | queryEntry t hd arg tag => exact ((changesStores_query fun _ => {}).obey hd).event he
  | queryDriftSlot t hd arg => exact ((changesStores_query fun _ => {}).obey hd).event he
  | _ => exact (same fun _ => {}).event he

/-! ### O54 -/

/-- R100, R107: whatever is written over a sound page is sound. -/
theorem PageWrite.pageOk {c : Instr} {p : Fin 4} {x y : Page} (h : PageWrite c p x y) (hx : PageOk p x) : PageOk p y := by
  obtain ⟨hrange, hgross, hdt, hbins, hdigest⟩ := hx
  cases h with
  | parameter hst hy =>
    obtain ⟨hr, hg, hd, hb, he⟩ := writeParameter_ranges hy
    rw [if_neg hst] at hdigest
    exact ⟨hr hrange, hg hgross, hd hdt, hb ▸ hbins, he.trans hdigest⟩
  | bin b hst =>
    rw [if_neg hst] at hdigest
    exact ⟨hrange, hgross, hdt, insertBin_sorted hbins, hdigest⟩
  | binRemoved b hst =>
    rw [if_neg hst] at hdigest
    exact ⟨hrange, hgross, hdt, hbins.filter _, hdigest⟩
  | lock => exact ⟨hrange, hgross, hdt, hbins, rfl⟩
  | erase => exact pageOk_cleared p

theorem StoreChange.recipeOk {c : Instr} {s u : State} (h : StoreChange c s u) (hs : RecipeOk s) : RecipeOk u := by
  intro n
  cases h with
  | kept h =>
    rw [h.pages]
    exact hs n
  | page p hy h =>
    rw [h.pages, setPage_pages, getElem_set_place]
    split
    · subst n
      exact hy.pageOk (hs p)
    · exact hs n
  | drift hd h =>
    rw [h.pages]
    exact hs n
  | reset hc hp =>
    rw [hp, Fin.getElem_fin, Vector.getElem_replicate]
    exact pageOk_cleared n

/-- R88, R92, R96: a sound slot. -/
def SlotOk (d : DriftSlot) : Prop := d.ring.length ≤ 4 ∧ d.staleness ≤ 256 ∧ (d.baseline = none → d.ring = [])

theorem slotOk_cleared : SlotOk DriftSlot.cleared := ⟨Nat.zero_le _, Nat.zero_le _, fun _ => rfl⟩

/-- R91, R92: a fifth sample pushes the oldest out. -/
theorem slotOk_acceptCheck (x : Dev) {d : DriftSlot} (h : SlotOk d) : SlotOk (acceptCheck x d) := by
  obtain ⟨hring, -, -⟩ := h
  cases hb : d.baseline with
  | none =>
    rw [acceptCheck_first x hb]
    exact ⟨by simp, Nat.zero_le _, by simp⟩
  | some base =>
    rw [acceptCheck_later x hb]
    refine ⟨?_, Nat.zero_le _, by simp⟩
    dsimp only
    split
    · simpa using hring
    · omega

theorem slotOk_countStale {d : DriftSlot} (h : SlotOk d) : SlotOk (countStale d) := ⟨h.1, Nat.min_le_left _ _, h.2.2⟩

theorem DriftWrite.slotOk {v w : Vector DriftSlot 4} (h : DriftWrite v w) (hv : ∀ k : Fin 4, SlotOk v[k]) (k : Fin 4) : SlotOk w[k] := by
  cases h with
  | aged => simpa [vmap] using slotOk_countStale (hv k)
  | checked j x =>
    rw [getElem_set_place]
    split
    · exact slotOk_acceptCheck x (hv j)
    · exact hv k
  | cleared =>
    rw [Fin.getElem_fin, Vector.getElem_replicate]
    exact slotOk_cleared

theorem StoreChange.driftOk {c : Instr} {s u : State} (h : StoreChange c s u) (hs : DriftOk s) : DriftOk u := by
  intro k
  cases h with
  | kept h =>
    rw [h.drift]
    exact hs k
  | page p hy h =>
    rw [h.drift]
    exact hs k
  | drift hd h =>
    rw [h.drift]
    exact hd.slotOk hs k
  | reset hc hp hd =>
    rw [hd, Fin.getElem_fin, Vector.getElem_replicate]
    exact slotOk_cleared

/-- A step takes the front command of the queue; an idle step changes no more than a RESET_ASSERT would. -/
theorem step_stores {s u : State} (he : step s = .next u) : ∃ c, StoreChange c s u := by
  unfold step at he
  split at he
  · cases he
    exact ⟨.resetAssert s.now, .kept (.refl s)⟩
  · rename_i c rest _
    exact ⟨c, (exec_stores he).within {} (.refl u)⟩

/-- Settles O54: every write to a page or a drift slot leaves it sound. -/
theorem stepKeepsRecipe : Obligations.StepKeepsRecipe := by
  unfold Obligations.StepKeepsRecipe
  refine ⟨fun s u hs he => ?_, fun s u hs he => ?_⟩
  · obtain ⟨c, h⟩ := step_stores he
    exact h.recipeOk hs
  · obtain ⟨c, h⟩ := step_stores he
    exact h.driftOk hs

/-! ### O58 -/

/-- R108: over a LOCKED page only ERASE writes. -/
theorem PageWrite.unlocked {c : Instr} {p : Fin 4} {x y : Page} (h : PageWrite c p x y) (hx : x.state = .locked) :
    ∃ t hd page, c = .erase t hd page := by
  cases h with
  | parameter hst => exact absurd hx hst
  | bin b hst => exact absurd hx hst
  | binRemoved b hst => exact absurd hx hst
  | lock hst => rw [hx] at hst; cases hst
  | erase hc => exact ⟨_, _, _, hc⟩

theorem StoreChange.locked_stays {c : Instr} {s u : State} {p : Fin 4} (h : StoreChange c s u) (hp : (s.pages[p]).state = .locked)
    (herase : ∀ t h page, c ≠ .erase t h page) (hreset : ∀ t cause node role page, c ≠ .hardReset t cause node role page) :
    u.pages[p] = s.pages[p] := by
  cases h with
  | kept h => rw [h.pages]
  | page q hy h =>
    rw [h.pages, setPage_pages, getElem_set_place, if_neg]
    rintro rfl
    obtain ⟨t, hd, page, hc⟩ := hy.unlocked hp
    exact herase t hd page hc
  | drift hd h => rw [h.pages]; rfl
  | reset hc => exact absurd hc (hreset _ _ _ _ _)

/-- R105: what is seen of a recipe frame that is refused. -/
theorem locked_refuses {t : Instant} {h : ConsoleHead} {page : BitVec 4} {p : Fin 4} {s : State} (hr : s.resetHeld = false)
    (hrx : s.link.rx.isSome = true) (ha : s.addressed h = true) (hl : s.ctl.run ≠ .listen) (hf : s.ctl.run ≠ .fault) (hp : page.toNat = p.val)
    {act : Fin 4 → State → State} (hact : act p (consoleState t h s) = raise .consoleError (consoleState t h s)) :
    ∃ u, event t (obey h (recipeFrame page act)) s = .next u ∧ u.pages = s.pages ∧ flagIn u.alerts.word .consoleError = true
      ∧ (s.alerts.master = true → flagIn s.alerts.mask .consoleError = true → u.assertsAlert = true) := by
  have ht := settle_tail (recipeFrame page act (consoleState t h s))
  rw [recipeFrame_page hl hf hp, hact] at ht
  have hword : flagIn (settle (raise .consoleError (consoleState t h s))).alerts.word .consoleError = true := by
    rw [ht.flags _ (by decide), raise_flag]
    simp
  refine ⟨_, event_obey_addressed hr hrx ha _, ?_⟩
  rw [recipeFrame_page hl hf hp, hact]
  refine ⟨by simp, hword, fun hmaster hmask => ?_⟩
  rw [assertsAlert_iff (by simpa using hr)]
  exact .inr ⟨by simpa using hmaster, .consoleError, hword, by simpa using hmask⟩

/-- Settles O58: a LOCKED page is written by ERASE alone, LOAD for it is refused, and LOCK leaves it. -/
theorem lockedPageStays : Obligations.LockedPageStays := by
  unfold Obligations.LockedPageStays
  refine ⟨fun c s u p he hp herase hreset => (exec_stores he).locked_stays hp herase hreset, ?_⟩
  intro t h page p s hr hrx ha hl hf hp hlocked refuses
  have hst : ((consoleState t h s).pages[p]).state = .locked := by rwa [consoleState_pages]
  refine ⟨fun field v => locked_refuses hr hrx ha hl hf hp (loadParameterPage_locked hst field v),
    fun bin lower upper gate capacity lo hi => locked_refuses hr hrx ha hl hf hp (loadBinPage_locked hst bin lower upper gate capacity lo hi),
    fun bin => locked_refuses hr hrx ha hl hf hp (removeBinPage_locked hst bin), fun digest => ?_⟩
  refine ⟨_, event_obey_addressed hr hrx ha _, ?_⟩
  rw [settle_pages, recipeFrame_page hl hf hp, lockPage_locked_pages hst, consoleState_pages]

end Sys2Proof.Machine
end

section
/-! Settles O46 and O47: LOAD with its clamps and refusals, the digest, LOCK and ERASE (R102 to R110, R133). -/

namespace Sys2Proof.Machine

/-! ### LOAD (O46) -/

theorem clampGate_eq_ofNat (n : Nat) : clampGate n = Fin.ofNat 17 (min 16 n) :=
  Fin.ext (Nat.mod_eq_of_lt (show min 16 n < 17 by omega)).symm

/-- R103: a gate parameter. -/
theorem clampGate_clampUnsigned (v : Dev) : clampGate (clampUnsigned 0 16 v) = Fin.ofNat 17 (clampUnsigned 0 16 v) := by
  rw [clampGate_eq_ofNat, Nat.min_eq_right (clampUnsigned_bounds (by decide) v).2]

theorem setPage_console (t : Instant) (h : ConsoleHead) (s : State) (p : Fin 4) (x : Page) :
    setPage p x (consoleState t h s) = (consoleState t h s).withPages (s.pages.set p x) := by
  rw [setPage, consoleState_pages]

theorem windowOf_map (w : Option (Dev × Dev)) : windowOf (w.map Prod.fst) (w.map Prod.snd) = some w := by cases w <;> rfl

/-- R105: one TCR limit alone makes no window. -/
theorem windowOf_none {lo hi : Option Dev} (h : lo.isSome ≠ hi.isSome) : windowOf lo hi = none := by
  cases lo <;> cases hi <;> simp [windowOf] at h ⊢

theorem binOfIndex_outside {bin : BitVec 12} (h : bin = 0 ∨ 17 ≤ bin.toNat) : binOfIndex bin.toNat = none :=
  binOfIndex_none (h.imp_left fun h0 => by rw [h0]; rfl)

/-- Settles O46: each LOAD by station state, page and operands. -/
theorem loadPage : Obligations.LoadPage := by
  unfold Obligations.LoadPage
  intro t h page s hr hrx ha a refused unsigned pageIs
  refine ⟨fun hrun => ⟨fun field v => recipe_ignored hr hrx ha hrun page _,
      fun bin lower upper gate capacity lo hi => recipe_ignored hr hrx ha hrun page _, fun bin => recipe_ignored hr hrx ha hrun page _⟩,
    fun hl hf => ⟨fun field v => ?parameter, fun bin lower upper gate capacity lo hi => ?bin, fun bin => ?remove⟩⟩
  all_goals have hst : ∀ p : Fin 4, (a.pages[p]).state = (s.pages[p]).state := fun p => by rw [consoleState_pages]
  case parameter =>
    refine ⟨_, event_obey_addressed hr hrx ha _, fun hbad => tail_of_eq ?undefined,
      fun p hp => ⟨fun hlocked => tail_of_eq ?locked, fun hfree => ?written⟩⟩
    case undefined =>
      rcases hbad with hpage | hfield
      · exact recipeFrame_noPage hl hf hpage _
      · exact recipeFrame_refused hl hf (fun p => loadParameterPage_undefined (writeParameter_undefined hfield v _)) page
    case locked => rw [recipeFrame_page hl hf hp, loadParameterPage_locked ((hst p).trans hlocked)]
    case written =>
      intro x
      have key {y : Page} (hy : writeParameter field v x = some y) :
          Tail (pageIs p y) (settle (recipeFrame page (loadParameterPage field v) a)) := by
        refine tail_of_eq ?_
        rw [recipeFrame_page hl hf hp, loadParameterPage_written (y := y) (by rwa [hst]) (by rwa [consoleState_pages]), setPage_console]
        rfl
      have hgate : Fin.ofNat 17 (unsigned v 0 16) = clampGate (clampUnsigned 0 16 v) := (clampGate_clampUnsigned v).symm
      rw [hgate]
      refine ⟨?_, ?_, ?_, ?_, ?_, ?_, ?_, ?_, ?_, ?_, ?_, ?_⟩
      all_goals rintro rfl; exact key rfl
  case bin =>
    refine ⟨_, event_obey_addressed hr hrx ha _, fun hbad => tail_of_eq ?undefined, fun p hp hlocked => tail_of_eq ?locked,
      fun p b hp hfree hb => ?written⟩
    case undefined =>
      rcases hbad with hpage | h0 | h17 | hlimits
      · exact recipeFrame_noPage hl hf hpage _
      · exact recipeFrame_refused hl hf (fun p => loadBinPage_undefined (.inl (binOfIndex_outside (.inl h0))) lower upper gate capacity) page
      · exact recipeFrame_refused hl hf (fun p => loadBinPage_undefined (.inl (binOfIndex_outside (.inr h17))) lower upper gate capacity) page
      · exact recipeFrame_refused hl hf (fun p => loadBinPage_undefined (.inr (windowOf_none hlimits)) lower upper gate capacity) page
    case locked => rw [recipeFrame_page hl hf hp, loadBinPage_locked ((hst p).trans hlocked)]
    case written =>
      rintro window rfl rfl new bins
      refine ⟨tail_of_eq ?_, mem_insertBin_self new _, insertBin_others new _,
        fun hsorted => ⟨insertBin_sorted hsorted, insertBin_alone (b := new) hsorted⟩⟩
      rw [recipeFrame_page hl hf hp, loadBinPage_written (by rwa [hst]) (binOfIndex_some hb) (windowOf_map window), setPage_console,
        consoleState_pages, clampGate_eq_ofNat]
      rfl
  case remove =>
    refine ⟨_, event_obey_addressed hr hrx ha _, fun hbad => tail_of_eq ?undefined, fun p hp hlocked => tail_of_eq ?locked,
      fun p b hp hfree hb => tail_of_eq ?removed⟩
    case undefined =>
      rcases hbad with hpage | hbin
      · exact recipeFrame_noPage hl hf hpage _
      · exact recipeFrame_refused hl hf (fun p => removeBinPage_undefined (binOfIndex_outside hbin)) page
    case locked => rw [recipeFrame_page hl hf hp, removeBinPage_locked ((hst p).trans hlocked)]
    case removed =>
      rw [recipeFrame_page hl hf hp, removeBinPage_removed (by rwa [hst]) (binOfIndex_some hb), setPage_console, consoleState_pages]
      simp only [ne_eq, decide_not]
      rfl

/-! ### The digest (R106) -/

/-- The cells added up as numbers. -/
def cellSum (cs : List Cell) : Nat := (cs.map BitVec.toNat).sum

/-- R106, R139: the sum modulo 4096 is that of the numbers. -/
theorem checkCell_eq_cellSum (cs : List Cell) : checkCell cs = BitVec.ofNat 12 (cellSum cs) := by
  have hfold : ∀ a : Cell, cs.foldl (· + ·) a = BitVec.ofNat 12 (a.toNat + cellSum cs) := by
    induction cs with
    | nil => intro a; simp [cellSum]
    | cons c cs ih =>
      intro a
      rw [List.foldl_cons, ih]
      apply BitVec.eq_of_toNat_eq
      simp [cellSum, Nat.add_assoc]
  simpa [checkCell] using hfold 0

@[simp] theorem cellSum_nil : cellSum [] = 0 := rfl

@[simp] theorem cellSum_cons (c : Cell) (cs : List Cell) : cellSum (c :: cs) = c.toNat + cellSum cs := by simp [cellSum]

@[simp] theorem cellSum_append (as bs : List Cell) : cellSum (as ++ bs) = cellSum as + cellSum bs := by simp [cellSum]

@[simp] theorem cellSum_flatten (l : List (List Cell)) : cellSum l.flatten = (l.map cellSum).sum := by
  induction l with
  | nil => rfl
  | cons cs l ih => simp [ih]

/-- R106: the two cells of a magnitude. -/
def magSum (m : BitVec 23) : Nat := m.toNat / 4096 + m.toNat % 4096

/-- R106: the two cells of a signed pair. -/
def signedSum (d : Dev) : Nat := (if d.neg then 2048 else 0) + magSum d.mag

/-- R106: the cells of a bin. -/
def binSum (b : Bin) : Nat :=
  b.index.val + 1 + (if b.window.isSome then 1 else 0) + signedSum b.lower + signedSum b.upper
    + (match b.window with | some w => signedSum w.1 + signedSum w.2 | none => 0) + b.gate.val + b.capacity.toNat / 4096
    + b.capacity.toNat % 4096

/-- R106: the cells of a page. -/
def pageSum (n : Fin 4) (p : Page) : Nat :=
  n.val + p.range.toNat + p.gain.toNat + p.stdSlot.val + p.gross.toNat + magSum p.guardBand + magSum p.agreeLimit
    + signedSum p.tcrDefault + p.tcrMinDt.toNat + (if p.tcrRequired then 1 else 0) + p.rejectGate.val + p.reworkGate.val
    + p.overflowGate.val + (p.bins.map binSum).sum

theorem toNat_append_eq_add {m n : Nat} (x : BitVec m) (y : BitVec n) : (x ++ y).toNat = x.toNat * 2 ^ n + y.toNat := by
  rw [BitVec.toNat_append, ← Nat.shiftLeft_add_eq_or_of_lt y.isLt, Nat.shiftLeft_eq]

@[simp] theorem cellSum_signedPair (d : Dev) : cellSum (signedPair d) = signedSum d := by
  have hm := d.mag.isLt
  have hneg : (BitVec.ofBool d.neg).toNat * 2 ^ 11 = if d.neg then 2048 else 0 := by cases d.neg <;> rfl
  simp only [signedPair, cellSum_cons, cellSum_nil, toNat_append_eq_add, BitVec.extractLsb'_toNat, hneg, signedSum, magSum]
  omega

@[simp] theorem cellSum_unsignedPair (m : BitVec 23) : cellSum (unsignedPair m) = magSum m := by
  simp [unsignedPair, signedSum]

@[simp] theorem cellSum_countPair (v : BitVec 16) : cellSum (countPair v) = v.toNat / 4096 + v.toNat % 4096 := by
  have hv := v.isLt
  simp only [countPair, cellSum_cons, cellSum_nil, toNat_append_eq_add, BitVec.extractLsb'_toNat, BitVec.toNat_ofNat]
  omega

theorem cellSum_binCells (b : Bin) : cellSum (binCells b) = binSum b := by
  have hi := b.index.isLt
  have hg := b.gate.isLt
  have hpresent : (if b.window.isSome then 1 else 0 : Cell).toNat = if b.window.isSome then 1 else 0 := by cases b.window <;> rfl
  simp only [binCells, binSum, binIndex, cellSum_append, cellSum_cons, cellSum_nil, cellSum_signedPair, cellSum_countPair, hpresent,
    BitVec.toNat_ofNat]
  cases b.window with
  | none => simp only [cellSum_nil]; omega
  | some w => simp only [cellSum_append, cellSum_signedPair]; omega

theorem cellSum_digestCells (n : Fin 4) (p : Page) : cellSum (digestCells n p) = pageSum n p := by
  have hn := n.isLt
  have hslot := p.stdSlot.isLt
  have hreject := p.rejectGate.isLt
  have hrework := p.reworkGate.isLt
  have hoverflow := p.overflowGate.isLt
  have hreq : (if p.tcrRequired then 1 else 0 : Cell).toNat = if p.tcrRequired then 1 else 0 := by cases p.tcrRequired <;> rfl
  have hbins : (p.bins.map binCells).map cellSum = p.bins.map binSum := by simp [cellSum_binCells]
  simp only [digestCells, cellSum_append, cellSum_flatten, cellSum_cons, cellSum_nil, hreq, hbins, pageSum, cellSum_signedPair, cellSum_unsignedPair,
    BitVec.toNat_ofNat, BitVec.toNat_setWidth]
  omega

/-- R106: the digest, a sum of 0 taken as 4095. -/
theorem pageDigest_eq (n : Fin 4) (p : Page) : pageDigest n p = if pageSum n p % 4096 = 0 then 4095 else BitVec.ofNat 12 (pageSum n p) := by
  have hzero : BitVec.ofNat 12 (pageSum n p) = 0 ↔ pageSum n p % 4096 = 0 := by
    rw [← BitVec.toNat_inj]
    simp
  rw [pageDigest, checkCell_eq_cellSum, cellSum_digestCells]
  simp only [hzero]

/-! ### LOCK and ERASE (O47) -/

/-- R109: what refers to a page. -/
theorem pageInUse_iff (s : State) (p : Fin 4) :
    s.pageInUse p = true
      ↔ (∃ e ∈ s.table.entries, ∃ st, e.stamp = some st ∧ st.page = p) ∨ (∃ f ∈ s.gates.firings, f.page = some p)
        ∨ ∃ c, s.eng.ctx = some c ∧ c.stamp.page = p := by
  unfold State.pageInUse
  rw [Bool.or_eq_true, Bool.or_eq_true, or_assoc, List.any_eq_true, List.any_eq_true]
  refine or_congr (exists_congr fun e => and_congr_right fun _ => ?_) (or_congr (by simp) ?_)
  · cases e.stamp <;> simp
  · cases s.eng.ctx <;> simp

/-- R133: BIN_FULL where a command's last act is to clear it when no bin is full. -/
theorem settleBinFull_tail {b u : State} (ht : Tail (settleBinFull b) u) :
    ∃ word, Tail (b.withAlerts { b.alerts with word := word }) u
      ∧ (u.anyBinFull = true → word = b.alerts.word) ∧ (u.anyBinFull = false → word = b.alerts.word &&& ~~~AlertFlag.binFull.bit) := by
  obtain ⟨word, hx, hfull, hclear⟩ := settleBinFull_word b
  rw [hx] at ht
  have hu : u.anyBinFull = b.anyBinFull := anyBinFull_congr ht.pages (by rw [ht.gates]; rfl)
  rw [hu]
  exact ⟨word, ht, hfull, hclear⟩

/-- R110, R133: an ERASE on a SORT station. -/
theorem erasePage_tail {t : Instant} {h : ConsoleHead} {s u : State} {p : Fin 4} (hu : (consoleState t h s).pageInUse p = false)
    (hrole : (consoleState t h s).role = some .sort) (ht : Tail (erasePage p (consoleState t h s)) u) :
    ∃ word,
      Tail
          ((((consoleState t h s).withPages (s.pages.set p Page.cleared)).withGates
              { s.gates with binTallies := s.gates.binTallies.set p (Vector.replicate 16 0) }).withAlerts { s.alerts with word := word }) u
        ∧ (u.anyBinFull = true → word = s.alerts.word) ∧ (u.anyBinFull = false → word = s.alerts.word &&& ~~~AlertFlag.binFull.bit) := by
  rw [erasePage_sort hu hrole, setPage_console, clearPageTallies] at ht
  have hend := settleBinFull_tail ht
  simp only [State.withPages_gates, State.withGates_alerts, State.withPages_alerts, consoleState_gates, consoleState_alerts] at hend
  exact hend

/-- Settles O47: the digest, and LOCK and ERASE by station state, page state and use. -/
theorem lockAndErase : Obligations.LockAndErase := by
  unfold Obligations.LockAndErase
  intro t h p s hr hrx ha a page x unsigned signed ofBin cells d inUse erased
  have hd : pageDigest p x = d := pageDigest_eq p x
  have hx : a.pages[p] = x := by rw [consoleState_pages]
  have hpage : page.toNat = p.val := Nat.mod_eq_of_lt (show p.val < 16 by omega)
  have huse : a.pageInUse p = true ↔ inUse := by
    rw [pageInUse_consoleState]
    exact pageInUse_iff s p
  have hfree : ¬inUse → a.pageInUse p = false := fun hout => Bool.eq_false_iff.mpr (mt huse.mp hout)
  have hrole : a.role = roleOfCode s.ctl.role := by rw [State.role, consoleState_ctl]
  refine ⟨hd, fun field expected =>
      ⟨fun hrun => ⟨recipe_ignored hr hrx ha hrun field _, recipe_ignored hr hrx ha hrun field _⟩, fun hl hf hfield => ?noPage⟩,
    fun hl hf => ⟨fun expected => ?lock, ?erase⟩⟩
  case noPage =>
    exact ⟨⟨_, event_obey_addressed hr hrx ha _, tail_of_eq (recipeFrame_noPage hl hf hfield _)⟩,
      ⟨_, event_obey_addressed hr hrx ha _, tail_of_eq (recipeFrame_noPage hl hf hfield _)⟩⟩
  case lock =>
    refine ⟨_, event_obey_addressed hr hrx ha _, ?_⟩
    rw [recipeFrame_page hl hf hpage]
    refine ⟨fun hst => tail_of_eq (lockPage_empty (by rwa [hx]) expected),
      fun hst hne => tail_of_eq (lockPage_refused (by rwa [hx]) (by rwa [hx, hd])), ?_, ?_⟩
    · rintro hst rfl
      refine tail_of_eq ?_
      have h := lockPage_locks (s := a) (p := p) (by rwa [hx])
      rwa [hx, hd, setPage_console] at h
    · rintro hst rfl
      refine tail_of_eq ?_
      have h := lockPage_again (s := a) (p := p) (by rwa [hx])
      rwa [hx, hd] at h
  case erase =>
    refine ⟨_, event_obey_addressed hr hrx ha _, ?_⟩
    rw [recipeFrame_page hl hf hpage]
    refine ⟨fun hin => tail_of_eq (erasePage_inUse (huse.mpr hin)), fun hout hne => tail_of_eq ?_, fun hout hsort => ?_⟩
    · rw [erasePage_free (hfree hout) (by rwa [hrole]), setPage_console]
    · intro full
      obtain ⟨word, ht, hfull, hclear⟩ := erasePage_tail (hfree hout) (hrole.trans hsort) (settle_tail _)
      exact ⟨word, ht, fun hf => hfull ((anyBinFull_iff _).mpr hf), fun hf => hclear (Bool.eq_false_iff.mpr (mt (anyBinFull_iff _).mp hf))⟩

end Sys2Proof.Machine
end

section
/-! Settles O13: the values that the SORT decision reads and the reason table, row by row (R75 to R78, R80, R114 to R119). -/

namespace Sys2Proof.Machine

/-! ### The shift to 25 °C (R75, R76) -/

/-- R65: a rounded shift, saturated, as a number. -/
def shiftOf (n d : Int) : Int := n.sign * ((min 8388607 (roundedMag n d) : Nat) : Int)

/-- R76: `d25` is `dc` less the shift `q`: a zero shift leaves `dc` with its sign, and a zero difference is +0. -/
def Shifted (dc : Dev) (q : Int) (d25 : Dev) : Prop :=
  (q = 0 → d25 = dc) ∧ (q ≠ 0 → d25.toInt = max (-8388607) (min 8388607 (dc.toInt - q)) ∧ (dc.toInt = q → d25 = ⟨false, 0⟩))

theorem Dev.toInt_eq_zero_iff (d : Dev) : d.toInt = 0 ↔ d.mag = 0 := by
  rw [← BitVec.toNat_inj]
  unfold Dev.toInt
  split <;> simp

/-- R65: an integer brought within the deviation form. -/
theorem signMagOfInt_toDev_toInt (z : Int) : (signMagOfInt z).toDev.toInt = max (-8388607) (min 8388607 z) := by
  have hmag : roundedMag z 1 = z.natAbs := by simp only [roundedMag, Int.natAbs_one]; omega
  rw [signMagOfInt_toDev, roundedDev_toInt z (by decide), hmag]
  rcases lt_trichotomy z 0 with h | rfl | h
  · rw [Int.sign_eq_neg_one_of_neg h]
    omega
  · rfl
  · rw [Int.sign_eq_one_of_pos h]
    omega

/-- R76: a rounded and saturated shift is taken off. -/
theorem applyShift_shifted (dc : Dev) (n : Int) {d : Int} (hd : 0 < d) : Shifted dc (shiftOf n d) (applyShift dc (roundDiv n d)) := by
  have hq : (roundDiv n d).toDev.toInt = shiftOf n d := by rw [roundDiv_toDev n hd, roundedDev_toInt n hd, shiftOf]
  have hzero : (roundDiv n d).toDev.mag = 0 ↔ shiftOf n d = 0 := by rw [← hq, Dev.toInt_eq_zero_iff]
  unfold applyShift
  refine ⟨fun h => if_pos (hzero.mpr h), fun h => ?_⟩
  dsimp only
  rw [if_neg (mt hzero.mp h), hq]
  refine ⟨signMagOfInt_toDev_toInt _, fun he => ?_⟩
  rw [he, Int.sub_self]
  rfl

theorem normaliseDefault_absent (p : Page) (dc : Dev) : normaliseDefault p dc none = dc := rfl

theorem normaliseDefault_shifted (p : Page) (dc : Dev) (t : BitVec 12) :
    Shifted dc (shiftOf (p.tcrDefault.toInt * ((t.toNat : Int) - 400)) 16) (normaliseDefault p dc (some t)) :=
  applyShift_shifted dc _ (by decide)

/-- R75: the measured form, where the hot record may be used. -/
theorem measuredShift_usable {p : Page} {h : HeldValue} {dh α : Dev} {th t : BitVec 12} (dc : Dev) (hq : h.quality = .good)
    (hd : h.deviation = some dh) (hα : h.tcr = some α) (hth : h.temperature = some th) (hlt : t.toNat < th.toNat)
    (hmin : t.toNat + p.tcrMinDt.toNat ≤ th.toNat) :
    measuredShift p dc (some t) (some h) = some (roundDiv ((dh.toInt - dc.toInt) * ((t.toNat : Int) - 400)) ((th.toNat : Int) - t.toNat)) := by
  simp only [measuredShift, HeldValue.good_of hq hd, hα, hth]
  exact if_neg (by omega)

theorem normaliseChosen_measured {p : Page} {h : HeldValue} {dh α : Dev} {th t : BitVec 12} (dc : Dev) (hq : h.quality = .good)
    (hd : h.deviation = some dh) (hα : h.tcr = some α) (hth : h.temperature = some th) (hlt : t.toNat < th.toNat)
    (hmin : t.toNat + p.tcrMinDt.toNat ≤ th.toNat) :
    Shifted dc (shiftOf ((dh.toInt - dc.toInt) * ((t.toNat : Int) - 400)) ((th.toNat : Int) - t.toNat))
      (normaliseChosen p dc (some t) (some h)) := by
  rw [normaliseChosen, measuredShift_usable dc hq hd hα hth hlt hmin]
  exact applyShift_shifted dc _ (by omega)

theorem HeldValue.good_eq_some_iff (v : HeldValue) (d : Dev) : v.good = some d ↔ v.quality = .good ∧ v.deviation = some d := by
  simp [HeldValue.good]

/-- R75: without a GOOD hot record of a sufficient temperature distance there is no measured form. -/
theorem measuredShift_none {p : Page} {t : BitVec 12} {hot : Option HeldValue} (dc : Dev)
    (h : ∀ h th, hot = some h → h.quality = .good → h.deviation.isSome = true → h.tcr.isSome = true → h.temperature = some th →
      th.toNat ≤ t.toNat ∨ th.toNat < t.toNat + p.tcrMinDt.toNat) :
    measuredShift p dc (some t) hot = none := by
  unfold measuredShift
  split
  · rename_i v t' ht
    cases ht
    split
    · rename_i dh α th hg hα hth
      obtain ⟨hq, hd⟩ := (v.good_eq_some_iff dh).mp hg
      have hdt := h v th rfl hq (by rw [hd]; rfl) (by rw [hα]; rfl) hth
      exact if_pos (by omega)
    · rfl
  · rfl

theorem normaliseChosen_default {p : Page} {t : BitVec 12} {hot : Option HeldValue} (dc : Dev)
    (h : ∀ h th, hot = some h → h.quality = .good → h.deviation.isSome = true → h.tcr.isSome = true → h.temperature = some th →
      th.toNat ≤ t.toNat ∨ th.toNat < t.toNat + p.tcrMinDt.toNat) :
    normaliseChosen p dc (some t) hot = normaliseDefault p dc (some t) := by
  rw [normaliseChosen, measuredShift_none dc h]

/-! ### Agreement, nearness and order (R77, R78) -/

/-- R77: two GOOD records disagree when their normalised values lie further apart than AGREE_LIMIT. -/
theorem stageG_eq_false_iff {p : Page} {c r : HeldValue} {dc dr : Dev} (hc : c.good = some dc) (hr : r.good = some dr) :
    stageG p (some c) (some r) = false
      ↔ p.agreeLimit ≠ 0
        ∧ p.agreeLimit.toNat < ((normaliseDefault p dc c.temperature).toInt - (normaliseDefault p dr r.temperature).toInt).natAbs := by
  show _ ↔ p.agreeLimit ≠ 0 ∧ p.agreeLimit.toNat < devDistance (normaliseDefault p dc c.temperature) (normaliseDefault p dr r.temperature)
  simp [stageG, hc, hr]

/-- R77: with fewer than two GOOD records there is nothing to disagree. -/
theorem stageG_agrees {p : Page} {cold retest : Option HeldValue}
    (h : ∀ c r, cold = some c → retest = some r → c.good = none ∨ r.good = none) : stageG p cold retest = true := by
  unfold stageG
  split
  · rename_i c r
    rcases h c r rfl rfl with hg | hg
    · rw [hg]
    · rw [hg]
      cases c.good <;> rfl
  · rfl

/-- −0 lies below +0, and otherwise the order is that of the numbers. -/
theorem devLe_iff (a b : Dev) : devLe a b = true ↔ a.toInt < b.toInt ∨ (a.toInt = b.toInt ∧ (a.neg = true ∨ b.neg = false)) := by
  rcases a with ⟨an, am⟩
  rcases b with ⟨bn, bm⟩
  cases an <;> cases bn <;> simp [devLe, devKey, Dev.toInt] <;> omega

theorem stageH_iff (p : Page) (d : Dev) :
    stageH p d = true
      ↔ p.guardBand ≠ 0
        ∧ ∃ b ∈ p.bins, (d.toInt - b.lower.toInt).natAbs ≤ p.guardBand.toNat ∨ (d.toInt - b.upper.toInt).natAbs ≤ p.guardBand.toNat := by
  show _ ↔ p.guardBand ≠ 0 ∧ ∃ b ∈ p.bins, devDistance d b.lower ≤ p.guardBand.toNat ∨ devDistance d b.upper ≤ p.guardBand.toNat
  simp [stageH]

/-! ### The working values (R80) -/

theorem chosenValue_retest {e : Entry} {r : HeldValue} {d : Dev} (hr : e.retest = some r) (hg : r.good = some d) :
    chosenValue e = some ⟨d, r, true⟩ := by
  simp [chosenValue, hr, hg]

/-- R80: without a GOOD retest record the cold record decides. -/
theorem chosenValue_cold {e : Entry} (h : ∀ r, e.retest = some r → r.good = none) :
    chosenValue e = e.cold.bind (fun v => v.good.map (fun d => ⟨d, v, false⟩)) := by
  have hnone : e.retest.bind (fun v => v.good.map (fun d => Chosen.mk d v true)) = none := by
    cases hr : e.retest with
    | none => rfl
    | some r => simp [h r hr]
  rw [chosenValue, hnone]

theorem alphaOf_good {e : Entry} {h : HeldValue} (hh : e.hot = some h) (hq : h.quality = .good) : alphaOf e = h.tcr := by
  simp only [alphaOf, hh, hq, if_pos]

theorem alphaOf_none {e : Entry} (h : ∀ v, e.hot = some v → v.quality ≠ .good) : alphaOf e = none := by
  cases hh : e.hot with
  | none => simp only [alphaOf, hh]
  | some v => simp only [alphaOf, hh, if_neg (h v hh)]

/-- R118: a bin that fits. -/
theorem binMatches_iff (d25 : Dev) (α : Option Dev) (b : Bin) :
    binMatches d25 α b = true
      ↔ devLe b.lower d25 = true ∧ devLe d25 b.upper = true
        ∧ ∀ w, b.window = some w → ∃ a, α = some a ∧ devLe w.1 a = true ∧ devLe a w.2 = true := by
  rcases hw : b.window with _ | ⟨lo, hi⟩ <;> rcases α with _ | a <;> simp [binMatches, hw, and_assoc]

/-! ### The rows (R114 to R119) -/

section Rows
variable {s : State} {e : Entry} {st : PageStamp} {cls : EntryClass}

/-- R114, row 1. -/
theorem judge_noEntry (h : e.cls = none) : judge s e = { page := none, reason := .noEntry, bin := none, gate := s.fallback } := by
  rw [judge, h]

/-- R114, row 2. -/
theorem judge_empty (h : e.cls = some .empty) : judge s e = { page := e.stamp.map (·.page), reason := .empty, bin := none, gate := 0 } := by
  rw [judge, h]

/-- R114: rows 3 to 7 on a stamped entry whose unit is there. -/
theorem judge_stamped (h : e.cls = some cls) (hne : cls ≠ .empty) (hst : e.stamp = some st) :
    judge s e
      = if (s.pages[st.page]).state ≠ .locked then { page := some st.page, reason := .noRecipe, bin := none, gate := s.fallback }
        else if st.digest ≠ (s.pages[st.page]).digest then { page := some st.page, reason := .digest, bin := none, gate := s.fallback }
        else if cls = .contact then { page := some st.page, reason := .contact, bin := none, gate := (s.pages[st.page]).reworkGate }
        else if cls = .grossLow ∨ cls = .grossHigh then
          { page := some st.page, reason := .gross, bin := none, gate := (s.pages[st.page]).rejectGate }
        else if e.doubt then { page := some st.page, reason := .doubt, bin := none, gate := (s.pages[st.page]).reworkGate }
        else
          { page := some st.page, reason := (judgeValue s.pages[st.page] e).1, bin := (judgeValue s.pages[st.page] e).2.1
            gate := (judgeValue s.pages[st.page] e).2.2 } := by
  simp only [judge, h, hst, State.page, bne_iff_ne]

/-- R114: an entry that the rows on class, page and doubt let pass. -/
theorem judge_present (h : e.cls = some .present) (hst : e.stamp = some st) (hl : (s.pages[st.page]).state = .locked)
    (hd : st.digest = (s.pages[st.page]).digest) (hdoubt : e.doubt = false) {v : Reason × Option (Fin 16) × Fin 17}
    (hv : judgeValue s.pages[st.page] e = v) : judge s e = { page := some st.page, reason := v.1, bin := v.2.1, gate := v.2.2 } := by
  rw [judge_stamped h (by decide) hst, if_neg (not_not.mpr hl), if_neg (not_not.mpr hd), if_neg (by decide), if_neg (by decide),
    if_neg (by simp [hdoubt]), hv]

end Rows

/-- R114: the entry has no hot record, or not a GOOD one. -/
def Entry.hotMissing (e : Entry) : Bool := match e.hot with | some h => h.quality != .good | none => true

theorem Entry.hotMissing_iff (e : Entry) : e.hotMissing = true ↔ ¬∃ h, e.hot = some h ∧ h.quality = .good := by
  unfold Entry.hotMissing
  cases e.hot <;> simp

theorem judgeValue_none {e : Entry} (h : chosenValue e = none) (p : Page) : judgeValue p e = (.noValue, none, p.reworkGate) := by
  rw [judgeValue, h]

/-- R114: rows 8 to 13 for a chosen value. -/
theorem judgeValue_chosen {e : Entry} {c : Chosen} (h : chosenValue e = some c) (p : Page) :
    judgeValue p e
      = if p.tcrRequired && e.hotMissing then (.noValue, none, p.reworkGate)
        else if c.record.flags.drift then (.drift, none, p.reworkGate)
        else if !stageG p e.cold e.retest then (.disagree, none, p.reworkGate)
        else if !c.fromRetest && (stageH p (normaliseDefault p c.deviation c.record.temperature) || c.record.flags.suspect) then
          (.guardBand, none, p.reworkGate)
        else
          match p.bins.find? (binMatches (normaliseChosen p c.deviation c.record.temperature e.hot) (alphaOf e)) with
          | some b => (.binned, some b.index, b.gate)
          | none => (.noBin, none, p.rejectGate) := by
  rw [judgeValue, h]
  rfl

/-- R118: the first bin of the list that fits. -/
theorem find_first {before after : List Bin} {b : Bin} {m : Bin → Bool} (hbefore : ∀ x ∈ before, m x = false) (hb : m b = true) :
    (before ++ b :: after).find? m = some b :=
  List.find?_eq_some_iff_append.mpr ⟨hb, before, after, rfl, fun x hx => by rw [hbefore x hx]; rfl⟩

/-- Settles O13, value by value and row by row. -/
theorem reasonTable : Obligations.ReasonTable := by
  unfold Obligations.ReasonTable
  intro shift shifted default
  refine ⟨fun p dc => ⟨normaliseDefault_absent p dc, fun t => ⟨normaliseDefault_shifted p dc t,
      fun h dh α th hq hd hα hth hlt hmin => normaliseChosen_measured dc hq hd hα hth hlt hmin, fun hot h => normaliseChosen_default dc h⟩⟩,
    fun p cold retest dc dr hcq hrq hcd hrd => stageG_eq_false_iff (HeldValue.good_of hcq hcd) (HeldValue.good_of hrq hrd),
    fun p cold retest h => ?agree, devLe_iff,
    fun e => ⟨fun r d hr hq hd => chosenValue_retest hr (HeldValue.good_of hq hd), fun hnone => ?cold, fun h => alphaOf_good, alphaOf_none⟩,
    stageH_iff, fun s e st cls => ⟨judge_noEntry, judge_empty, fun hcls hne hst => ?rows⟩⟩
  case agree => exact stageG_agrees fun c r hc hr => (or_assoc.mpr (h c r hc hr)).imp HeldValue.good_eq_none HeldValue.good_eq_none
  case cold =>
    have hchosen := chosenValue_cold fun r hr => HeldValue.good_eq_none (hnone r hr)
    refine ⟨fun v d hv hq hd => ?_, fun hcold => ?_⟩
    · rw [hchosen, hv, Option.bind_some, HeldValue.good_of hq hd, Option.map_some]
    · rw [hchosen, Option.bind_eq_none_iff]
      exact fun v hv => by rw [HeldValue.good_eq_none (hcold v hv), Option.map_none]
  case rows =>
    have hrow := judge_stamped (s := s) hcls hne hst
    refine ⟨fun hl => by rw [hrow, if_pos hl], fun hl => ?_⟩
    rw [if_neg (not_not.mpr hl)] at hrow
    refine ⟨fun hd => by rw [hrow, if_pos hd], fun hd => ?_⟩
    rw [if_neg (not_not.mpr hd)] at hrow
    refine ⟨fun hc => by rw [hrow, if_pos hc], fun hc => ?gross, fun hc hdoubt => ?doubt, fun hc hdoubt hnone => ?noValue,
      fun hc hdoubt v hv => ?value⟩
    case gross => rw [hrow, if_neg (by rcases hc with rfl | rfl <;> decide), if_pos hc]
    case doubt => rw [hrow, if_neg (by rw [hc]; decide), if_neg (by rw [hc]; decide), if_pos hdoubt]
    case noValue => exact judge_present (hc ▸ hcls) hst hl hd hdoubt (judgeValue_none hnone _)
    case value =>
      intro page hotGood near d25 fits rework
      have hjudge {r : Reason × Option (Fin 16) × Fin 17} (hr : judgeValue page e = r) :
          judge s e = { page := some st.page, reason := r.1, bin := r.2.1, gate := r.2.2 } := judge_present (hc ▸ hcls) hst hl hd hdoubt hr
      have hfits : ∀ b, binMatches d25 (alphaOf e) b = true ↔ fits b := binMatches_iff d25 (alphaOf e)
      have hvalue := judgeValue_chosen hv page
      refine ⟨fun hreq hhot => hjudge (by rw [hvalue, hreq, e.hotMissing_iff.mpr hhot, Bool.and_self, if_pos rfl]), fun hhot => ?_⟩
      have hhot' : ¬(page.tcrRequired && e.hotMissing) = true := by
        rw [Bool.and_eq_true, e.hotMissing_iff]
        exact fun h => hhot.elim (fun hr => by rw [hr] at h; cases h.1) h.2
      rw [if_neg hhot'] at hvalue
      refine ⟨fun hdrift => hjudge (by rw [hvalue, if_pos hdrift]), fun hdrift => ?_⟩
      rw [if_neg (by rw [hdrift]; decide)] at hvalue
      refine ⟨fun hg => hjudge (by rw [hvalue, hg, Bool.not_false, if_pos rfl]), fun hg => ?_⟩
      rw [if_neg (by rw [hg]; decide)] at hvalue
      refine ⟨fun hcold hguard => hjudge (by rw [hvalue, if_pos]; simpa [hcold] using hguard), fun hguard => ?_⟩
      have hpass : ¬(!v.fromRetest && (near || v.record.flags.suspect)) = true := by
        rcases hguard with hretest | ⟨hfar, hsound⟩
        · simp [hretest]
        · simp [hfar, hsound]
      rw [if_neg hpass] at hvalue
      refine ⟨fun before b after hbins hbefore hb => hjudge (r := (.binned, some b.index, b.gate)) ?_,
        fun hnone => hjudge (r := (.noBin, none, page.rejectGate)) ?_⟩
      · rw [hvalue, hbins, find_first (fun x hx => Bool.eq_false_iff.mpr (mt (hfits x).mp (hbefore x hx))) ((hfits b).mpr hb)]
      · rw [hvalue, List.find?_eq_none.mpr fun b hb => mt (hfits b).mp (hnone b hb)]

end Sys2Proof.Machine
end

section
/-! Settles O14, O15, O16 and O29: the capacity check, gate resolution, what a verdict counts, and the end of a pulse (R12, R35, R121 to R125, R130). -/

namespace Sys2Proof.Machine

/-! ### The capacity check (R122) -/

/-- R122: a BINNED verdict for a bin of its page. -/
theorem capacityCheck_binned {s : State} {v : Provisional} {p : Fin 4} {b : Fin 16} {bin : Bin} (hr : v.reason = .binned) (hp : v.page = some p)
    (hb : v.bin = some b) (hbin : (s.pages[p]).binOf b = some bin) :
    capacityCheck s v
      = if bin.capacity ≠ 0 ∧ s.binTally p b = bin.capacity then { v with reason := .binFull, bin := none, gate := (s.pages[p]).overflowGate }
        else v := by
  have hfound : (s.page p).binOf b = some bin := hbin
  unfold capacityCheck
  simp only [hr, hp, hb, hfound, Bool.and_eq_true, bne_iff_ne, beq_iff_eq]
  rfl

/-- R122: a verdict that is not BINNED. -/
theorem capacityCheck_notBinned (s : State) {v : Provisional} (h : v.reason ≠ .binned) : capacityCheck s v = v := by
  unfold capacityCheck
  split
  · rename_i hr _ _
    exact absurd hr h
  · rfl

/-- Settles O14: a bin at its capacity, one below it or without one, and a verdict that is not BINNED. -/
theorem capacityCheck_spec : Obligations.CapacityCheck := by
  unfold Obligations.CapacityCheck
  intro s v
  refine ⟨fun p b bin hr hp hb hbin => ⟨fun hfull => ?_, fun hroom => ?_⟩, capacityCheck_notBinned s⟩
  · rw [capacityCheck_binned hr hp hb hbin, if_pos hfull]
  · rw [capacityCheck_binned hr hp hb hbin, if_neg]
    rintro ⟨hne, htally⟩
    exact hroom.elim hne fun hlt => BitVec.ne_of_lt hlt htally

/-! ### Gate resolution (R125) -/

theorem gateOutput_eq {g : Fin 17} {o : Fin 16} (h : g.val = o.val + 1) : gateOutput g = some o := by
  unfold gateOutput
  rw [dif_pos (by omega)]
  exact congrArg some (Fin.ext (by simp only; omega))

theorem installed_gate {s : State} {g : Fin 17} {o : Fin 16} (h : g.val = o.val + 1) :
    s.installed g = if s.ctl.items.gatePos[o] = 0 then none else some o := by
  unfold State.installed
  rw [gateOutput_eq h]
  rfl

/-- R125: a gate number of a gate that is not 0. -/
theorem resolveGate_number (s : State) {g : Fin 17} {o : Fin 16} (h : g.val = o.val + 1) :
    resolveGate s g
      = match s.installed g with
        | some o => (g, some o, false)
        | none =>
          match s.installed s.fallback with
          | some o => (s.fallback, some o, false)
          | none => (0, none, true) := by
  have hg : g ≠ 0 := fun h0 => by rw [h0] at h; simp at h
  exact if_neg hg

/-- Settles O15, row by row. -/
theorem gateResolution : Obligations.GateResolution := by
  unfold Obligations.GateResolution
  intro s g
  refine ⟨fun h => if_pos h, fun o hg ho => ?gate, fun o f hg ho hf hfo => ?fallback, fun o hg ho hf => ?missed⟩
  case gate => rw [resolveGate_number s hg, installed_gate hg, if_neg ho]
  case fallback => rw [resolveGate_number s hg, installed_gate hg, if_pos ho, installed_gate hf, if_neg hfo]
  case missed =>
    have hnone : s.installed s.fallback = none := by
      rcases hf with h0 | ⟨f, hf, hfo⟩
      · rw [h0]
        rfl
      · rw [installed_gate hf, if_pos hfo]
    rw [resolveGate_number s hg, installed_gate hg, if_pos ho, hnone]

/-! ### Tallies (R121, R123) -/

/-- R121: a tally goes up by one and stays at 65535. -/
theorem tallyAdd_one (x : BitVec 16) : tallyAdd x 1 = if x = 65535 then x else x + 1 := by
  have hlt := x.isLt
  have htop : x = 65535 ↔ x.toNat = 65535 := BitVec.toNat_inj.symm
  refine BitVec.eq_of_toNat_eq ?_
  rw [tallyAdd, BitVec.toNat_ofNat]
  split
  · rename_i h
    rw [htop.mp h]
    rfl
  · rename_i h
    rw [htop] at h
    rw [BitVec.toNat_add, show (1 : BitVec 16).toNat = 1 from rfl]
    omega

/-- Settles O16: the reason tallies, the bin tallies, and the count of one. -/
theorem verdictCounts : Obligations.VerdictCounts := by
  unfold Obligations.VerdictCounts
  refine fun s v => ⟨fun k => ?_, countVerdict_binTally v s, tallyAdd_one⟩
  rw [countVerdict_reasonTallies]
  split
  · rfl
  · exact tallyAdd_zero _

/-! ### The end of a pulse (R12, R35, R130) -/

/-- R130: PULSE_WIDTH has elapsed at a gate that is in PULL_IN or HOLDING. -/
theorem expirePulse_ends {s : State} {g : Fin 16} {tag : BitVec 16} {pulseEnd : Instant}
    (h : s.gates.drivers[g] = .holding tag pulseEnd ∨ ∃ pullEnd, s.gates.drivers[g] = .pullIn tag pullEnd pulseEnd) (hd : pulseEnd ≤ s.now) :
    expirePulse g s = endPulse g tag s := by
  unfold expirePulse
  rcases h with h | ⟨_, h⟩ <;>
  · rw [h]
    exact if_pos hd

/-- Settles O29: HOLDING and PULL_IN end alike. -/
theorem pulseEnds : Obligations.PulseEnds := by
  unfold Obligations.PulseEnds
  intro t g tag pulseEnd s hr hle hd left
  obtain ⟨u, he, ht⟩ := event_tail t (expirePulse g) s hr
  rw [expirePulse_ends (by simpa using hd) (by simpa using hle), endPulse_ended] at ht
  have hentries : u.table.entries = s.table.entries.filter (fun e => e.tag != tag) := by
    rw [ht.table, State.withIdx_table, removeTag_entries]
    simp
  refine ⟨u, he, by simpa [left] using ht, gateDrive_idle (by rw [ht.gates]; simp), by rw [ht.gates]; simp [left], entryOf_removed hentries, ?_⟩
  rw [hentries]
  simp [bne, beq_eq_decide]

end Sys2Proof.Machine
end

section
/-! What the entry to MUTED leaves (R63, R124, R136, R147, R168, R169). -/

namespace Sys2Proof.Machine

/-! ### A measurement discarded (R63) -/

@[simp] theorem discarded_now (a : State) : (discarded a).now = a.now := by unfold discarded; split <;> rfl

@[simp] theorem discarded_table (a : State) : (discarded a).table = a.table := by unfold discarded; split <;> rfl

@[simp] theorem discarded_drift (a : State) : (discarded a).drift = a.drift := by unfold discarded; split <;> rfl

@[simp] theorem discarded_pages (a : State) : (discarded a).pages = a.pages := by unfold discarded; split <;> rfl

@[simp] theorem discarded_gates (a : State) : (discarded a).gates = a.gates := by unfold discarded; split <;> rfl

@[simp] theorem discarded_link (a : State) : (discarded a).link = a.link := by unfold discarded; split <;> rfl

@[simp] theorem discarded_peers (a : State) : (discarded a).peers = a.peers := by unfold discarded; split <;> rfl

@[simp] theorem discarded_ctl (a : State) : (discarded a).ctl = a.ctl := by unfold discarded; split <;> rfl

@[simp] theorem discarded_alerts (a : State) : (discarded a).alerts = a.alerts := by unfold discarded; split <;> rfl

@[simp] theorem discarded_work (a : State) : (discarded a).work = a.work := by unfold discarded; split <;> rfl

@[simp] theorem discarded_recentPage (a : State) : (discarded a).eng.recentPage = a.eng.recentPage := by unfold discarded; split <;> rfl

theorem discarded_idle {a : State} (h : a.eng.ctx = none) : discarded a = a := if_pos h

theorem discarded_running {a : State} (h : a.eng.ctx ≠ none) :
    discarded a
      = (a.withEng { endedEngine a.now a.eng with relays := { slot := none, unit := false, check := false } }).withIdx
          { a.idx with measReq := false } := if_neg h

theorem discarded_ctx (a : State) : (discarded a).eng.ctx = none := by
  rw [← discardSequence_eq]
  exact discardSequence_ctx a

/-- R63: of the Index Tracker the measurement request alone changes. -/
theorem discarded_idx (a : State) : (discarded a).idx = { a.idx with measReq := (discarded a).idx.measReq } := by
  unfold discarded
  split <;> rfl

/-! ### The firings dropped (R136) -/

theorem muteGates_firings (s : State) : (muteGates s).gates.firings = [] := rfl

theorem muteGates_drivers (s : State) : (muteGates s).gates.drivers = Vector.replicate 16 .idle := rfl

theorem muteGates_idx (s : State) : (muteGates s).idx = { s.idx with firingReq := false } := by
  simp [muteGates, clearFirings, setFiringReq]

/-- R124, R136: the entries of the firings leave. -/
theorem muteGates_removes (s : State) : Removes (fun e => s.gates.firings.any (fun f => e.tag == f.tag)) s (muteGates s) := by
  have hfold := foldl_removes missFiring_removes s.gates.firings s
  exact ⟨hfold.entries, hfold.tallies, hfold.passes⟩

/-- R136: each firing dropped raises GATE_MISSED. -/
theorem muteGates_flag (s : State) (g : AlertFlag) :
    flagIn (muteGates s).alerts.word g = (flagIn s.alerts.word g || (!s.gates.firings.isEmpty && AlertFlag.gateMissed == g)) := by
  have hmiss : ∀ s f g, flagIn (missFiring s f).alerts.word g = (flagIn s.alerts.word g || AlertFlag.gateMissed == g) := fun s f g => by
    simp [missFiring]
  rw [muteGates, clearFirings_alerts]
  exact foldl_flag hmiss s.gates.firings s g

theorem passes_unplaced {s : State} (hp : s.ctl.items.position = none) (e : Entry) : s.passes e = false := by
  unfold State.passes State.position
  rw [hp]
  split
  · contradiction
  · rfl

/-! ### The station MUTED (R147, R168, R169) -/

/-- R63, R136: the station that enters MUTED once its measurement and its firings are gone. -/
def quieted (a : State) : State := if roleOfCode a.ctl.role = some .sort then muteGates (discarded a) else discarded a

/-- R147: what stays in the queue of a MUTED station. -/
def keptMuted (q : QItem) : Bool := !q.frame.isUnit && q.frame != .alert

theorem mutedBy_eq (a : State) : mutedBy a = offerHail ((keepQueued keptMuted (quieted a)).withCtl { a.ctl with activity := .muted }) := rfl

theorem quieted_sort {a : State} (h : roleOfCode a.ctl.role = some .sort) : quieted a = muteGates (discarded a) := if_pos h

theorem quieted_other {a : State} (h : roleOfCode a.ctl.role ≠ some .sort) : quieted a = discarded a := if_neg h

@[simp] theorem quieted_now (a : State) : (quieted a).now = a.now := by unfold quieted; split <;> simp

@[simp] theorem quieted_eng (a : State) : (quieted a).eng = (discarded a).eng := by unfold quieted; split <;> simp

@[simp] theorem quieted_drift (a : State) : (quieted a).drift = a.drift := by unfold quieted; split <;> simp

@[simp] theorem quieted_pages (a : State) : (quieted a).pages = a.pages := by unfold quieted; split <;> simp

@[simp] theorem quieted_binTallies (a : State) : (quieted a).gates.binTallies = a.gates.binTallies := by unfold quieted; split <;> simp

@[simp] theorem quieted_link (a : State) : (quieted a).link = a.link := by unfold quieted; split <;> simp

@[simp] theorem quieted_peers (a : State) : (quieted a).peers = a.peers := by unfold quieted; split <;> simp

@[simp] theorem quieted_mask (a : State) : (quieted a).alerts.mask = a.alerts.mask := by unfold quieted; split <;> simp

@[simp] theorem quieted_master (a : State) : (quieted a).alerts.master = a.alerts.master := by unfold quieted; split <;> simp

@[simp] theorem quieted_units (a : State) : (quieted a).work.units = a.work.units := by unfold quieted; split <;> simp

@[simp] theorem quieted_status (a : State) : (quieted a).work.status = a.work.status := by unfold quieted; split <;> simp

/-- R63, R136: of the Index Tracker the two requests alone change. -/
theorem quieted_idx (a : State) :
    (quieted a).idx
      = { a.idx with
          measReq := (discarded a).idx.measReq
          firingReq := if roleOfCode a.ctl.role = some .sort then false else a.idx.firingReq } := by
  unfold quieted
  split
  · rw [muteGates_idx, discarded_idx]
  · exact discarded_idx a

/-- R136: GATE_MISSED rises where a SORT station drops a firing, and no other flag does. -/
theorem quieted_flag (a : State) (g : AlertFlag) :
    flagIn (quieted a).alerts.word g
      = (flagIn a.alerts.word g || (decide (roleOfCode a.ctl.role = some .sort) && !a.gates.firings.isEmpty && AlertFlag.gateMissed == g)) := by
  by_cases h : roleOfCode a.ctl.role = some .sort
  · rw [quieted_sort h, muteGates_flag, decide_eq_true h, discarded_alerts, discarded_gates, Bool.true_and]
  · rw [quieted_other h, decide_eq_false h, discarded_alerts, Bool.false_and, Bool.false_and, Bool.or_false]

theorem mutedBy_now (a : State) : (mutedBy a).now = a.now := by simp [mutedBy_eq]

theorem mutedBy_idx (a : State) : (mutedBy a).idx = (quieted a).idx := by simp [mutedBy_eq]

theorem mutedBy_table (a : State) : (mutedBy a).table = (quieted a).table := by simp [mutedBy_eq]

theorem mutedBy_eng (a : State) : (mutedBy a).eng = (discarded a).eng := by simp [mutedBy_eq]

theorem mutedBy_drift (a : State) : (mutedBy a).drift = a.drift := by simp [mutedBy_eq]

theorem mutedBy_pages (a : State) : (mutedBy a).pages = a.pages := by simp [mutedBy_eq]

theorem mutedBy_gates (a : State) : (mutedBy a).gates = (quieted a).gates := by simp [mutedBy_eq]

theorem mutedBy_peers (a : State) : (mutedBy a).peers = a.peers := by simp [mutedBy_eq]

theorem mutedBy_alerts (a : State) : (mutedBy a).alerts = (quieted a).alerts := by simp [mutedBy_eq]

theorem mutedBy_units (a : State) : (mutedBy a).work.units = a.work.units := by simp [mutedBy_eq]

theorem mutedBy_status (a : State) : (mutedBy a).work.status = a.work.status := by simp [mutedBy_eq]

theorem mutedBy_hail (a : State) : (mutedBy a).work.hail = true := rfl

theorem mutedBy_queue (a : State) : (mutedBy a).link.queue = a.link.queue.filter keptMuted := by simp [mutedBy_eq, keepQueued]

/-- R169: the HAIL of the change restarts the hail timer. -/
theorem mutedBy_ctl (a : State) : (mutedBy a).ctl = { a.ctl with activity := .muted, hailDue := some (a.now + ms 250) } := by
  have hnow : ((keepQueued keptMuted (quieted a)).withCtl { a.ctl with activity := .muted }).now = a.now := by simp
  rw [mutedBy_eq, offerHail, hnow]
  rfl

theorem mutedBy_awaits (a : State) : (mutedBy a).awaits = a.awaits := by
  funext e
  have hpos : (mutedBy a).posOf e.tag = a.posOf e.tag := posOf_congr (by rw [mutedBy_idx, quieted_idx]) _
  have hrole : (mutedBy a).role = a.role := by rw [State.role, mutedBy_ctl, State.role]
  have hposition : (mutedBy a).position = a.position := by rw [State.position, mutedBy_ctl, State.position]
  unfold State.awaits
  rw [hrole, hposition, hpos]

theorem mutedBy_levelStands (a : State) (f : AlertFlag) : (mutedBy a).levelStands f = a.levelStands f :=
  levelStands_congr (mutedBy_now a) (mutedBy_peers a) (mutedBy_drift a) (mutedBy_pages a) (by simp [mutedBy_gates]) (by simp [mutedBy_eng])
    (by rw [mutedBy_ctl]) f

/-! ### The HAIL of a MUTED station (R145, R169) -/

@[simp] theorem drainTest_keeps_hail {s : State} (h : s.work.hail = true) : (drainTest s).work.hail = true := by
  unfold drainTest setStation
  split
  · dsimp only
    split
    · rfl
    · exact h
  · exact h

theorem unstarted_subset {s : State} {q : QItem} (h : q ∈ s.unstarted) : q ∈ s.link.queue := by
  unfold State.unstarted at h
  split at h
  · split at h
    · exact h
    · exact List.mem_of_mem_tail h
  · exact h

/-- R169: a HAIL offered to a queue with room stands in it, and raises nothing. -/
theorem offerOnce_hail_room {s : State} (h : s.link.queue.length < 6) :
    (∃ q ∈ (offerOnce .hail s).link.queue, q.frame = .hail) ∧ (offerOnce .hail s).alerts = s.alerts := by
  by_cases hw : s.waits .hail
  · rw [offerOnce_waiting hw]
    obtain ⟨q, hq, hf⟩ := hw
    exact ⟨⟨q, unstarted_subset hq, hf⟩, rfl⟩
  · rw [offerOnce_offers hw, offer_room (admits_hail s) h]
    exact ⟨⟨{ frame := .hail, waiting := 0 }, by simp [enqueue], rfl⟩, by simp⟩

/-- R145: what a MUTED station offers beside records and replies is a HAIL alone. -/
theorem flushed_muted {c : State} (hu : c.work.units = []) (hs : c.work.status = []) (hh : c.work.hail = true) (hm : c.ctl.activity = .muted)
    (hl : c.ctl.run ≠ .listen) : flushed c = (offerOnce .hail (refreshLevels (drainTest c))).withWork Work.empty := by
  have hhail : hailOffered (refreshLevels (drainTest c)) = offerOnce .hail (refreshLevels (drainTest c)) := if_pos (by simp [hh])
  have hadm : (offerOnce .hail (refreshLevels (drainTest c))).admits .alert = false := by
    rw [admits_congr (a := drainTest c) (by simp), drainTest_admits, Bool.eq_false_iff]
    exact fun h => ((admits_alert_iff hl).mp h).2 hm
  rw [flushed, flush_eq (by simpa using hu) (by simpa using hs), hhail, hadm, Bool.and_false]
  rfl

theorem refreshLevels_overflow (s : State) : flagIn (refreshLevels s).alerts.word .txqOverflow = flagIn s.alerts.word .txqOverflow := by
  rw [refreshLevels_flag]
  exact Bool.or_false _

end Sys2Proof.Machine
end

section
/-! Settles O49: MUTE and UNMUTE (R63, R124, R136, R147, R168, R169, R181). -/

namespace Sys2Proof.Machine

@[simp] theorem consoleState_now (t : Instant) (h : ConsoleHead) (s : State) : (consoleState t h s).now = max s.now t := by simp [consoleState]

@[simp] theorem consoleState_eng (t : Instant) (h : ConsoleHead) (s : State) : (consoleState t h s).eng = s.eng := by simp [consoleState]

@[simp] theorem consoleState_drift (t : Instant) (h : ConsoleHead) (s : State) : (consoleState t h s).drift = s.drift := by simp [consoleState]

@[simp] theorem consoleState_peers (t : Instant) (h : ConsoleHead) (s : State) : (consoleState t h s).peers = s.peers := by simp [consoleState]

/-! ### By state and activity (R168, R181) -/

theorem muteFrame_ignores {b : State} (h : b.ctl.run = .listen ∨ b.ctl.run = .fault) (act : State → State) : muteFrame act b = b := if_pos h

theorem muteFrame_obeys {b : State} (hl : b.ctl.run ≠ .listen) (hf : b.ctl.run ≠ .fault) (act : State → State) : muteFrame act b = act b :=
  if_neg (not_or.mpr ⟨hl, hf⟩)

theorem mute_ignored {b : State} (h : b.ctl.run = .listen ∨ b.ctl.run = .fault ∨ b.ctl.activity = .muted) : muteFrame muteStation b = b := by
  by_cases hrun : b.ctl.run = .listen ∨ b.ctl.run = .fault
  · exact muteFrame_ignores hrun _
  · obtain ⟨hl, hf⟩ := not_or.mp hrun
    rw [muteFrame_obeys hl hf]
    exact if_pos ((h.resolve_left hl).resolve_left hf)

theorem mute_obeyed {b : State} (hl : b.ctl.run ≠ .listen) (hf : b.ctl.run ≠ .fault) (hm : b.ctl.activity ≠ .muted) :
    muteFrame muteStation b = mutedBy b := by
  rw [muteFrame_obeys hl hf, muteStation, if_neg hm, enterMuted_eq hm]

theorem unmute_ignored {b : State} (h : b.ctl.run = .listen ∨ b.ctl.run = .fault ∨ b.ctl.activity ≠ .muted) : muteFrame unmuteStation b = b := by
  by_cases hrun : b.ctl.run = .listen ∨ b.ctl.run = .fault
  · exact muteFrame_ignores hrun _
  · obtain ⟨hl, hf⟩ := not_or.mp hrun
    rw [muteFrame_obeys hl hf]
    exact if_neg ((h.resolve_left hl).resolve_left hf)

/-- R168, R169: a MUTED station changes its activity, so it offers a HAIL. -/
theorem unmute_obeyed {b : State} (hl : b.ctl.run ≠ .listen) (hf : b.ctl.run ≠ .fault) (hm : b.ctl.activity = .muted) :
    muteFrame unmuteStation b = offerHail (b.withCtl { b.ctl with activity := if b.lowerQualifies then .standby else .active }) := by
  rw [muteFrame_obeys hl hf, unmuteStation, if_pos hm, setActivity, if_neg]
  rw [hm]
  split <;> decide

/-! ### The end of the command -/

section Muted

variable {a u : State} (ht : Tail (mutedBy a) u)

include ht

/-- R178: the drain test sees the entries that are left, and awaits as before. -/
theorem muted_ctl :
    ∃ st drain, u.ctl = { a.ctl with activity := .muted, hailDue := some (a.now + ms 250), run := st, drain := drain }
      ∧ (a.ctl.drain = false ∨ a.ctl.run ≠ .run ∨ (∃ e ∈ u.table.entries, a.awaits e = true) → st = a.ctl.run ∧ drain = a.ctl.drain)
      ∧ (a.ctl.drain = true → a.ctl.run = .run → (∀ e ∈ u.table.entries, a.awaits e = false) → st = .halt ∧ drain = false) := by
  have hctl := ht.ctl
  rw [mutedBy_awaits, ← ht.table, mutedBy_ctl, mutedBy_now] at hctl
  simp only [Bool.and_eq_true, beq_iff_eq, Bool.not_eq_true', List.any_eq_false, Bool.not_eq_true] at hctl
  split at hctl
  · rename_i hdone
    obtain ⟨⟨hdrain, hrun⟩, hnone⟩ := hdone
    refine ⟨.halt, false, hctl, fun h => ?_, fun _ _ _ => ⟨rfl, rfl⟩⟩
    rcases h with h | h | ⟨e, he, haw⟩
    · rw [hdrain] at h
      cases h
    · exact absurd hrun h
    · rw [hnone e he] at haw
      cases haw
  · rename_i hopen
    exact ⟨a.ctl.run, a.ctl.drain, hctl, fun _ => ⟨rfl, rfl⟩, fun hd hr hnone => absurd ⟨⟨hd, hr⟩, hnone⟩ hopen⟩

/-- R136, R183: the flags but for TXQ_OVERFLOW. -/
theorem muted_flag {f : AlertFlag} (hf : f ≠ .txqOverflow) :
    flagIn u.alerts.word f
      = (flagIn a.alerts.word f || (decide (roleOfCode a.ctl.role = some .sort) && !a.gates.firings.isEmpty && AlertFlag.gateMissed == f)
          || a.levelStands f) := by
  rw [ht.flags f hf, mutedBy_alerts, quieted_flag, mutedBy_levelStands]

theorem muted_idx : ∃ meas fire, u.idx = { a.idx with measReq := meas, firingReq := fire } :=
  ⟨_, _, by rw [ht.idx, mutedBy_idx, quieted_idx]⟩

/-- R63: a running measurement leaves no record. -/
theorem muted_running (h : a.eng.ctx ≠ none) :
    u.idx.measReq = false ∧ u.eng = { endedEngine a.now a.eng with relays := { slot := none, unit := false, check := false } } := by
  rw [ht.idx, mutedBy_idx, quieted_idx, ht.eng, mutedBy_eng, discarded_running h]
  exact ⟨rfl, rfl⟩

theorem muted_idle (h : a.eng.ctx = none) : u.eng = a.eng ∧ u.idx.measReq = a.idx.measReq := by
  rw [ht.idx, mutedBy_idx, quieted_idx, ht.eng, mutedBy_eng, discarded_idle h]
  exact ⟨rfl, rfl⟩

/-- R136: the gates of a SORT station that is MUTED. -/
theorem muted_sort_gates (h : roleOfCode a.ctl.role = some .sort) :
    u.gates.firings = [] ∧ u.gates.drivers = Vector.replicate 16 .idle ∧ (∀ g, u.gateDrive g = .off) ∧ u.idx.firingReq = false
      ∧ u.gates.binTallies = a.gates.binTallies := by
  have hgates : u.gates = (muteGates (discarded a)).gates := by rw [ht.gates, mutedBy_gates, quieted_sort h]
  have hdrivers : u.gates.drivers = Vector.replicate 16 .idle := by rw [hgates, muteGates_drivers]
  refine ⟨by rw [hgates, muteGates_firings], hdrivers, fun g => gateDrive_idle ?_, ?_, by rw [hgates]; simp⟩
  · rw [hdrivers]
    simp
  · rw [ht.idx, mutedBy_idx, quieted_idx, if_pos h]

/-- R124, R136: the entries of the firings leave a SORT station that is MUTED, and count where they pass without a verdict. -/
theorem muted_sort_entries (h : roleOfCode a.ctl.role = some .sort) : Removes (fun e => a.gates.firings.any (fun f => f.tag == e.tag)) a u := by
  have hpasses : (discarded a).passes = a.passes := passes_congr (by simp) (by simp) (by rw [discarded_idx])
  have hrest := (muteGates_removes (discarded a)).after (by simp) (by simp) hpasses
  rw [discarded_gates, ← quieted_sort h] at hrest
  have hcomm : ∀ e ∈ a.table.entries, a.gates.firings.any (fun f => f.tag == e.tag) = a.gates.firings.any (fun f => e.tag == f.tag) :=
    fun e _ => congrArg a.gates.firings.any (funext fun f => BEq.comm)
  refine Removes.congr ⟨?_, fun k => ?_, ?_⟩ hcomm
  · rw [ht.table, mutedBy_table, hrest.entries]
  · rw [ht.gates, mutedBy_gates, hrest.tallies]
  · refine passes_congr ?_ ?_ ?_
    · rw [ht.ctl, mutedBy_ctl]; split <;> rfl
    · rw [ht.ctl, mutedBy_ctl]; split <;> rfl
    · rw [ht.idx, mutedBy_idx, quieted_idx]

theorem muted_other (h : roleOfCode a.ctl.role ≠ some .sort) : u.gates = a.gates ∧ u.table = a.table ∧ u.idx.firingReq = a.idx.firingReq := by
  rw [ht.gates, ht.table, ht.idx, mutedBy_gates, mutedBy_table, mutedBy_idx, quieted_idx, if_neg h, quieted_other h]
  exact ⟨discarded_gates a, discarded_table a, rfl⟩

/-- R145, R169: where nothing is left over from an earlier command, a MUTED station offers its HAIL alone. -/
theorem muted_queue (hw : a.work = Work.empty) (hl : a.ctl.run ≠ .listen) :
    ∃ x : State, x.link.queue = a.link.queue.filter keptMuted
      ∧ flagIn x.alerts.word .txqOverflow = flagIn a.alerts.word .txqOverflow
      ∧ u.link.queue = (offerOnce .hail x).link.queue
      ∧ flagIn u.alerts.word .txqOverflow = flagIn (offerOnce .hail x).alerts.word .txqOverflow := by
  have hflushed := flushed_muted (c := mutedBy a) (by rw [mutedBy_units, hw]; rfl) (by rw [mutedBy_status, hw]; rfl) (mutedBy_hail a)
    (by rw [mutedBy_ctl]) (by rw [mutedBy_ctl]; exact hl)
  refine ⟨refreshLevels (drainTest (mutedBy a)), by simp [mutedBy_queue], ?_, by rw [ht.queue, hflushed]; rfl, by rw [ht.overflow, hflushed]; rfl⟩
  rw [refreshLevels_overflow, drainTest_alerts, mutedBy_alerts, quieted_flag, show (AlertFlag.gateMissed == .txqOverflow) = false from rfl,
    Bool.and_false, Bool.or_false]

/-- R145: the HAIL of a MUTED station finds room where the queue had some. -/
theorem muted_hails (hl : a.ctl.run ≠ .listen) (hroom : HasRoom 1 a) :
    (∃ q ∈ u.link.queue, q.frame = .hail) ∧ flagIn u.alerts.word .txqOverflow = flagIn a.alerts.word .txqOverflow := by
  obtain ⟨hw, hlen⟩ := hroom
  obtain ⟨x, hx, hword, hq, hover⟩ := muted_queue ht hw hl
  have hkept : x.link.queue.length ≤ a.link.queue.length := by
    rw [hx]
    exact List.length_filter_le _ _
  obtain ⟨hhail, halerts⟩ := offerOnce_hail_room (s := x) (by omega)
  rw [hq, hover, halerts, hword]
  exact ⟨hhail, rfl⟩

/-- R147: neither a unit record nor an ALERT is left in the queue of a MUTED station. -/
theorem muted_queue_kept (hl : a.ctl.run ≠ .listen) (hw : a.work = Work.empty) :
    ∀ q ∈ u.link.queue, q.frame.isUnit = false ∧ q.frame ≠ .alert := by
  obtain ⟨x, hx, -, hq, -⟩ := muted_queue ht hw hl
  obtain ⟨more, hmore, hhail⟩ := offerOnce_more .hail x
  rw [hq, hmore, hx]
  intro q hmem
  rcases List.mem_append.mp hmem with hheld | hnew
  · have hkept := (List.mem_filter.mp hheld).2
    simpa [keptMuted] using hkept
  · rw [hhail q hnew]
    exact ⟨rfl, by decide⟩

end Muted

/-- R124: of the entries that `gone` names those beyond the position of a SORT station, not ahead and without a verdict. -/
def State.sortPassed (s : State) (gone : Entry → Bool) : Nat :=
  match s.ctl.items.position with
  | some p => s.table.entries.countP (fun e => gone e && e.verdict == none && decide (p < s.posOf e.tag) && decide (s.posOf e.tag ≤ 32767))
  | none => 0

/-- R124: at SORT a removal counts in the PASSED tally and in no other. -/
theorem passedCount_sort {s : State} (h : roleOfCode s.ctl.role = some .sort) (gone : Entry → Bool) (k : Fin 15) :
    tallyAdd s.gates.reasonTallies[k] (passedCount gone s k)
      = if k = passedPlace then tallyAdd s.gates.reasonTallies[k] (s.sortPassed gone) else s.gates.reasonTallies[k] := by
  unfold passedCount State.sortPassed
  split
  · cases hp : s.ctl.items.position with
    | none => simp [passes_unplaced hp]
    | some p =>
      simp only [passes_sort (s := s) h hp, Bool.and_assoc]
      rfl
  · exact tallyAdd_zero _

/-- Settles O49: MUTE ignored and obeyed, block by block, then UNMUTE. -/
theorem muteAndUnmute : Obligations.MuteAndUnmute := by
  unfold Obligations.MuteAndUnmute
  intro t h s hr hrx haddr a fired passed
  have hctl : a.ctl = s.ctl := consoleState_ctl t h s
  have hnow : a.now = max s.now t := consoleState_now t h s
  have hal : a.alerts = s.alerts := consoleState_alerts t h s
  have hidx : a.idx = s.idx := consoleState_idx t h s
  have heng : a.eng = s.eng := consoleState_eng t h s
  have hgates : a.gates = s.gates := consoleState_gates t h s
  have htable : a.table = s.table := consoleState_table t h s
  refine ⟨⟨_, event_obey_addressed hr hrx haddr (muteFrame muteStation), fun hign => ?_, fun hl hf hm => ?mute⟩,
    ⟨_, event_obey_addressed hr hrx haddr (muteFrame unmuteStation), fun hign => ?_, fun hl hf hm => ?_⟩⟩
  · exact tail_of_eq (mute_ignored (hctl ▸ hign))
  case mute =>
    have ht : Tail (mutedBy a) (settle (muteFrame muteStation a)) :=
      tail_of_eq (mute_obeyed (by rwa [hctl]) (by rwa [hctl]) (by rwa [hctl]))
    generalize settle (muteFrame muteStation a) = u at ht
    have hla : a.ctl.run ≠ .listen := by rwa [hctl]
    have hhails := muted_hails ht hla
    have hrunning := muted_running ht
    have hidle := muted_idle ht
    have hrunControl := muted_ctl ht
    have hrequests := muted_idx ht
    have hother := muted_other ht
    have hflag := fun f hf => muted_flag ht (f := f) hf
    rw [hctl, hnow] at hrunControl
    rw [hidx] at hrequests
    rw [heng, hnow] at hrunning
    rw [heng, hidx] at hidle
    rw [hctl, hgates, htable, hidx] at hother
    rw [hal] at hhails
    simp only [hal, hctl, hgates] at hflag
    have hmissed : flagIn u.alerts.word .gateMissed
        = (flagIn s.alerts.word .gateMissed || (decide (roleOfCode s.ctl.role = some .sort) && !s.gates.firings.isEmpty)) := by
      rw [hflag _ (by decide), show a.levelStands .gateMissed = false from rfl, show (AlertFlag.gateMissed == .gateMissed) = true from rfl,
        Bool.and_true, Bool.or_false]
    refine ⟨ht, by rw [ht.eng, mutedBy_eng, discarded_ctx], hrunControl, fun f ho hg => ?_, hmissed, fun hroom => (hhails hroom).2, hrequests,
      fun hroom => (hhails hroom).1, hrunning, hidle, fun hsort => ?sort, hother, fun hw => ?_, ?_⟩
    · have hne : (AlertFlag.gateMissed == f) = false := beq_eq_false_iff_ne.mpr (Ne.symm hg)
      rw [hflag f ho, hne, Bool.and_false, Bool.or_false]
    case sort =>
      have hsa : roleOfCode a.ctl.role = some .sort := by rwa [hctl]
      obtain ⟨hfirings, hdrivers, hdrive, hreq, hbins⟩ := muted_sort_gates ht hsa
      have hgone := muted_sort_entries ht hsa
      have hentries := hgone.entries
      have htallies := fun k => (hgone.tallies k).trans (passedCount_sort hsa _ k)
      rw [htable, hgates] at hentries
      have hpos : a.posOf = s.posOf := funext fun x => posOf_congr (by rw [hidx]) x
      simp only [State.sortPassed, hgates, htable, hctl, hpos] at htallies
      refine ⟨hfirings, hdrivers, hdrive, hreq, fun hne => ?_, hentries, by rw [hbins, hgates], htallies⟩
      rw [hmissed, decide_eq_true hsort, Bool.true_and, Bool.or_eq_true, Bool.not_eq_true', List.isEmpty_eq_false_iff]
      exact .inr hne
    · exact muted_queue_kept ht hla ((consoleState_work t h s).trans hw)
    · have hitems : u.ctl.items = s.ctl.items := by
        obtain ⟨_, _, hu, -⟩ := hrunControl
        rw [hu]
      refine ⟨?_, ?_, ?_, hitems, ?_, ?_, ?_⟩
      · rw [ht.pages, mutedBy_pages]; exact consoleState_pages t h s
      · rw [ht.drift, mutedBy_drift]; exact consoleState_drift t h s
      · rw [ht.peers, mutedBy_peers]; exact consoleState_peers t h s
      · rw [ht.idx, mutedBy_idx, quieted_idx, hidx]
      · rw [ht.mask, mutedBy_alerts, quieted_mask, hal]
      · rw [ht.master, mutedBy_alerts, quieted_master, hal]
  · exact tail_of_eq (unmute_ignored (hctl ▸ hign))
  · rw [← hctl]
    exact tail_of_eq (unmute_obeyed (by rwa [hctl]) (by rwa [hctl]) (by rwa [hctl]))

end Sys2Proof.Machine
end

section
/-! The invariants of the line and of the alert word: what has to be shown of a property of link and alerts, once for each operation that writes them, for every command to keep it. -/

-- The lemmas are elaborated in turn: side by side, many would wait for one unfolding, and each of them holds a thread while it waits.
set_option Elab.async false

namespace Sys2Proof.Machine

/-- Link and alerts are the same in both states. -/
structure SameLine (a b : State) : Prop where
  link : b.link = a.link := by simp
  alerts : b.alerts = a.alerts := by simp

/-- A change made to the mark of the frame on the line, received or sent (R8, R9). -/
def remark (f : Mark → Mark) (s : State) : State :=
  s.withLink { s.link with rx := s.link.rx.map f, tx := s.link.tx.map (fun x => { x with mark := f x.mark }) }

/-- R142: the own frame leaves the line, which the station receives on; in its header cell it leaves the queue too. -/
def stopDriving (x : Tx) (s : State) : State :=
  s.withLink
    { s.link with
      tx := none, rx := some x.mark, lineIdle := false, quietSince := max s.link.quietSince (x.lastCell s.now)
      queue := if x.won then s.link.queue else s.link.queue.tail }

/-- R183: the alert word keeps the positions of `w` alone. -/
def keepFlags (w : BitVec 32) (s : State) : State := s.withAlerts { s.alerts with word := s.alerts.word &&& w }

/-- What has to be shown of a property for every step to keep it: it looks at link and alerts alone, and each operation that writes them keeps it. -/
structure LinkKept (P : State → Prop) : Prop where
  same : ∀ {a b}, P a → SameLine a b → P b
  raise : ∀ f, Keeps P (raise f)
  keepFlags : ∀ w, Keeps P (keepFlags w)
  setMask : ∀ w m, Keeps P (setMask w m)
  enqueue : ∀ fs s, fs.length ≤ s.freePlaces → P s → P (enqueue fs s)
  keepQueued : ∀ k, Keeps P (keepQueued k)
  age : Keeps P ageQueue
  remark : ∀ f, Keeps P (remark f)
  start : Keeps P tryStart
  win : Keeps P winClaim
  endFrame : ∀ m, Keeps P (endFrame m)
  undefer : ∀ s, P s → P (s.withLink { s.link with deferral := .no })
  idle : Keeps P lineBecomesIdle
  endWait : Keeps P endWait
  lose : Keeps P loseClaim
  stop : ∀ x s, s.link.tx = some x → P s → P (stopDriving x s)
  complete : Keeps P completeFrame
  receive : Keeps P beginReception
  assertReset : Keeps P assertReset
  reset : ∀ t cause node role page s, P (clearAll t cause node role page s)

namespace LinkKept

variable {P : State → Prop}

/-! ### Flags and offers -/

theorem raiseIf (h : LinkKept P) (c : Bool) (f : AlertFlag) : Keeps P (raiseIf c f) := by
  intro s hs
  cases c
  · exact hs
  · exact h.raise f s hs

theorem refreshLevels (h : LinkKept P) : Keeps P refreshLevels := by
  intro s hs
  have hfold : ∀ (l : List AlertFlag) (a : State), P a → P (l.foldl (fun a f => Machine.raiseIf (s.levelStands f) f a) a) := by
    intro l
    induction l with
    | nil => exact fun _ => id
    | cons f l ih => exact fun a ha => ih _ (h.raiseIf _ f a ha)
  exact hfold _ s hs

/-- R145: a frame joins the queue where there is a place for it. -/
theorem offer (h : LinkKept P) (f : QFrame) : Keeps P (offer f) := by
  intro s hs
  unfold Machine.offer
  split
  · exact hs
  · split
    · exact h.raise _ s hs
    · rename_i hfree
      exact h.enqueue [f] s (Nat.pos_of_ne_zero hfree) hs

theorem offerReply (h : LinkKept P) (bodies : List (List Cell)) : Keeps P (offerReply bodies) := by
  intro s hs
  unfold Machine.offerReply
  split
  · exact hs
  · split
    · exact h.raise _ s hs
    · exact h.enqueue _ s (by rw [List.length_map]; omega) hs

theorem offerOnceIf (h : LinkKept P) (c : Bool) (f : QFrame) (s : State) (hs : P s) : P (if c then offerOnce f s else s) := by
  cases c
  · exact hs
  · unfold offerOnce
    rw [if_pos rfl]
    split
    · exact hs
    · exact h.offer f s hs

theorem flush (h : LinkKept P) : Keeps P flush := by
  intro s hs
  have hunits : ∀ (l : List QFrame) (a : State), P a → P (l.foldl (fun a f => Machine.offer f a) a) := by
    intro l
    induction l with
    | nil => exact fun _ => id
    | cons f l ih => exact fun a ha => ih _ (h.offer f a ha)
  exact h.same (h.offerOnceIf _ _ _ (h.offerOnceIf _ _ _ (h.offerReply _ _ (hunits _ s hs)))) ⟨rfl, rfl⟩

theorem settle (h : LinkKept P) : Keeps P settle := fun s hs => h.start _ (h.flush _ (h.refreshLevels _ (h.same hs {})))

theorem advance (h : LinkKept P) (t : Instant) : Keeps P (advance t) := fun s hs => h.win _ (h.same hs {})

theorem event (h : LinkKept P) {body : State → State} (hb : Keeps P body) {t : Instant} {s u : State} (hs : P s)
    (he : event t body s = .next u) : P u := by
  cases he
  split
  · exact h.advance t s hs
  · exact h.settle _ (hb _ (h.advance t s hs))

/-! ### The gates -/

theorem foldl_missFiring (h : LinkKept P) (l : List Firing) : Keeps P fun s => l.foldl missFiring s := by
  induction l with
  | nil => exact fun _ => id
  | cons f l ih =>
    intro s hs
    have hdropped : P (dropFiring f.tag s) := h.same hs {}
    exact ih _ (h.same (h.raise .gateMissed _ hdropped) ⟨removeTag_link _ _, removeTag_alerts _ _⟩)

theorem foldl_cutFiring (h : LinkKept P) (l : List Firing) : Keeps P fun s => l.foldl cutFiring s := by
  induction l with
  | nil => exact fun _ => id
  | cons f l ih =>
    intro s hs
    have hdropped : P (dropFiring f.tag (setDriver f.gate .idle s)) := h.same hs {}
    exact ih _ (h.same (h.raise .gateOverrun _ hdropped) ⟨removeTag_link _ _, removeTag_alerts _ _⟩)

theorem dropPassed (h : LinkKept P) : Keeps P dropPassed := fun s hs => h.foldl_missFiring _ s hs

theorem muteGates (h : LinkKept P) : Keeps P muteGates := fun s hs => h.same (h.foldl_missFiring s.gates.firings s hs) ⟨rfl, rfl⟩

theorem cutAll (h : LinkKept P) : Keeps P cutAll := by
  intro s hs
  unfold Machine.cutAll
  dsimp only
  split
  · exact hs
  · exact h.same (h.foldl_cutFiring _ s hs) ⟨rfl, rfl⟩

theorem schedule (h : LinkKept P) (tag : BitVec 16) (o : Fin 16) (page : Option (Fin 4)) : Keeps P (schedule tag o page) := by
  intro s hs
  unfold Machine.schedule
  split
  · exact hs
  · split
    · exact h.raise _ s hs
    · exact h.same hs {}

theorem completeVerdict (h : LinkKept P) (tag : BitVec 16) (v : Provisional) : Keeps P (completeVerdict tag v) := by
  intro s hs
  have hcounted : P (countVerdict (capacityCheck s v) s) := h.same hs {}
  unfold Machine.completeVerdict
  dsimp only
  split
  · exact h.same (h.schedule _ _ _ _ (h.raiseIf _ _ _ hcounted)) ⟨rfl, rfl⟩
  · exact h.same (h.raiseIf _ _ _ hcounted) ⟨rfl, rfl⟩

theorem decideUnit (h : LinkKept P) : Keeps P decideUnit := by
  intro s hs
  unfold Machine.decideUnit
  split
  · exact hs
  · dsimp only
    split
    · split <;> split
      · exact hs
      · exact h.completeVerdict _ _ s hs
      · exact hs
      · exact h.completeVerdict _ _ s hs
    · exact hs

theorem sortIndexEvent (h : LinkKept P) : Keeps P sortIndexEvent := fun s hs =>
  h.same (h.decideUnit _ (h.dropPassed _ (h.cutAll s hs)))
    ⟨by rw [Machine.sortIndexEvent, startDue_link, removeEntries_link], by rw [Machine.sortIndexEvent, startDue_alerts, removeEntries_alerts]⟩

/-! ### The engine -/

theorem indexEffect (h : LinkKept P) (pins : BitVec 2) : Keeps P (indexEffect pins) := by
  intro s hs
  have hmarked : P (markEdge (countEdge s)) := h.remark (Mark.nearEdge s.now) (countEdge s) (h.same hs {})
  have haged : P (ageQueue (samplePage pins (markEdge (countEdge s)))) := h.age _ (h.same hmarked {})
  have hcounted : P (counted pins s) := h.same haged ⟨ageStandards_link _, ageStandards_alerts _⟩
  have habort : P (abortRunning (counted pins s)) := h.raiseIf _ _ _ (h.same hcounted {})
  rw [indexEffect_eq]
  split
  · exact h.sortIndexEvent _ habort
  · exact h.same habort {}

theorem computeCoarse (h : LinkKept P) (c : Ctx) (avg : Pair) : Keeps P (computeCoarse c avg) := by
  intro s hs
  unfold Machine.computeCoarse
  exact h.same (h.raiseIf _ .stdLow s hs) ⟨deliverEntry_link _ _, deliverEntry_alerts _ _⟩

theorem endConversion (h : LinkKept P) (x std : BitVec 24) : Keeps P (endConversion x std) := by
  intro s hs
  unfold Machine.endConversion
  split
  · exact hs
  · dsimp only
    split
    · exact h.same hs {}
    · split
      · exact h.raise _ _ (h.same hs {})
      · split
        · exact h.same hs {}
        · unfold endPhase
          split
          · exact h.same hs {}
          · split
            · exact h.computeCoarse _ _ _ (h.same hs {})
            · exact h.same hs {}

theorem deliverCheck (h : LinkKept P) (c : Ctx) (f v : Pair) : Keeps P (deliverCheck c f v) := by
  intro s hs
  unfold Machine.deliverCheck
  dsimp only
  split
  · exact h.raise _ s hs
  · exact hs
  · exact h.same hs {}

theorem computeRelease (h : LinkKept P) (c : Ctx) (f v : Pair) : Keeps P (computeRelease c f v) := by
  intro s hs
  have hdelivered : P (deliverValue (completedRecord s c f v).1 (Machine.raiseIf (completedRecord s c f v).2 .stdLow s)) :=
    h.same (h.raiseIf _ .stdLow s hs) ⟨deliverValue_link _ _, deliverValue_alerts _ _⟩
  unfold Machine.computeRelease
  split
  · exact h.same (h.deliverCheck c f v s hs) {}
  · exact hdelivered
  · exact hdelivered

theorem endTemperature (h : LinkKept P) (r : BitVec 12) : Keeps P (endTemperature r) := by
  intro s hs
  unfold Machine.endTemperature
  split
  · exact hs
  · exact h.computeRelease _ _ _ _ (h.raiseIf _ _ _ (h.same hs {}))

theorem expireLimit (h : LinkKept P) : Keeps P expireLimit := by
  intro s hs
  unfold Machine.expireLimit timeOut
  split
  · split
    · refine h.raise _ _ ?_
      split
      · exact h.same hs {}
      · rename_i reading _
        have hread : P (Machine.raiseIf (reading == 4095) .tempFault (s.withFreeDraws (s.freeDraws + 1))) := h.raiseIf _ _ _ (h.same hs {})
        exact h.same hread {}
    · exact hs
  · exact hs

/-! ### Frames taken -/

theorem enterFault (h : LinkKept P) (r : FaultReason) : Keeps P (enterFault r) := by
  intro s hs
  have hstopped : P (clearFirings (discardSequence s)) := h.same hs {}
  have hemptied : P (setMeasReq false (Machine.keepQueued (fun _ => false) (clearFirings (discardSequence s)))) :=
    h.same (h.keepQueued _ _ hstopped) ⟨rfl, rfl⟩
  exact h.same (h.raise (match r with | .badRole => .badRole | .dupNode => .dupNode) _ hemptied) ⟨rfl, rfl⟩

theorem duplicateReport (h : LinkKept P) : Keeps P duplicateReport := by
  intro s hs
  unfold Machine.duplicateReport
  cases s.ctl.run with
  | listen => exact h.enterFault _ s hs
  | fault => exact hs
  | config => exact h.raise _ s hs
  | ready => exact h.raise _ s hs
  | run => exact h.raise _ s hs
  | halt => exact h.raise _ s hs

theorem standbyTest (h : LinkKept P) : Keeps P standbyTest := by
  intro s hs
  have hdiscarded : P (discardSequence s) := h.same hs {}
  unfold Machine.standbyTest
  split
  · exact hs
  · split
    · exact h.same (h.keepQueued _ _ hdiscarded) ⟨setActivity_link _ _, setActivity_alerts _ _⟩
    · exact h.same (h.raise .takeover s hs) {}
    all_goals exact hs

theorem moveCount (h : LinkKept P) (d : BitVec 16) : Keeps P (moveCount d) := fun s hs =>
  h.raise _ _ (h.remark (Mark.shift d) (s.withIdx { s.idx with count := s.idx.count + d }) (h.same hs {}))

theorem peerTests (h : LinkKept P) : Keeps P peerTests := by
  intro s hs
  have htested := h.standbyTest _ (h.refreshLevels s hs)
  unfold Machine.peerTests realignTest
  split
  · rename_i d _
    have hmoved := h.moveCount d _ htested
    have hended : P (endRunning .doubt (realignTable (forgetOffsets (Machine.moveCount d (Machine.standbyTest (Machine.refreshLevels s)))))) :=
      h.same hmoved {}
    have hdropped := h.dropPassed _ hended
    exact h.standbyTest _ (h.refreshLevels _ (h.same hdropped ⟨drainTest_link _, drainTest_alerts _⟩))
  · exact htested

theorem modifyRow (h : LinkKept P) (n : Fin 8) (f : PeerRow → PeerRow) : Keeps P (modifyRow n f) := fun _ hs => h.same hs {}

theorem takeFrame (h : LinkKept P) (hd : FrameHead) (hail : Option HailBody) {content : State → State} (hc : Keeps P content) :
    Keeps P (takeFrame hd hail content) := by
  intro s hs
  unfold Machine.takeFrame actOnFrame
  split
  · have he := h.endFrame (some hd.sender) s hs
    split
    · exact hc _ he
    · split
      · exact h.duplicateReport _ he
      · exact hc _ (h.peerTests _ (h.modifyRow _ _ _ he))
  · exact hs

theorem obey (h : LinkKept P) (hd : ConsoleHead) {act : State → State} (ha : Keeps P act) : Keeps P (obey hd act) :=
  h.takeFrame _ _ fun s hs => by split <;> [exact ha s hs; exact hs]

theorem fromActiveSource (_h : LinkKept P) (hd : FrameHead) {content : Fin 8 → Role → State → State} (hc : ∀ n r, Keeps P (content n r)) :
    Keeps P (fromActiveSource hd content) := by
  intro s hs
  unfold Machine.fromActiveSource
  split
  · exact hs
  · split
    · split
      · exact hc _ _ s hs
      · exact hs
    · exact hs

theorem reportAhead (h : LinkKept P) (n : Fin 8) : Keeps P (reportAhead n) := fun s hs => h.peerTests _ (h.modifyRow _ _ s hs)

theorem reportLate (h : LinkKept P) : Keeps P reportLate := fun s hs => h.raiseIf _ _ s hs

theorem tableEntry (h : LinkKept P) (b : EntryBody) (n : Fin 8) (r : Role) : Keeps P (tableEntry b n r) := by
  intro s hs
  unfold Machine.tableEntry
  split
  · split
    · exact h.same hs {}
    · exact h.raiseIf _ _ s hs
    · exact h.reportAhead n s hs
  · exact hs

theorem tableValue (h : LinkKept P) (b : ValueBody) (n : Fin 8) (r : Role) : Keeps P (tableValue b n r) := by
  intro s hs
  unfold Machine.tableValue
  split
  · split
    · split
      · exact h.same hs {}
      · exact hs
    · exact h.raiseIf _ _ s hs
    · exact h.reportAhead n s hs
  · exact hs

theorem tableVerdict (h : LinkKept P) (b : VerdictBody) (n : Fin 8) (r : Role) : Keeps P (tableVerdict b n r) := by
  intro s hs
  unfold Machine.tableVerdict
  split
  · split
    · exact hs
    · split
      · exact hs
      · exact hs
      · exact h.reportAhead n s hs
  all_goals exact hs

/-! ### The console -/

theorem runMode (h : LinkKept P) : Keeps P runMode := by
  intro s hs
  unfold Machine.runMode
  split
  · exact hs
  · exact hs
  · exact h.raise _ s hs
  · split
    · exact h.same hs {}
    · exact h.raise _ s hs
  · split
    · exact h.same hs {}
    · exact h.raise _ s hs
  · exact h.same hs {}

theorem haltMode (h : LinkKept P) (m : HaltMode) : Keeps P (haltMode m) := by
  intro s hs
  unfold Machine.haltMode
  split
  · exact hs
  · exact hs
  · exact h.raise _ s hs
  · exact h.raise _ s hs
  · exact h.raise _ s hs
  · exact h.same hs {}
  · exact hs

theorem drainMode (h : LinkKept P) : Keeps P drainMode := by
  intro s hs
  unfold Machine.drainMode
  split
  · exact hs
  · exact hs
  · exact hs
  · exact h.raise _ s hs
  · exact h.raise _ s hs
  · split
    · exact h.same hs {}
    · exact h.same hs {}
    · exact h.same hs {}
    · exact h.same hs {}
    · exact h.same hs {}
    · exact hs

theorem setupFrame (h : LinkKept P) (b : Bool) {act : State → State} (ha : Keeps P act) : Keeps P (setupFrame b act) := by
  intro s hs
  unfold Machine.setupFrame
  split
  · exact hs
  · exact hs
  · exact h.raise _ s hs
  · exact h.raise _ s hs
  · exact h.raise _ s hs
  · split
    · exact hs
    · exact ha s hs

theorem finishSetup (h : LinkKept P) : Keeps P finishSetup := by
  intro s hs
  unfold Machine.finishSetup
  split
  · exact h.same hs {}
  · exact h.raise _ s hs

theorem setupItem (h : LinkKept P) (item : BitVec 8) (v : Dev) : Keeps P (setupItem item v) := by
  intro s hs
  unfold Machine.setupItem
  split
  · split
    · exact h.same hs {}
    · exact h.same hs {}
  · split
    · exact h.finishSetup s hs
    · exact h.raise _ s hs

theorem recipeFrame (h : LinkKept P) (page : BitVec 4) {act : Fin 4 → State → State} (ha : ∀ p, Keeps P (act p)) : Keeps P (recipeFrame page act) := by
  intro s hs
  unfold Machine.recipeFrame
  split
  · exact hs
  · split
    · exact h.raise _ s hs
    · exact ha _ s hs

theorem loadParameterPage (h : LinkKept P) (field : BitVec 12) (v : Dev) (p : Fin 4) : Keeps P (loadParameterPage field v p) := by
  intro s hs
  unfold Machine.loadParameterPage
  split
  · exact h.raise _ s hs
  · split
    · exact h.same hs {}
    · exact h.raise _ s hs

theorem loadBinPage (h : LinkKept P) (bin : BitVec 12) (lower upper : Dev) (gate : BitVec 12) (capacity : BitVec 16) (lo hi : Option Dev)
    (p : Fin 4) : Keeps P (loadBinPage bin lower upper gate capacity lo hi p) := by
  intro s hs
  unfold Machine.loadBinPage
  split
  · exact h.raise _ s hs
  · split
    · exact h.same hs {}
    · exact h.raise _ s hs

theorem removeBinPage (h : LinkKept P) (bin : BitVec 12) (p : Fin 4) : Keeps P (removeBinPage bin p) := by
  intro s hs
  unfold Machine.removeBinPage
  split
  · exact h.raise _ s hs
  · split
    · exact h.same hs {}
    · exact h.raise _ s hs

theorem lockPage (h : LinkKept P) (expected : BitVec 12) (p : Fin 4) : Keeps P (lockPage expected p) := by
  intro s hs
  unfold Machine.lockPage
  dsimp only
  split
  · exact h.raise _ s hs
  · split
    · exact h.same hs {}
    · exact h.raise _ s hs
  · split
    · exact hs
    · exact h.raise _ s hs

theorem settleBinFull (h : LinkKept P) : Keeps P settleBinFull := by
  intro s hs
  unfold Machine.settleBinFull
  split
  · exact hs
  · exact h.keepFlags _ s hs

theorem erasePage (h : LinkKept P) (p : Fin 4) : Keeps P (erasePage p) := by
  intro s hs
  unfold Machine.erasePage clearPageTallies
  split
  · exact h.raise _ s hs
  · dsimp only
    split
    · exact h.settleBinFull _ (h.same hs {})
    · exact h.same hs {}

theorem clearBin (h : LinkKept P) (page : BitVec 4) (bin : BitVec 8) : Keeps P (clearBin page bin) := by
  intro s hs
  unfold Machine.clearBin
  split
  · exact hs
  · split
    · exact h.settleBinFull _ (h.same hs {})
    · exact h.raise _ s hs

theorem clearFlags (h : LinkKept P) (form : ClearForm) : Keeps P (clearFlags form) := by
  intro s hs
  unfold Machine.clearFlags
  split
  · exact hs
  · split
    · exact h.keepFlags _ s hs
    · exact h.raise _ s hs

theorem muteFrame (_h : LinkKept P) {act : State → State} (ha : Keeps P act) : Keeps P (muteFrame act) := by
  intro s hs
  unfold Machine.muteFrame
  split
  · exact hs
  · exact ha s hs

theorem muteStation (h : LinkKept P) : Keeps P muteStation := by
  intro s hs
  unfold Machine.muteStation enterMuted
  split
  · exact hs
  · have hdiscarded : P (discardSequence s) := h.same hs {}
    have hdropped : P (if (discardSequence s).role = some .sort then Machine.muteGates (discardSequence s) else discardSequence s) := by
      split
      · exact h.muteGates _ hdiscarded
      · exact hdiscarded
    exact h.same (h.keepQueued _ _ hdropped) ⟨setActivity_link _ _, setActivity_alerts _ _⟩

theorem restartClears (h : LinkKept P) : Keeps P restartClears := by
  intro s hs
  have hemptied : P (emptyQueue (emptyTable (releaseEngine s))) := h.undefer _ (h.keepQueued _ _ (h.same hs {}))
  have hcleared : P (clearRecords (clearTallies (clearFirings (emptyQueue (emptyTable (releaseEngine s)))))) := h.same hemptied {}
  exact h.same (h.keepFlags 0 _ hcleared) ⟨rfl, by simp [Machine.restartClears, clearWordAll, Machine.keepFlags]⟩

theorem restartStation (h : LinkKept P) : Keeps P restartStation := by
  intro s hs
  unfold Machine.restartStation
  split
  · exact hs
  · have hcleared := h.restartClears s hs
    dsimp only
    split
    · exact h.same hcleared {}
    · exact h.same hcleared {}

theorem query (_h : LinkKept P) {reply : State → State} (hr : Keeps P reply) : Keeps P (query reply) := by
  intro s hs
  unfold Machine.query
  split
  · exact hs
  · exact hr s hs

theorem replyState (h : LinkKept P) (item : StateItem) (arg : BitVec 4) : Keeps P (replyState item arg) := by
  intro s hs
  cases item with
  | state => exact h.same hs ⟨rfl, rfl⟩
  | undefinedItem n => exact h.raise _ s hs

theorem replyPeerRow (h : LinkKept P) (arg : BitVec 4) : Keeps P (replyPeerRow arg) := by
  intro s hs
  unfold Machine.replyPeerRow
  split
  · exact h.same hs {}
  · exact h.raise _ s hs

theorem replyBinTally (h : LinkKept P) (arg page : BitVec 4) (bin : BitVec 8) : Keeps P (replyBinTally arg page bin) := by
  intro s hs
  unfold Machine.replyBinTally
  split
  · exact h.same hs {}
  · exact h.raise _ s hs

theorem replyReasonTally (h : LinkKept P) (arg : BitVec 4) : Keeps P (replyReasonTally arg) := by
  intro s hs
  unfold Machine.replyReasonTally
  split
  · exact h.same hs {}
  · exact h.raise _ s hs

theorem replyDriftSlot (h : LinkKept P) (arg : BitVec 4) : Keeps P (replyDriftSlot arg) := by
  intro s hs
  unfold Machine.replyDriftSlot
  split
  · exact h.same hs {}
  · exact h.raise _ s hs

/-! ### Reset, silence, discards and collisions -/

theorem startUp (h : LinkKept P) : Keeps P startUp := by
  intro s hs
  unfold Machine.startUp
  split
  · exact h.same hs {}
  · exact h.enterFault _ s hs

theorem silencePeer (h : LinkKept P) (n : Fin 8) : Keeps P (silencePeer n) := by
  intro s hs
  unfold Machine.silencePeer
  split
  · exact h.peerTests _ (h.modifyRow _ _ s hs)
  · exact hs

theorem discardFrame (h : LinkKept P) (sender : Option (BitVec 4)) : Keeps P (discardFrame sender) := by
  intro s hs
  unfold Machine.discardFrame countDiscard
  split
  · have he := h.endFrame sender s hs
    split
    · split
      · exact he
      · exact h.peerTests _ (h.modifyRow _ _ _ he)
    · exact he
  · exact hs

theorem collide (h : LinkKept P) : Keeps P collide := by
  intro s hs
  unfold Machine.collide
  split
  · rename_i x hx
    have hstopped := h.stop x s hx hs
    by_cases hw : x.won = true
    · exact if_pos hw ▸ h.duplicateReport _ hstopped
    · exact if_neg hw ▸ hstopped
  · exact hs

/-! ### Every command -/

theorem exec (h : LinkKept P) (c : Instr) {s u : State} (hs : P s) (he : exec c s = .next u) : P u := by
  cases c with
  | indexEvent t pins =>
    have ha := h.advance t s hs
    cases he
    split
    · exact h.settle _ (h.indexEffect pins _ ha)
    · exact ha
  | resetAssert t => cases he; exact h.assertReset _ (h.advance t s hs)
  | hardReset t cause node role page => cases he; exact h.settle _ (h.startUp _ (h.reset t cause node role page s))
  | conversionEnd t x std => exact h.event (h.endConversion x std) hs he
  | temperatureSampleEnd t r => exact h.event (h.endTemperature r) hs he
  | measLimitExpiry t => exact h.event h.expireLimit hs he
  | peerSilence t n => exact h.event (h.silencePeer n) hs he
  | lineIdle t => exact h.event h.idle hs he
  | deferralWaitExpiry t => exact h.event h.endWait hs he
  | claimLost t => exact h.event h.lose hs he
  | collision t => exact h.event h.collide hs he
  | frameSent t => exact h.event h.complete hs he
  | frameStart t => exact h.event h.receive hs he
  | frameDiscard t sender => exact h.event (h.discardFrame sender) hs he
  | entryReceived t hd b => exact h.event (h.takeFrame _ _ (h.fromActiveSource _ (h.tableEntry b))) hs he
  | valueReceived t hd b => exact h.event (h.takeFrame _ _ (h.fromActiveSource _ (h.tableValue b))) hs he
  | verdictReceived t hd b => exact h.event (h.takeFrame _ _ (h.fromActiveSource _ (h.tableVerdict b))) hs he
  | hailReceived t hd b => exact h.event (h.takeFrame _ _ fun _ => id) hs he
  | alertFrameReceived t hd w => exact h.event (h.takeFrame _ _ fun _ => id) hs he
  | statusReceived t hd b => exact h.event (h.takeFrame _ _ fun _ => id) hs he
  | run t hd => exact h.event (h.obey _ h.runMode) hs he
  | halt t hd m => exact h.event (h.obey _ (h.haltMode m)) hs he
  | drain t hd => exact h.event (h.obey _ h.drainMode) hs he
  | setup t hd item v => exact h.event (h.obey _ (h.setupFrame _ (h.setupItem item v))) hs he
  | setupPosition t hd v => exact h.event (h.obey _ (h.setupFrame _ fun s hs => h.same hs {})) hs he
  | setupGatePos t hd g v => exact h.event (h.obey _ (h.setupFrame _ fun s hs => h.same hs {})) hs he
  | done t hd v => exact h.event (h.obey _ (h.setupFrame _ h.finishSetup)) hs he
  | loadParameter t hd page field v => exact h.event (h.obey _ (h.recipeFrame _ (h.loadParameterPage field v))) hs he
  | loadBin t hd page bin lower upper gate capacity lo hi =>
    exact h.event (h.obey _ (h.recipeFrame _ (h.loadBinPage bin lower upper gate capacity lo hi))) hs he
  | loadBinRemove t hd page bin => exact h.event (h.obey _ (h.recipeFrame _ (h.removeBinPage bin))) hs he
  | lock t hd page digest => exact h.event (h.obey _ (h.recipeFrame _ (h.lockPage digest))) hs he
  | erase t hd page => exact h.event (h.obey _ (h.recipeFrame _ h.erasePage)) hs he
  | binClear t hd page bin => exact h.event (h.obey _ (h.clearBin page bin)) hs he
  | clearAlertFlags t hd form => exact h.event (h.obey _ (h.clearFlags form)) hs he
  | mask t hd word master => exact h.event (h.obey _ (h.setMask word master)) hs he
  | mute t hd => exact h.event (h.obey _ (h.muteFrame h.muteStation)) hs he
  | unmute t hd => exact h.event (h.obey _ (h.muteFrame fun s hs => h.same hs {})) hs he
  | restart t hd => exact h.event (h.obey _ h.restartStation) hs he
  | queryState t hd item arg => exact h.event (h.obey _ (h.query (h.replyState item arg))) hs he
  | queryAlertWord t hd arg => exact h.event (h.obey _ (h.query fun s hs => h.same hs {})) hs he
  | queryPeerRow t hd arg => exact h.event (h.obey _ (h.query (h.replyPeerRow arg))) hs he
  | queryBinTally t hd arg page bin => exact h.event (h.obey _ (h.query (h.replyBinTally arg page bin))) hs he
  | queryReasonTally t hd arg => exact h.event (h.obey _ (h.query (h.replyReasonTally arg))) hs he
  | queryEntry t hd arg tag => exact h.event (h.obey _ (h.query fun s hs => h.same hs {})) hs he
  | queryDriftSlot t hd arg => exact h.event (h.obey _ (h.query (h.replyDriftSlot arg))) hs he
  | _ => exact h.event (fun s hs => h.same hs {}) hs he

/-- A property for which the operations keep it is kept by every step. -/
theorem step (h : LinkKept P) {s u : State} (hs : P s) (he : step s = .next u) : P u := by
  unfold Machine.step at he
  split at he
  · cases he; exact hs
  · exact h.exec _ (h.same hs {}) he

end LinkKept

end Sys2Proof.Machine
end

section
/-! Settles O53: the transmit queue, the line and the alert word are sound after every step (R140, R141, R145, R146, R182, R184). -/

namespace Sys2Proof.Machine

/-! ### Queue and line -/

/-- R141: a claim not yet won is for the head of the queue. -/
def ClaimsHead (l : Link) : Prop := ∀ x, l.tx = some x → x.won = false → l.queue.head?.map QItem.frame = some x.frame

/-- R140: an idle line carries no frame of the station, sent or received. -/
def IdleFree (l : Link) : Prop := l.lineIdle = true → l.tx = none ∧ l.rx = none

/-- What `QueueOk` asks of the Link Interface. -/
structure LinkOk (l : Link) : Prop where
  room : l.queue.length ≤ 6
  fresh : ∀ q ∈ l.queue, q.frame.isUnit = true → q.waiting < 2
  claim : ClaimsHead l
  idle : IdleFree l

theorem queueOk_iff (s : State) : QueueOk s ↔ LinkOk s.link ∧ s.work = Work.empty :=
  ⟨fun ⟨hroom, hfresh, hclaim, hidle, hwork⟩ => ⟨⟨hroom, hfresh, hclaim, hidle⟩, hwork⟩,
    fun ⟨⟨hroom, hfresh, hclaim, hidle⟩, hwork⟩ => ⟨hroom, hfresh, hclaim, hidle, hwork⟩⟩

theorem ClaimsHead.of_none {l : Link} (h : l.tx = none) : ClaimsHead l := fun x hx => by rw [h] at hx; cases hx

theorem IdleFree.of_busy {l : Link} (h : l.lineIdle = false) : IdleFree l := fun hi => by rw [h] at hi; cases hi

/-- R140: while a frame of the station is on the line, the line is not idle. -/
theorem IdleFree.busy {l : Link} (h : IdleFree l) {x : Tx} (hx : l.tx = some x) : l.lineIdle = false := by
  rw [← Bool.not_eq_true]
  intro hi
  rw [(h hi).1] at hx
  cases hx

/-- R140, R141: no frame joins the queue. -/
theorem LinkOk.sublist {l m : Link} (h : LinkOk l) (hq : m.queue.Sublist l.queue) (hc : ClaimsHead m) (hi : IdleFree m) : LinkOk m :=
  ⟨hq.length_le.trans h.room, fun q hm => h.fresh q (hq.subset hm), hc, hi⟩

theorem tx_of_keepQueued {s : State} {k : QItem → Bool} {x : Tx} (h : (keepQueued k s).link.tx = some x) : s.link.tx = some x := by
  cases htx : s.link.tx with
  | none => rw [((keepQueued_line k s).idle htx).1] at h; cases h
  | some y =>
    rcases (keepQueued_line k s).sending y htx with ⟨ht, -⟩ | ⟨-, ht, -⟩
    · exact ht.symm.trans h
    · rw [ht] at h; cases h

/-- R146, R147: the head of the queue takes its claim with it when it leaves. -/
theorem claimsHead_keepQueued {s : State} (h : ClaimsHead s.link) (k : QItem → Bool) : ClaimsHead (keepQueued k s).link := by
  intro x hx hw
  have htx := tx_of_keepQueued hx
  have hhead := h x htx hw
  cases hq : s.link.queue with
  | nil => simp [hq] at hhead
  | cons q rest =>
    cases hk : k q with
    | true => simpa [keepQueued, hq, hk] using hhead
    | false => simp [keepQueued, hq, hk, htx, hw] at hx

/-- R140: a claim that stops leaves the station receiving on a line that was not idle. -/
theorem idleFree_keepQueued {s : State} (h : IdleFree s.link) (k : QItem → Bool) : IdleFree (keepQueued k s).link := by
  intro hi
  obtain ⟨htx, hrx⟩ := h (by simpa using hi)
  obtain ⟨ht, hr⟩ := (keepQueued_line k s).idle htx
  exact ⟨ht, by rw [hr, hrx]; rfl⟩

theorem LinkOk.keepQueued {s : State} (h : LinkOk s.link) (k : QItem → Bool) : LinkOk (keepQueued k s).link :=
  h.sublist List.filter_sublist (claimsHead_keepQueued h.claim k) (idleFree_keepQueued h.idle k)

theorem QItem.age_frame (q : QItem) : q.age.frame = q.frame := by
  unfold QItem.age
  split <;> rfl

/-- R146: one index event older, the queue keeps the unit records that have waited through fewer than 2. -/
theorem linkOk_ageQueue {s : State} (h : LinkOk s.link) : LinkOk (ageQueue s).link := by
  let older := s.withLink { s.link with queue := s.link.queue.map QItem.age }
  have hclaim : ClaimsHead older.link := by
    intro x hx hw
    have hhead := h.claim x hx hw
    cases hq : s.link.queue with
    | nil => simp [hq] at hhead
    | cons q rest => simpa [older, hq, QItem.age_frame] using hhead
  have hidle : IdleFree older.link := h.idle
  rw [ageQueue, raiseIf_link]
  refine ⟨?_, fun q hq hu => ?_, claimsHead_keepQueued hclaim _, idleFree_keepQueued hidle _⟩
  · exact (List.length_filter_le _ _).trans (by simpa using h.room)
  · have hfresh : q.isStale = false := by simpa using (List.mem_filter.mp hq).2
    simpa [QItem.isStale, hu] using hfresh

theorem linkOk_enqueue {fs : List QFrame} {s : State} (hfree : fs.length ≤ s.freePlaces) (h : LinkOk s.link) : LinkOk (enqueue fs s).link := by
  obtain ⟨hroom, hfresh, hclaim, hidle⟩ := h
  refine ⟨?_, fun q hq hu => ?_, fun x hx hw => ?_, hidle⟩
  · have hlen : fs.length ≤ 6 - s.link.queue.length := hfree
    simp only [enqueue, State.withLink_link, List.length_append, List.length_map]
    omega
  · rcases List.mem_append.mp hq with hq | hq
    · exact hfresh q hq hu
    · obtain ⟨f, -, rfl⟩ := List.mem_map.mp hq
      exact Nat.zero_lt_two
  · have hhead := hclaim x hx hw
    cases hq : s.link.queue with
    | nil => simp [hq] at hhead
    | cons q rest => simpa [enqueue, hq] using hhead

/-- R140, R144: a header cell starts for the head of the queue, on a line that is idle no longer. -/
theorem linkOk_tryStart {s : State} (h : LinkOk s.link) : LinkOk (tryStart s).link := by
  rcases tryStart_line s with ⟨-, he⟩ | ⟨-, q, rest, hq, he⟩
  · rwa [he]
  · rw [he]
    refine h.sublist (List.Sublist.refl _) (fun x hx _ => ?_) (.of_busy rfl)
    obtain rfl := Option.some.inj hx
    simp [hq]

theorem linkOk_winClaim {s : State} (h : LinkOk s.link) : LinkOk (winClaim s).link := by
  unfold winClaim
  split
  · rename_i x hx
    split
    · refine h.sublist (List.tail_sublist _) (fun y hy hw => ?_) (.of_busy (h.idle.busy hx))
      obtain rfl := Option.some.inj hy
      cases hw
    · exact h
  · exact h

theorem linkOk_completeFrame {s : State} (h : LinkOk s.link) : LinkOk (completeFrame s).link := by
  unfold completeFrame
  split
  · rename_i x hx
    split
    · exact h.sublist (List.Sublist.refl _) (.of_none rfl) (.of_busy (h.idle.busy hx))
    · exact h
  · exact h

theorem linkOk_lineBecomesIdle {s : State} (h : LinkOk s.link) : LinkOk (lineBecomesIdle s).link := by
  unfold lineBecomesIdle
  dsimp only
  split
  · exact linkOk_completeFrame h
  · rename_i hbusy
    have htx : (completeFrame s).link.tx = none := by
      simp only [Bool.or_eq_true, not_or, Bool.not_eq_true, Option.isSome_eq_false_iff, Option.isNone_iff_eq_none] at hbusy
      exact hbusy.1
    have hdropped : (dropReception (completeFrame s)).link.tx = none ∧ (dropReception (completeFrame s)).link.rx = none := by
      unfold dropReception
      split
      · exact ⟨htx, rfl⟩
      · exact ⟨htx, ‹_›⟩
    refine (linkOk_completeFrame h).sublist (by simp [goIdle]) (.of_none hdropped.1) fun _ => hdropped

theorem linkOk_kept : LinkKept fun s => LinkOk s.link where
  same h hs := hs.link ▸ h
  raise f s h := by simpa using h
  keepFlags _ _ h := h
  setMask w m s h := by simpa using h
  enqueue _ _ := linkOk_enqueue
  keepQueued k _ h := h.keepQueued k
  age _ := linkOk_ageQueue
  remark f s h := by
    refine h.sublist (List.Sublist.refl _) (fun x hx hw => ?_) fun hi => ?_
    · obtain ⟨y, hy, rfl⟩ := Option.map_eq_some_iff.mp hx
      exact h.claim y hy hw
    · obtain ⟨htx, hrx⟩ := h.idle hi
      exact ⟨by simp [remark, htx], by simp [remark, hrx]⟩
  start _ := linkOk_tryStart
  win _ := linkOk_winClaim
  endFrame m s h := h.sublist (List.Sublist.refl _) h.claim (.of_busy rfl)
  undefer _ h := ⟨h.room, h.fresh, h.claim, h.idle⟩
  idle _ := linkOk_lineBecomesIdle
  endWait s h := h.sublist (by simp) (by simpa [ClaimsHead] using h.claim) (by simpa [IdleFree] using h.idle)
  lose s h := by
    unfold loseClaim
    split
    · split
      · exact h
      · exact h.sublist (List.Sublist.refl _) (.of_none rfl) (.of_busy rfl)
    · exact h
  stop x s _ h := by
    refine h.sublist ?_ (.of_none rfl) (.of_busy rfl)
    simp only [stopDriving, State.withLink_link]
    split
    · exact List.Sublist.refl _
    · exact List.tail_sublist _
  complete _ := linkOk_completeFrame
  receive s h := by
    unfold beginReception
    split
    · rename_i hi
      exact h.sublist (List.Sublist.refl _) (.of_none (h.idle hi).1) (.of_busy rfl)
    · exact h.sublist (List.Sublist.refl _) h.claim h.idle
  assertReset s h := h.sublist (List.Sublist.refl _) (.of_none rfl) fun _ => ⟨rfl, rfl⟩
  reset _ _ _ _ _ _ := ⟨Nat.zero_le _, by simp [clearAll, State.cleared], .of_none rfl, .of_busy rfl⟩

theorem event_work {t : Instant} {body : State → State} {s u : State} (hw : s.work = Work.empty) (he : event t body s = .next u) :
    u.work = Work.empty := by
  cases he
  split
  · simpa using hw
  · exact (settle_tail _).work

/-- A command ends with nothing offered, or offers nothing at all. -/
theorem exec_work {c : Instr} {s u : State} (hw : s.work = Work.empty) (he : exec c s = .next u) : u.work = Work.empty := by
  cases c with
  | indexEvent t pins =>
    cases he
    split
    · exact (settle_tail _).work
    · simpa using hw
  | resetAssert t => cases he; simpa [assertReset] using hw
  | hardReset t cause node role page => cases he; exact (settle_tail _).work
  | _ => exact event_work hw he

theorem step_work {s u : State} (hw : s.work = Work.empty) (he : step s = .next u) : u.work = Work.empty := by
  unfold step at he
  split at he
  · cases he; exact hw
  · exact exec_work (by simpa using hw) he

/-! ### The alert word (R182, R184) -/

theorem alertsOk_raise (f : AlertFlag) : Keeps AlertsOk (raise f) := fun s h => ⟨(raise_spare f s).trans h.1, by simpa using h.2⟩

theorem alertsOk_kept : LinkKept AlertsOk where
  same h hs := by unfold AlertsOk; rw [hs.alerts]; exact h
  raise := alertsOk_raise
  keepFlags w s h := ⟨by
    show s.alerts.word &&& w &&& ~~~assignedMask = 0
    rw [BitVec.and_assoc, BitVec.and_comm w, ← BitVec.and_assoc, h.1]
    simp, h.2⟩
  setMask w m s h := by
    unfold setMask
    split
    · exact h
    · exact ⟨h.1, by simp [BitVec.and_assoc]⟩
  enqueue _ _ _ h := h
  keepQueued _ _ h := h
  age s h := by
    unfold ageQueue raiseIf
    dsimp only
    split
    · exact alertsOk_raise _ _ h
    · exact h
  remark _ _ h := h
  start s h := by unfold AlertsOk; rw [tryStart_alerts]; exact h
  win s h := by unfold AlertsOk; rw [winClaim_alerts]; exact h
  endFrame _ _ h := h
  undefer _ h := h
  idle s h := by unfold AlertsOk; rw [lineBecomesIdle_alerts]; exact h
  endWait s h := by unfold AlertsOk; rw [endWait_alerts]; exact h
  lose s h := by unfold AlertsOk; rw [loseClaim_alerts]; exact h
  stop _ _ _ h := h
  complete s h := by unfold AlertsOk; rw [completeFrame_alerts]; exact h
  receive s h := by unfold AlertsOk; rw [beginReception_alerts]; exact h
  assertReset _ h := h
  reset _ _ _ _ _ _ := ⟨by simp [clearAll, State.cleared], by simp [clearAll, State.cleared]⟩

/-- Settles O53: each property is kept by every operation that writes link or alerts, and a command leaves nothing offered. -/
theorem stepKeepsQueue : Obligations.StepKeepsQueue := by
  unfold Obligations.StepKeepsQueue
  refine ⟨fun s u hs he => ?_, fun s u hs he => alertsOk_kept.step hs he⟩
  obtain ⟨hlink, hwork⟩ := (queueOk_iff s).mp hs
  exact (queueOk_iff u).mpr ⟨linkOk_kept.step hlink he, step_work hwork he⟩

end Sys2Proof.Machine
end

section
/-! The cells of frames and replies in the terms of the statements: every cell is the sum of its fields, each at its place (R139, R144, R153 to R157). -/

namespace Sys2Proof.Machine

/-! ### Fields of a cell (R153) -/

/-- R153: the number that fields make up, each a value and the place of its lowest bit. -/
def fieldSum (fields : List (Nat × Nat)) : Nat := (fields.map (fun f => f.1 * 2 ^ f.2)).sum

theorem fieldSum_nil : fieldSum [] = 0 := rfl

theorem fieldSum_cons (v k : Nat) (fields : List (Nat × Nat)) : fieldSum ((v, k) :: fields) = v * 2 ^ k + fieldSum fields := by simp [fieldSum]

theorem cellOf_eq {fields : List (Nat × Nat)} {c : Cell} (h : fieldSum fields = c.toNat) : cellOf fields = c := by
  rw [cellOf, show (fields.map (fun f => f.1 * 2 ^ f.2)).sum = c.toNat from h, BitVec.ofNat_toNat, BitVec.setWidth_eq]

/-- The whole cell as one field. -/
theorem cellOf_whole {n : Nat} {c : Cell} (h : n = c.toNat) : cellOf [(n, 0)] = c :=
  cellOf_eq (by rw [fieldSum_cons, fieldSum_nil, h]; omega)

/-- A single bit in the lowest place. -/
theorem cellOf_bit (b : Bool) : cellOf [(b.toNat, 0)] = 0#11 ++ BitVec.ofBool b := by cases b <;> rfl

theorem cellOf_ofNat (n : Nat) : cellOf [(n, 0)] = BitVec.ofNat 12 n := by simp [cellOf]

theorem echo_eq (item arg : BitVec 4) : echo item.toNat arg.toNat = echoCell item arg :=
  cellOf_eq (by simp only [fieldSum_cons, fieldSum_nil, echoCell, toNat_append_eq_add, BitVec.toNat_ofNat]; omega)

theorem tagHigh_eq (tag : BitVec 16) : cellOf [(tag.toNat / 16, 0)] = tagHigh tag :=
  cellOf_whole (by have := tag.isLt; simp only [tagHigh, BitVec.extractLsb'_toNat, Nat.shiftRight_eq_div_pow]; omega)

theorem tagLow_eq (tag : BitVec 16) {fields : List (Nat × Nat)} {rest : BitVec 8} (h : fieldSum fields = rest.toNat) :
    cellOf ((tag.toNat % 16, 8) :: fields) = tagLow tag rest :=
  cellOf_eq (by simp only [fieldSum_cons, h, tagLow, toNat_append_eq_add, BitVec.extractLsb'_toNat]; omega)

theorem tagPair_eq (tag : BitVec 16) {fields : List (Nat × Nat)} {rest : BitVec 8} (h : fieldSum fields = rest.toNat) :
    tagPair tag fields = [tagHigh tag, tagLow tag rest] := by rw [tagPair, tagHigh_eq, tagLow_eq tag h]

theorem signedOfDev_eq (d : Dev) : signedOfDev d = signedPair d := by
  have hmag := d.mag.isLt
  have hsign : (BitVec.ofBool d.neg).toNat = if d.neg then 1 else 0 := by cases d.neg <;> rfl
  have hhigh : cellOf [(if d.neg then 1 else 0, 11), (d.mag.toNat / 4096, 0)] = BitVec.ofBool d.neg ++ d.mag.extractLsb' 12 11 :=
    cellOf_eq (by
      simp only [fieldSum_cons, fieldSum_nil, toNat_append_eq_add, BitVec.extractLsb'_toNat, Nat.shiftRight_eq_div_pow, hsign]
      omega)
  have hlow : cellOf [(d.mag.toNat % 4096, 0)] = d.mag.extractLsb' 0 12 := cellOf_whole (by simp)
  rw [signedOfDev, signedPair, hhigh, hlow]

theorem signedOpt_eq (d : Option Dev) : signedOpt d = optSigned d := by
  cases d with
  | none => rfl
  | some d => exact signedOfDev_eq d

theorem pairOf_eq (v : BitVec 16) : pairOf v.toNat = countPair v := by
  have hv := v.isLt
  have hhigh : cellOf [(v.toNat / 4096, 0)] = 0#8 ++ v.extractLsb' 12 4 :=
    cellOf_whole (by simp only [toNat_append_eq_add, BitVec.extractLsb'_toNat, Nat.shiftRight_eq_div_pow, BitVec.toNat_ofNat]; omega)
  have hlow : cellOf [(v.toNat % 4096, 0)] = v.extractLsb' 0 12 := cellOf_whole (by simp)
  rw [pairOf, countPair, hhigh, hlow]

theorem wordOf3_eq (w : BitVec 32) : wordOf3 w.toNat = wordCells w := by
  have hw := w.isLt
  have hhigh : cellOf [(w.toNat / 2 ^ 20, 0)] = w.extractLsb' 20 12 :=
    cellOf_whole (by simp only [BitVec.extractLsb'_toNat, Nat.shiftRight_eq_div_pow]; omega)
  have hmid : cellOf [(w.toNat / 2 ^ 8 % 4096, 0)] = w.extractLsb' 8 12 :=
    cellOf_whole (by simp only [BitVec.extractLsb'_toNat, Nat.shiftRight_eq_div_pow])
  have hlow : cellOf [(w.toNat % 256, 4)] = w.extractLsb' 0 8 ++ 0#4 :=
    cellOf_eq (by simp only [fieldSum_cons, fieldSum_nil, toNat_append_eq_add, BitVec.extractLsb'_toNat, BitVec.toNat_ofNat]; omega)
  rw [wordOf3, wordCells, hhigh, hmid, hlow]

/-! ### Codes (R114, R144, R154, R155, R157) -/

theorem shownClass_eq (c : EntryClass) : shownClass c = c.code.toNat := by cases c <;> rfl

theorem shownQuality_eq (q : Quality) : shownQuality q = q.code.toNat := by cases q <;> rfl

theorem shownReason_eq (r : Reason) : shownReason r = r.code.toNat := by cases r <;> rfl

theorem shownState_eq (s : State) : shownState s = (stateCode s.ctl.run s.ctl.drain).toNat := by
  unfold shownState
  cases s.ctl.run <;> cases s.ctl.drain <;> rfl

theorem shownActivity_eq (s : State) : shownActivity s = s.ctl.activity.code.toNat := by
  unfold shownActivity
  cases s.ctl.activity <;> rfl

theorem shownCause_eq (c : ResetCause) : [ResetCause.power, .pin, .restart].idxOf c = c.code.toNat := by cases c <;> rfl

/-! ### Bodies of the unit records (R154) -/

theorem shownCoarse_eq (c : Option Coarse) : shownCoarse c = optCell (c.map coarseCell) := by
  cases c with
  | none => rfl
  | some c =>
    have hcell : cellOf [(c.neg.toNat, 11), (c.mag.toNat, 0)] = coarseCell c :=
      cellOf_eq (by simp only [fieldSum_cons, fieldSum_nil, coarseCell, toNat_append_eq_add, BitVec.toNat_ofBool]; omega)
    exact congrArg (fun x => [x]) hcell

theorem shownFlags_eq (f : ValueFlags) : shownFlags f = flagsCell f :=
  cellOf_eq (by simp only [fieldSum_cons, fieldSum_nil, flagsCell, toNat_append_eq_add, BitVec.toNat_ofBool, BitVec.toNat_ofNat]; omega)

theorem shownFields_eq (dev : Option Dev) (temp : Option (BitVec 12)) (tcr : Option Dev) : shownFields dev temp tcr = valueFields dev temp tcr := by
  have hpresence : cellOf [(dev.isSome.toNat, 0), (temp.isSome.toNat, 1), (tcr.isSome.toNat, 2)]
      = 0#9 ++ BitVec.ofBool tcr.isSome ++ BitVec.ofBool temp.isSome ++ BitVec.ofBool dev.isSome :=
    cellOf_eq (by simp only [fieldSum_cons, fieldSum_nil, toNat_append_eq_add, BitVec.toNat_ofBool, BitVec.toNat_ofNat]; omega)
  have htemp : temp.toList = optCell temp := by cases temp <;> rfl
  rw [shownFields, hpresence, signedOpt_eq, signedOpt_eq, htemp, valueFields]

theorem entryCells_body (r : EntryRecord) :
    tagPair r.tag [(r.stamp.page.val, 6), (shownClass r.cls, 3)] ++ [r.stamp.digest, cellOf [(r.coarse.isSome.toNat, 0)]] ++ shownCoarse r.coarse
      = entryCells r.body := by
  have hpage := Nat.mod_eq_of_lt r.stamp.page.isLt
  have hrest : fieldSum [(r.stamp.page.val, 6), (shownClass r.cls, 3)] = (BitVec.ofNat 2 r.stamp.page.val ++ r.cls.code ++ 0#3).toNat := by
    simp only [fieldSum_cons, fieldSum_nil, toNat_append_eq_add, shownClass_eq, BitVec.toNat_ofNat]
    omega
  rw [tagPair_eq r.tag hrest, cellOf_bit, shownCoarse_eq]
  rfl

theorem codeRest_eq (code : BitVec 4) : fieldSum [(code.toNat, 4)] = (code ++ 0#4).toNat := by
  simp only [fieldSum_cons, fieldSum_nil, toNat_append_eq_add, BitVec.toNat_ofNat, Nat.zero_mod]

theorem valueCells_body (r : ValueRecord) :
    tagPair r.tag [(shownQuality r.quality, 4)] ++ shownFlags r.flags :: shownFields r.deviation r.temperature r.tcr = valueCells r.body := by
  rw [shownQuality_eq, tagPair_eq r.tag (codeRest_eq r.quality.code), shownFlags_eq, shownFields_eq]
  rfl

theorem verdictCells_body (tag : BitVec 16) (v : Verdict) :
    tagPair tag [(shownReason v.reason, 4)] ++ [cellOf [(v.gate.val, 0)], cellOf [(v.bin.isSome.toNat, 0)]]
        ++ (match v.bin with | some b => [cellOf [(b.val + 1, 0)]] | none => [])
      = verdictCells (verdictBody tag v) := by
  rw [shownReason_eq, tagPair_eq tag (codeRest_eq v.reason.code), cellOf_ofNat v.gate.val, cellOf_bit]
  cases hb : v.bin with
  | none => simp [verdictCells, verdictBody, hb, optCell]
  | some b => simp [verdictCells, verdictBody, hb, optCell, cellOf_ofNat, binIndex]

/-! ### HAIL and ALERT (R155, R182) -/

theorem identityCell_eq (s : State) :
    identityCell s = s.ctl.role ++ s.reportedPosition ++ s.ctl.cause.code ++ BitVec.ofNat 2 s.idx.currentPage.val := by
  have hpage := Nat.mod_eq_of_lt s.idx.currentPage.isLt
  refine cellOf_eq ?_
  simp only [fieldSum_cons, fieldSum_nil, toNat_append_eq_add, shownCause_eq, State.reportedPosition, State.position, BitVec.toNat_ofNat]
  omega

theorem pageInUse_eq (s : State) (p : Fin 4) :
    s.pageInUse p = (s.table.entries.any (fun e => e.stamp.any (fun st => st.page == p)) || s.gates.firings.any (fun f => f.page == some p)
      || s.eng.ctx.any (fun c => c.stamp.page == p)) := by
  unfold State.pageInUse
  congr 2
  · congr 1
    funext e
    cases e.stamp <;> rfl
  · cases s.eng.ctx <;> rfl

theorem hailShown_eq (s : State) : hailShown s = hailCells s.hailBody := by
  have hdigest : ∀ p : Fin 4, s.reportedDigest p = if (s.pages[p]).state = .locked then (s.pages[p]).digest else 0 := by
    intro p
    simp [State.reportedDigest, State.stampDigest, State.locked, State.page]
  have hflags : cellOf [((s.pageInUse 0).toNat, 0), ((s.pageInUse 1).toNat, 1), ((s.pageInUse 2).toNat, 2), ((s.pageInUse 3).toNat, 3)]
      = 0#8 ++ s.inUseBits :=
    cellOf_eq (by
      simp only [fieldSum_cons, fieldSum_nil, State.inUseBits, toNat_append_eq_add, BitVec.toNat_ofBool, BitVec.toNat_ofNat]
      omega)
  simp only [pageInUse_eq] at hflags
  simp only [hailShown, hailCells, State.hailBody, hflags, hdigest, identityCell_eq]

/-! ### Frames (R139, R144) -/

theorem sentBody_eq (s : State) (f : QFrame) : sentBody s f = s.bodyCells f := by
  cases f with
  | entry r => exact entryCells_body r
  | value r => exact valueCells_body r
  | verdict tag v => exact verdictCells_body tag v
  | alert => exact wordOf3_eq s.wordOut
  | hail => exact hailShown_eq s
  | status body => rfl

theorem sentKind_eq (f : QFrame) : sentKind f = f.kind.toNat := by cases f <;> rfl

/-- R139, R144: the frame that starts is laid out cell by cell as the station then stands. -/
theorem cellsOf_eq_sentCells (s : State) (f : QFrame) : s.cellsOf f = sentCells s f := by
  have hnode := Nat.mod_eq_of_lt (show s.ctl.node.val < 2 ^ 4 by omega)
  have hcount := s.idx.count.isLt
  have hheader : cellOf [(sentKind f, 8), (s.ctl.node.val, 4), ((s.bodyCells f).length % 16, 0)]
      = headerCell f.kind s.stampHead.sender (s.bodyCells f).length :=
    cellOf_eq (by
      simp only [fieldSum_cons, fieldSum_nil, headerCell, State.stampHead, senderOfNode, toNat_append_eq_add, sentKind_eq, BitVec.toNat_ofNat, hnode]
      omega)
  have hcount1 : cellOf [(s.idx.count.toNat / 16, 0)] = countCell1 s.stampHead := tagHigh_eq s.idx.count
  have hcount2 : cellOf [(s.idx.count.toNat % 16, 8), (shownState s, 4), (shownActivity s, 2)] = countCell2 s.stampHead :=
    cellOf_eq (by
      simp only [fieldSum_cons, fieldSum_nil, countCell2, State.stampHead, toNat_append_eq_add, shownState_eq, shownActivity_eq,
        BitVec.extractLsb'_toNat, BitVec.toNat_ofNat]
      omega)
  have hcheck : ∀ cs : List Cell, cellOf [((cs.map BitVec.toNat).sum % 4096, 0)] = checkCell cs := fun cs => by
    rw [checkCell_eq_cellSum]
    exact cellOf_whole (by simp [cellSum])
  simp only [sentCells, sentBody_eq, hheader, hcount1, hcount2, hcheck]
  rfl

end Sys2Proof.Machine
end

section
/-! Settles O33 and O34: the idle moment, the start, the claim and the end of the own frame (R8, R138 to R144, R148, R149). -/

namespace Sys2Proof.Machine

/-! ### The header that starts (R140, R144) -/

/-- R140, R144: the header of the head of the queue starts, laid out as the station stands at the end of the command. -/
theorem head_starts_as_sent {a u : State} (ht : Tail a u) (hm : a.mayStart = true) {q : QItem} {rest : List QItem} (hq : a.link.queue = q :: rest) :
    ∃ x, u.link.tx = some x ∧ x.won = false ∧ x.mark.startedAt = a.now ∧ x.mark.captured = a.idx.count ∧ x.frame = q.frame
      ∧ x.cells = sentCells u q.frame := by
  obtain ⟨more, hgrown⟩ := ht.grows
  rw [hq, List.cons_append] at hgrown
  rcases ht.line with ⟨hno | hno, -⟩ | ⟨-, -, -, -, q', rest', hu, htx⟩
  · rw [hm] at hno; cases hno
  · rw [hgrown] at hno; cases hno
  · rw [hgrown] at hu
    obtain rfl : q = q' := (List.cons.inj hu).1
    exact ⟨_, htx, rfl, rfl, rfl, rfl, cellsOf_eq_sentCells u q.frame⟩

theorem Tail.tx_of_not_mayStart {a u : State} (ht : Tail a u) (h : a.mayStart = false) : u.link.tx = a.link.tx := by
  rcases ht.line with ⟨-, htx, -⟩ | ⟨hm, -⟩
  · exact htx
  · rw [h] at hm; cases hm

/-! ### LINE_IDLE (R140, R143, R149) -/

theorem completeFrame_noTx {a : State} (h : a.link.tx = none) : completeFrame a = a := by simp [completeFrame, h]

theorem lineBecomesIdle_early {a : State} (htx : a.link.tx = none) (h : a.now < a.link.quietSince + us 12) : lineBecomesIdle a = a := by
  have hquiet : a.lineQuiet = false := decide_eq_false (Nat.not_le_of_lt h)
  simp [lineBecomesIdle, completeFrame_noTx htx, hquiet]

theorem lineBecomesIdle_quiet {a : State} (htx : a.link.tx = none) (h : a.link.quietSince + us 12 ≤ a.now) :
    lineBecomesIdle a = goIdle (dropReception a) := by
  have hquiet : a.lineQuiet = true := decide_eq_true h
  simp [lineBecomesIdle, completeFrame_noTx htx, htx, hquiet]

/-- R143, R149: the sender that a deferring station reckons its wait against at the idle moment: none after a frame that stopped short. -/
def idleSender (l : Link) : Option (BitVec 4) := if l.rx = none then l.lastSender else none

/-- R140, R143, R149: the link at the idle moment, with the deferral `d`. -/
def idleLink (l : Link) (d : Deferral) : Link := { l with rx := none, lineIdle := true, lastSender := idleSender l, deferral := d }

/-- R143: a frame that stops short leaves a deferring station deferring. -/
theorem goIdle_dropReception {a : State} {d : Deferral} (h : startWait (dropReception a) = d) :
    goIdle (dropReception a) = a.withLink (idleLink a.link d) := by
  unfold goIdle
  rw [h]
  unfold dropReception idleLink idleSender
  cases hrx : a.link.rx with
  | none => simp [hrx]
  | some m => simp

theorem dropReception_deferral {a : State} (h : a.link.deferral = .no ∨ a.link.deferral = .deferring) :
    (dropReception a).link.deferral = a.link.deferral := by
  unfold dropReception
  cases a.link.rx with
  | none => rfl
  | some m => rcases h with h | h <;> simp [h, Deferral.interrupted]

theorem dropReception_lastSender (a : State) : (dropReception a).link.lastSender = idleSender a.link := by
  unfold dropReception idleSender
  cases hrx : a.link.rx <;> simp

theorem startWait_deferring {a : State} (h : a.link.deferral = .deferring) :
    startWait (dropReception a)
      = if deferralCells a.ctl.node (idleSender a.link) = 0 then .waitOver
        else .waiting (a.now + us 6 * deferralCells a.ctl.node (idleSender a.link)) := by
  unfold startWait
  rw [dropReception_deferral (.inr h), h, dropReception_lastSender]
  simp

theorem startWait_no {a : State} (h : a.link.deferral = .no) : startWait (dropReception a) = .no := by
  unfold startWait
  rw [dropReception_deferral (.inl h), h]

/-- R140: a station that is not deferring, or whose wait is over, may start on the line gone idle. -/
theorem mayStart_idle {a : State} {d : Deferral} (htx : a.link.tx = none) (hd : d = .no ∨ d = .waitOver) :
    (a.withLink (idleLink a.link d)).mayStart = true := by
  rcases hd with rfl | rfl <;> simp [State.mayStart, idleLink, htx]

/-- Settles O33. -/
theorem lineIdle : Obligations.LineIdle := by
  unfold Obligations.LineIdle
  intro t s hr htx a sender n idle starts
  have hlink : a.link = s.link := advance_link t s htx
  have hnow : a.now = max s.now t := advance_now t s
  have hctl : a.ctl = s.ctl := advance_ctl t s
  have hatx : a.link.tx = none := by rw [hlink, htx]
  have hidle : ∀ d, a.withLink (idleLink a.link d) = idle d := fun d => by rw [hlink]; rfl
  have hcells : deferralCells a.ctl.node (idleSender a.link) = n.toNat := by rw [deferralCells_eq, hlink, hctl]; rfl
  obtain ⟨u, he, ht⟩ := event_tail t lineBecomesIdle s hr
  change Tail (lineBecomesIdle a) u at ht
  refine ⟨fun hearly => ⟨u, he, ?_⟩, fun hquiet => ?_⟩
  · rwa [lineBecomesIdle_early hatx (by rwa [hnow, hlink])] at ht
  · rw [lineBecomesIdle_quiet hatx (by rwa [hnow, hlink])] at ht
    have hstarts : ∀ d, d = .no ∨ d = .waitOver → Tail (idle d) u → starts u := by
      intro d hd htail q rest hq
      have hm : (idle d).mayStart = true := by rw [← hidle]; exact mayStart_idle hatx hd
      obtain ⟨x, hx, hwon, hstart, hcount, hframe, hcs⟩ := head_starts_as_sent htail hm hq
      exact ⟨x, hx, hwon, hstart.trans hnow, hcount.trans (congrArg IndexTracker.count (advance_idx t s)), hframe, hcs⟩
    refine ⟨fun hdef hn => ⟨u, he, ?_⟩, fun hdef hn => ⟨u, he, ?_⟩, fun hdef => ⟨u, he, ?_⟩⟩
    · have hwait := startWait_deferring (a := a) (by rw [hlink, hdef])
      have hn0 : n.toNat ≠ 0 := fun h0 => hn (BitVec.eq_of_toNat_eq h0)
      rw [hcells, if_neg hn0, hnow] at hwait
      rw [goIdle_dropReception hwait, hidle] at ht
      exact ⟨ht, (ht.tx_of_not_mayStart (by simp [State.mayStart, idle])).trans htx⟩
    · have hwait := startWait_deferring (a := a) (by rw [hlink, hdef])
      have hn0 : n.toNat = 0 := congrArg BitVec.toNat hn
      rw [hcells, if_pos hn0] at hwait
      rw [goIdle_dropReception hwait, hidle] at ht
      exact ⟨ht, hstarts _ (.inr rfl) ht⟩
    · rw [goIdle_dropReception (startWait_no (by rw [hlink, hdef])), hidle] at ht
      exact ⟨ht, hstarts _ (.inl rfl) ht⟩

/-! ### The claim (R141) -/

theorem advance_wins {t : Instant} {s : State} {x : Tx} (htx : s.link.tx = some x) (hw : x.won = false)
    (h : x.mark.startedAt + us 6 ≤ max s.now t) :
    advance t s = (s.withNow (max s.now t)).withLink { s.link with tx := some { x with won := true }, queue := s.link.queue.tail } := by
  simp [advance, winClaim, htx, hw, h]

theorem advance_waits {t : Instant} {s : State} (h : ∀ x, s.link.tx = some x → x.won = true ∨ max s.now t < x.mark.startedAt + us 6) :
    advance t s = s.withNow (max s.now t) := by
  unfold advance winClaim
  cases htx : s.link.tx with
  | none => simp [htx]
  | some x =>
    rcases h x htx with hw | hlt
    · simp [htx, hw]
    · have hopen : ¬x.mark.startedAt + cellTime ≤ max s.now t := Nat.not_le_of_lt hlt
      simp [htx, hopen]

/-- R141: past its header cell the own frame is on the line with its claim won. -/
theorem advance_won {t : Instant} {s : State} {x : Tx} (htx : s.link.tx = some x) (h : x.won = true ∨ x.mark.startedAt + us 6 ≤ max s.now t) :
    (advance t s).link = { s.link with tx := some { x with won := true }, queue := if x.won then s.link.queue else s.link.queue.tail } := by
  cases hw : x.won with
  | true =>
    rw [advance_waits fun y hy => .inl (by rw [htx] at hy; cases hy; exact hw)]
    cases x
    subst hw
    simp [← htx]
  | false =>
    rw [advance_wins htx hw (h.resolve_left (by simp [hw]))]
    rfl

/-- R141: in its header cell the own frame is on the line with its claim open. -/
theorem advance_claiming {t : Instant} {s : State} {x : Tx} (htx : s.link.tx = some x) (h : max s.now t < x.mark.startedAt + us 6) :
    (advance t s).link = s.link := by
  rw [advance_waits fun y hy => .inr (by rw [htx] at hy; cases hy; exact h)]
  rfl

/-! ### What is driven onto the line (R138, R139) -/

theorem lineOut_sending {b : State} {x : Tx} (hr : b.resetHeld = false) (htx : b.link.tx = some x) : b.lineOut = some (x.cells.map lineCell) := by
  simp [State.lineOut, hr, htx]

theorem cellOut_sending {b : State} {x : Tx} (hr : b.resetHeld = false) (htx : b.link.tx = some x) :
    b.cellOut = (x.cells[(b.now - x.mark.startedAt) / us 6]?).map lineCell := by
  simp [State.cellOut, hr, htx]

/-- R139: the cells follow one another, each for one cell time. -/
theorem cellIndex_eq {now start k : Nat} (h₁ : start + us 6 * k ≤ now) (h₂ : now < start + us 6 * (k + 1)) : (now - start) / us 6 = k :=
  Nat.div_eq_of_lt_le (by rw [Nat.mul_comm]; omega) (by rw [Nat.mul_comm]; omega)

theorem cellIndex_ge {now start k : Nat} (h : start + us 6 * k ≤ now) : k ≤ (now - start) / us 6 :=
  (Nat.le_div_iff_mul_le (by decide)).mpr (by rw [Nat.mul_comm]; omega)

/-! ### FRAME_SENT (R148) -/

theorem completeFrame_ends {a : State} {x : Tx} (htx : a.link.tx = some x) (hw : x.won = true) (h : x.mark.startedAt + us 6 * x.cells.length ≤ a.now) :
    completeFrame a
      = a.withLink { a.link with tx := none, quietSince := max a.link.quietSince (x.mark.startedAt + us 6 * (x.cells.length - 1)) } := by
  have hend : x.won = true ∧ x.endsAt ≤ a.now := ⟨hw, h⟩
  have hlast : x.lastCell a.now = x.mark.startedAt + us 6 * (x.cells.length - 1) := by
    have hidx : x.cells.length ≤ (a.now - x.mark.startedAt) / cellTime := cellIndex_ge h
    rw [Tx.lastCell, Nat.min_eq_left (by omega)]
  simp [completeFrame, htx, hend, hlast]

theorem completeFrame_early {a : State} (h : ∀ x, a.link.tx = some x → x.won = false ∨ a.now < x.mark.startedAt + us 6 * x.cells.length) :
    completeFrame a = a := by
  unfold completeFrame
  split
  · rename_i x htx
    rw [if_neg]
    rintro ⟨hw, hend⟩
    rcases h x htx with hno | hlt
    · rw [hw] at hno; cases hno
    · exact absurd hend (Nat.not_le_of_lt hlt)
  · rfl

theorem interrupted_eq (d : Deferral) : d.interrupted = if d = .no then .no else .deferring := by cases d <;> rfl

/-- Settles O34. -/
theorem lineEvents : Obligations.LineEvents := by
  unfold Obligations.LineEvents
  intro t s hr a
  have hnow : a.now = max s.now t := advance_now t s
  have hidx : a.idx = s.idx := advance_idx t s
  refine ⟨fun x htx hw h => advance_wins htx hw h, advance_waits, fun due htx hrx hi hd hdue => ?wait, cellsOf_eq_sentCells, fun b hb => ?silent,
    fun b x hb htx => ⟨lineOut_sending hb htx, fun k c hc h₁ h₂ => ?cell, fun h => ?past⟩, fun htx hi => ?start, fun hi => ?busy,
    fun x htx hwon => ?sent, fun hno => ?unsent⟩
  case wait =>
    have hlink : a.link = s.link := advance_link t s htx
    have hend : endWait a = a.withLink { s.link with deferral := .waitOver } := by
      simp [endWait, hlink, hd, hi, hnow, hdue]
    obtain ⟨u, he, ht⟩ := event_tail t endWait s hr
    rw [show endWait (advance t s) = _ from hend] at ht
    refine ⟨u, he, ht, fun q rest hq => ?_⟩
    obtain ⟨x, hx, hw, hstart, hcount, hframe, hcs⟩ := head_starts_as_sent ht (by simp [State.mayStart, hi, htx, hrx]) hq
    exact ⟨x, hx, hw, hstart.trans hnow, hcount.trans (congrArg IndexTracker.count hidx), hframe, hcs⟩
  case silent => rcases hb with hb | hb <;> simp [State.lineOut, State.cellOut, hb]
  case cell => rw [cellOut_sending hb htx, cellIndex_eq h₁ h₂, hc]; rfl
  case past => rw [cellOut_sending hb htx, List.getElem?_eq_none (cellIndex_ge h)]; rfl
  case start =>
    obtain ⟨u, he, ht⟩ := event_tail t beginReception s hr
    have hlink : (advance t s).link = s.link := advance_link t s htx
    have hmark : (advance t s).freshMark
        = { startedAt := max s.now t, captured := s.idx.count, edgeNear := s.idx.lastIndex.any (fun e => decide (max s.now t ≤ e + us 6)) } := by
      simp only [State.freshMark, State.edgeWindowOpen, advance_now, advance_idx]
      cases s.idx.lastIndex <;> rfl
    have hbegin : beginReception (advance t s) = _ := if_pos (by rw [hlink, hi])
    rw [hbegin, hmark, hlink, interrupted_eq, advance_now] at ht
    exact ⟨u, he, ht⟩
  case busy =>
    obtain ⟨u, he, ht⟩ := event_tail t beginReception s hr
    have hbegin : beginReception (advance t s) = _ := if_neg (by rw [advance_link_lineIdle, hi]; decide)
    rw [hbegin, advance_now] at ht
    exact ⟨u, he, ht⟩
  case sent =>
    obtain ⟨u, he, ht⟩ := event_tail t completeFrame s hr
    have hatx : a.link.tx = some { x with won := true } := by rw [show a.link = _ from advance_won htx hwon]
    refine ⟨fun hend => ⟨u, he, ?_⟩, fun hearly => ⟨u, he, ?_⟩⟩
    · rw [completeFrame_ends hatx rfl (by rwa [hnow]), advance_link_quietSince] at ht
      exact ht
    · rwa [completeFrame_early fun y hy => .inr (by rw [hatx] at hy; cases hy; rwa [hnow])] at ht
  case unsent =>
    obtain ⟨u, he, ht⟩ := event_tail t completeFrame s hr
    refine ⟨u, he, ?_⟩
    have hkept : advance t s = s.withNow (max s.now t) := advance_waits fun x hx => .inr (hno x hx).2
    rwa [completeFrame_early fun x hx => .inl (hno x (by rwa [hkept] at hx)).1] at ht

end Sys2Proof.Machine
end

section
/-! Settles O35, O36, O41 and O42: lost claims and collisions, discards, duplicate-node reports, and frames that go no further (R141, R142, R148 to R152, R160, R167, R174, R180). -/

namespace Sys2Proof.Machine

/-- R172: with RESET high a command runs to its end. -/
theorem event_settles (t : Instant) (body : State → State) {s : State} (h : s.resetHeld = false) :
    event t body s = .next (settle (body (advance t s))) := by simp [event, h]

/-- R183: the level flags raised at the end of the tests are those of the end of the command. -/
theorem peerTests_tail {a : State} (h : a.realignBy = none) : Tail (tested a) (settle (peerTests a)) :=
  .of_refresh (peerTests_tested h ▸ settle_tail (peerTests a))

/-! ### The entry to FAULT (R147, R174, R180) -/

/-- R145, R147: in FAULT the one HAIL joins the emptied queue, and no ALERT is admitted beside it. -/
theorem flush_fault {s : State} (hu : s.work.units = []) (hs : s.work.status = []) (hh : s.work.hail = true) (hf : s.ctl.run = .fault)
    (hq : s.link.queue = []) : flush s = (enqueue [.hail] s).withWork Work.empty := by
  have hwaits : ¬s.waits .hail := by
    rintro ⟨q, hmem, -⟩
    have := unstarted_subset hmem
    rw [hq] at this
    cases this
  have hoffered : hailOffered s = enqueue [.hail] s := by
    rw [hailOffered, hh, if_pos rfl, offerOnce_offers hwaits, offer_room (admits_hail s) (by rw [hq]; decide)]
  have hno : (hailOffered s).admits .alert = false := by rw [State.admits, hailOffered_ctl, hf]; rfl
  rw [flush_eq hu hs, hno, Bool.and_false, if_neg (by decide), hoffered]

theorem enterFault_idx (r : FaultReason) (b : State) : (enterFault r b).idx = { b.idx with measReq := false, firingReq := false } := by
  have h : (enterFault r b).idx = { (discarded b).idx with measReq := false, firingReq := false } := by
    simp [enterFault, setMeasReq, discardSequence_eq, clearFirings, setFiringReq]
  rw [h, discarded_idx b]

theorem enterFault_ctl (r : FaultReason) (b : State) :
    (enterFault r b).ctl = { b.ctl with run := .fault, faultReason := some r, listenDue := none, hailDue := none } := by
  simp [enterFault]

theorem enterFault_word (b : State) (f : AlertFlag) :
    flagIn (enterFault .dupNode b).alerts.word f = (flagIn b.alerts.word f || .dupNode == f) := by
  simp [enterFault]

theorem enterFault_levelStands (r : FaultReason) (b : State) (f : AlertFlag) : (enterFault r b).levelStands f = b.levelStands f :=
  levelStands_congr (by simp) (by simp) (by simp) (by simp) (by simp) (by simp) (by simp) f

/-- What a duplicate-node report in LISTEN leaves of the station `b` (R147, R174, R180). -/
structure FaultEntered (b u : State) : Prop where
  ctl : u.ctl = { b.ctl with run := .fault, faultReason := some .dupNode, listenDue := none, hailDue := none }
  alert : u.assertsAlert = true
  hold : u.pullsHold = false
  queue : u.link.queue = [{ frame := .hail, waiting := 0 }]
  flags : ∀ f, flagIn u.alerts.word f = (flagIn b.alerts.word f || (f == .dupNode) || b.levelStands f)
  mask : u.alerts.mask = b.alerts.mask
  master : u.alerts.master = b.alerts.master
  idx : u.idx = { b.idx with measReq := false, firingReq := false }
  ctx : u.eng.ctx = none
  firings : u.gates.firings = []
  drivers : u.gates.drivers = Vector.replicate 16 .idle
  binTallies : u.gates.binTallies = b.gates.binTallies
  reasonTallies : u.gates.reasonTallies = b.gates.reasonTallies
  table : u.table = b.table
  peers : u.peers = b.peers
  pages : u.pages = b.pages
  drift : u.drift = b.drift

/-- R174, R180: a duplicate-node report in LISTEN, with the end of its command. -/
theorem faultEntered {b : State} (hr : b.resetHeld = false) : FaultEntered b (settle (enterFault .dupNode b)) := by
  have ht := settle_tail (enterFault .dupNode b)
  have hfault : (enterFault .dupNode b).ctl.run = .fault := rfl
  have hdrain : drainTest (enterFault .dupNode b) = enterFault .dupNode b := by
    rw [drainTest, if_neg]
    simp [hfault]
  have hflush : flushed (enterFault .dupNode b) = (enqueue [.hail] (refreshLevels (enterFault .dupNode b))).withWork Work.empty := by
    rw [flushed, hdrain]
    exact flush_fault (by simp [enterFault]) (by simp [enterFault]) (by simp [enterFault]) (by rw [refreshLevels_ctl, hfault])
      (by simp [enterFault, keepQueued])
  have hctl := ht.ctl
  rw [hfault, if_neg (by simp), enterFault_ctl] at hctl
  have hidx := ht.idx.trans (enterFault_idx .dupNode b)
  have hheld : (settle (enterFault .dupNode b)).resetHeld = false := by simpa using hr
  refine ⟨hctl, ?_, ?_, ?_, fun f => ?_, by simp, by simp, hidx, ?_, ?_, ?_, ?_, ?_, ?_, ?_, ?_, ?_⟩
  · rw [State.assertsAlert, hheld, hctl]
    rfl
  · rw [State.pullsHold, hidx]
    simp
  · rw [ht.queue, hflush]
    simp [enqueue, enterFault, keepQueued]
  · rw [settle, tryStart_alerts, show flush _ = _ from hflush, State.withWork_alerts, enqueue_alerts, refreshLevels_flag, levelStands_mem,
      enterFault_levelStands, enterFault_word]
    cases f <;> rfl
  · rw [ht.eng]; simp [enterFault, discardSequence_ctx]
  · rw [ht.gates]; simp [enterFault, setMeasReq, clearFirings, setFiringReq]
  · rw [ht.gates]; simp [enterFault, setMeasReq, clearFirings, setFiringReq]
  · rw [ht.gates]; simp
  · rw [ht.gates]; simp
  · rw [ht.table]; simp [enterFault, discardSequence_eq, discarded_table]
  · rw [ht.peers]; simp
  · rw [ht.pages]; simp
  · rw [ht.drift]; simp

theorem duplicateReport_raises {b : State} (hl : b.ctl.run ≠ .listen) (hf : b.ctl.run ≠ .fault) : duplicateReport b = raise .dupNode b := by
  unfold duplicateReport
  cases hrun : b.ctl.run <;> simp_all

theorem duplicateReport_listen {b : State} (h : b.ctl.run = .listen) : duplicateReport b = enterFault .dupNode b := by simp [duplicateReport, h]

theorem duplicateReport_fault {b : State} (h : b.ctl.run = .fault) : duplicateReport b = b := by simp [duplicateReport, h]

/-! ### Lost claims and collisions (R141, R142) -/

theorem loseClaim_open {a : State} {x : Tx} (htx : a.link.tx = some x) (hw : x.won = false) :
    loseClaim a = a.withLink { a.link with tx := none, rx := some x.mark, lineIdle := false, deferral := .deferring } := by
  simp [loseClaim, htx, hw]

theorem loseClaim_not {a : State} (h : ∀ x, a.link.tx = some x → x.won = true) : loseClaim a = a := by
  unfold loseClaim
  split
  · rename_i x htx
    rw [if_pos (h x htx)]
  · rfl

theorem collide_open {a : State} {x : Tx} (htx : a.link.tx = some x) (hw : x.won = false) : collide a = stopDriving x a := by
  simp [collide, htx, hw, stopDriving]

theorem collide_won {a : State} {x : Tx} (htx : a.link.tx = some x) (hw : x.won = true) : collide a = duplicateReport (stopDriving x a) := by
  simp [collide, htx, hw, stopDriving]

theorem collide_none {a : State} (h : a.link.tx = none) : collide a = a := by simp [collide, h]

theorem elapsed_lt {now start length : Nat} (hpos : 0 < length) (h : now < start + length) : now - start < length := by omega

/-- R139: in the header cell no later cell has started. -/
theorem lastCell_header {x : Tx} {now : Instant} (h : now < x.mark.startedAt + us 6) : x.lastCell now = x.mark.startedAt := by
  have hzero : (now - x.mark.startedAt) / cellTime = 0 := Nat.div_eq_of_lt (elapsed_lt (by decide) h)
  simp [Tx.lastCell, hzero]

/-- Settles O35. -/
theorem claimLostAndCollision : Obligations.ClaimLostAndCollision := by
  unfold Obligations.ClaimLostAndCollision
  intro t s hr a
  have hnow : a.now = max s.now t := advance_now t s
  have hlost := event_tail t loseClaim s hr
  have hcollision := event_settles t collide hr
  refine ⟨fun htx => ?none, fun x htx => ⟨fun hw hopen => ?claiming, fun hwon => ?won⟩⟩
  case none =>
    have hatx : a.link.tx = none := by rw [show a.link = s.link from advance_link t s htx, htx]
    refine ⟨?_, _, hcollision, tail_of_eq (collide_none hatx)⟩
    rwa [loseClaim_not fun x hx => by rw [hatx] at hx; cases hx] at hlost
  case claiming =>
    have hlink : a.link = s.link := advance_claiming htx hopen
    have hatx : a.link.tx = some x := by rw [hlink, htx]
    refine ⟨?_, _, hcollision, tail_of_eq ?_⟩
    · rwa [loseClaim_open hatx hw, show (advance t s).link = s.link from hlink] at hlost
    · rw [collide_open hatx hw, stopDriving, hlink, lastCell_header (hnow ▸ hopen), hw]
      rfl
  case won =>
    intro cell b
    have hlink := advance_won htx hwon
    have hatx : a.link.tx = some { x with won := true } := by rw [show a.link = _ from hlink]
    have hstop : stopDriving { x with won := true } a = b := by
      rw [stopDriving, show a.link = _ from hlink, hnow]
      rfl
    have hrun : b.ctl.run = s.ctl.run := congrArg RunControl.run (advance_ctl t s)
    rw [show collide (advance t s) = _ from collide_won hatx rfl, hstop] at hcollision
    refine ⟨?_, fun hworks => ⟨_, hcollision, tail_of_eq ?_⟩, fun hlisten => ⟨_, hcollision, ?_⟩, fun hfault => ⟨_, hcollision, tail_of_eq ?_⟩⟩
    · rwa [loseClaim_not fun y hy => by rw [show (advance t s).link.tx = _ from hatx] at hy; cases hy; rfl] at hlost
    · rw [← hrun] at hworks
      exact duplicateReport_raises (by rintro h; simp [h] at hworks) (by rintro h; simp [h] at hworks)
    · rw [duplicateReport_listen (hrun.trans hlisten)]
      have hentered := faultEntered (b := b) ((advance_resetHeld t s).trans hr)
      refine ⟨by rw [hentered.ctl], by rw [hentered.ctl], ?_, hentered.alert, by rw [hentered.ctl], by rw [hentered.ctl], hentered.ctx,
        hentered.firings, hentered.queue⟩
      rw [hentered.flags]
      simp
    · exact duplicateReport_fault (hrun.trans hfault)

/-! ### FRAME_DISCARD (R150, R160) -/

theorem discardFrame_none {a : State} (h : a.link.rx = none) (sender : Option (BitVec 4)) : discardFrame sender a = a := by simp [discardFrame, h]

theorem discardFrame_some {a : State} (h : a.link.rx.isSome = true) (sender : Option (BitVec 4)) :
    discardFrame sender a = countDiscard sender (endFrame sender a) := by
  obtain ⟨m, hm⟩ := Option.isSome_iff_exists.mp h
  simp [discardFrame, hm]

/-- R150: a header of the station's own, of a console node, or unread counts in no row. -/
theorem countDiscard_uncounted {a : State} {sender : Option (BitVec 4)}
    (h : ∀ m, sender = some m → m = BitVec.ofNat 4 a.ctl.node.val ∨ 8 ≤ m.toNat) : countDiscard sender a = a := by
  unfold countDiscard
  cases sender with
  | none => rfl
  | some m =>
    rcases h m rfl with rfl | hconsole
    · simp [stationOfSender_node]
    · simp [stationOfSender_console hconsole]

theorem countDiscard_counted {a : State} {m : Fin 8} (h : m ≠ a.ctl.node) :
    countDiscard (some (BitVec.ofNat 4 m.val)) a = peerTests (a.withPeers (a.peers.set m (discardedRow a.peers[m]))) := by
  simp [countDiscard, stationOfSender_node, h, modifyRow]

/-- Settles O36. -/
theorem frameDiscard : Obligations.FrameDiscard := by
  unfold Obligations.FrameDiscard
  intro t s hr
  have hevent := fun sender => event_settles t (discardFrame sender) hr
  have hrx : (advance t s).link.rx = s.link.rx := advance_link_rx t s
  have hnode : ∀ sender, (endFrame sender (advance t s)).ctl.node = s.ctl.node := fun sender => by simp
  refine ⟨fun sender h => ⟨_, hevent sender, tail_of_eq (discardFrame_none (hrx.trans h) sender)⟩,
    fun sender h huncounted => ⟨_, hevent sender, tail_of_eq ?_⟩, fun m h hm => ?_⟩
  · rw [discardFrame_some (by rwa [hrx]), countDiscard_uncounted (by rwa [hnode])]
  · intro b row score after hrealign
    refine ⟨_, hevent _, ?_⟩
    have hafter : b.withPeers (b.peers.set m (discardedRow b.peers[m])) = after := by
      rw [show b.peers = s.peers by simp [b]]
      rfl
    rw [discardFrame_some (by rwa [hrx]), countDiscard_counted (by rwa [hnode]), show (endFrame _ _).withPeers _ = after from hafter]
    exact peerTests_tail hrealign

/-! ### Frames under the own node (R152) -/

theorem takeFrame_own {t : Instant} {s : State} {h : FrameHead} (hail : Option HailBody) (content : State → State) (hrx : s.link.rx.isSome = true)
    (hs : h.sender = BitVec.ofNat 4 s.ctl.node.val) :
    takeFrame h hail content (advance t s) = duplicateReport (endFrame (some h.sender) (advance t s)) := by
  obtain ⟨m, hm⟩ := Option.isSome_iff_exists.mp hrx
  simp [takeFrame, actOnFrame, hm, hs, stationOfSender_node]

/-- Settles O41. -/
theorem ownNodeFrame : Obligations.OwnNodeFrame := by
  unfold Obligations.OwnNodeFrame
  intro c h s hr hrx hc hsender b
  obtain ⟨hail, content, he⟩ := exec_takes_frame c h s hc
  rw [event_settles c.instant _ hr, takeFrame_own hail content hrx hsender] at he
  change exec c s = .next (settle (duplicateReport b)) at he
  have hctl : b.ctl = s.ctl := by simp [b]
  refine ⟨fun hl hf => ⟨_, he, tail_of_eq (duplicateReport_raises (by rwa [hctl]) (by rwa [hctl]))⟩,
    fun hf => ⟨_, he, tail_of_eq (duplicateReport_fault (by rwa [hctl]))⟩, fun hl => ⟨_, he, ?_⟩⟩
  rw [duplicateReport_listen (by rwa [hctl])]
  have hentered := faultEntered (b := b) (by simpa [b] using hr)
  have hword : ∀ f, flagIn b.alerts.word f = flagIn s.alerts.word f := fun f => by simp [b]
  refine ⟨by rw [hentered.ctl, hctl], hentered.alert, hentered.hold, hentered.queue, fun f hf => ?_, ?_, hentered.mask.trans (by simp [b]),
    hentered.master.trans (by simp [b]), by rw [hentered.idx]; simp [b], hentered.ctx, hentered.firings, hentered.drivers,
    hentered.binTallies.trans (by simp [b]), hentered.reasonTallies.trans (by simp [b]), hentered.table.trans (by simp [b]),
    hentered.peers.trans (by simp [b]), hentered.pages.trans (by simp [b]), hentered.drift.trans (by simp [b])⟩
  · rw [hentered.flags, hword, beq_eq_false_iff_ne.mpr hf, Bool.or_false]
  · rw [hentered.flags]
    simp

/-! ### Frames that go no further (R149, R151) -/

theorem takeFrame_console {t : Instant} {s : State} {h : FrameHead} (hail : Option HailBody) (content : State → State)
    (hrx : s.link.rx.isSome = true) (hs : 8 ≤ h.sender.toNat) :
    takeFrame h hail content (advance t s) = content (endFrame (some h.sender) (advance t s)) := by
  obtain ⟨m, hm⟩ := Option.isSome_iff_exists.mp hrx
  simp [takeFrame, actOnFrame, hm, stationOfSender_console hs]

theorem addressed_iff (s : State) (h : ConsoleHead) :
    s.addressed h = true ↔ 8 ≤ h.frame.sender.toNat ∧ (h.target = BitVec.ofNat 4 s.ctl.node.val ∨ h.target = 15) := by
  simp [State.addressed, isConsole, senderOfNode]

theorem fromActiveSource_console {h : FrameHead} (hs : 8 ≤ h.sender.toNat) (content : Fin 8 → Role → State → State) (a : State) :
    fromActiveSource h content a = a := by
  simp [fromActiveSource, stationOfSender_console hs]

/-- R151, R166: a station kind acts on its content only where a station sent it. -/
theorem exec_station_kind {c : Instr} {h : FrameHead} (s : State) (hc : c.frameHead = some h) (hno : c.consoleHead = none)
    (hs : 8 ≤ h.sender.toNat) : ∃ hail content, exec c s = event c.instant (takeFrame h hail content) s ∧ ∀ a, content a = a := by
  cases c <;> simp [Instr.frameHead, Instr.consoleHead] at hc hno <;> subst hc
  case entryReceived => exact ⟨_, _, rfl, fromActiveSource_console hs _⟩
  case valueReceived => exact ⟨_, _, rfl, fromActiveSource_console hs _⟩
  case verdictReceived => exact ⟨_, _, rfl, fromActiveSource_console hs _⟩
  case hailReceived => exact ⟨_, _, rfl, fun _ => rfl⟩
  case alertFrameReceived => exact ⟨_, _, rfl, fun _ => rfl⟩
  case statusReceived => exact ⟨_, _, rfl, fun _ => rfl⟩

/-- Settles O42. -/
theorem unaddressedConsole : Obligations.UnaddressedConsole := by
  unfold Obligations.UnaddressedConsole
  intro c s hr
  refine ⟨fun h hrx hc hs htarget hall => ?others, fun h hrx hc hno hs => ?wrongKind, fun h n m hrx hc hs hn => ?station, fun hrx hc => ?unbegun,
    addressed_iff s⟩
  case others =>
    obtain ⟨act, he⟩ := exec_obeys c h s hc
    have hidle : ¬(endFrame (some h.frame.sender) (advance c.instant s)).addressed h = true := by
      rw [addressed_iff, endFrame_ctl, advance_ctl]
      rintro ⟨-, hno | hno⟩
      · exact htarget hno
      · exact hall hno
    rw [event_settles c.instant _ hr] at he
    refine ⟨_, he, tail_of_eq ?_⟩
    rw [obey, takeFrame_console _ _ hrx hs, if_neg hidle]
  case wrongKind =>
    obtain ⟨hail, content, he, hcontent⟩ := exec_station_kind s hc hno hs
    rw [event_settles c.instant _ hr] at he
    exact ⟨_, he, tail_of_eq (by rw [takeFrame_console _ _ hrx hs, hcontent])⟩
  case station =>
    intro b after hrealign
    obtain ⟨act, he⟩ := exec_obeys c h s hc
    have hidle : ∀ a : State, ¬a.addressed h = true := fun a => by
      rw [addressed_iff, hs]
      have := n.isLt
      simp
      omega
    rw [event_settles c.instant _ hr, obey, takeFrame_station _ _ hrx hs hn, if_neg (hidle _), rowHeard_eq hn] at he
    exact ⟨_, he, peerTests_tail hrealign⟩
  case unbegun =>
    obtain ⟨h, hc⟩ := Option.ne_none_iff_exists'.mp hc
    obtain ⟨hail, content, he⟩ := exec_takes_frame c h s hc
    rw [event_settles c.instant _ hr] at he
    exact ⟨_, he, tail_of_eq (takeFrame_none (by rw [advance_link_rx, hrx]))⟩

end Sys2Proof.Machine
end

section
/-! Settles O30: what a station admits to its queue, and the HAIL and LISTEN timers (R145, R169, R173). -/

namespace Sys2Proof.Machine

/-! ### The HAIL that a timer offers -/

/-- R169: every HAIL offered starts the hail timer, and so does the HAIL of a drain that is complete. -/
theorem hailDue_of_offerHail {a u : State} (h : Tail (offerHail a) u) : u.ctl.hailDue = some (a.now + ms 250) := by
  rw [h.ctl]
  split <;> rfl

/-- R169: a HAIL offered to a queue with room stands in it. -/
theorem offerHail_queued {a : State} (h : HasRoom 1 a) : ∃ q ∈ (settle (offerHail a)).link.queue, q.frame = .hail := by
  obtain ⟨hw, hlen⟩ := h
  exact hail_queued _ ⟨by simp [offerHail, hw, Work.empty], by simp [offerHail, hw, Work.empty], rfl⟩ hlen

/-- R145: a HAIL that no other one stands for, offered to a queue that holds six frames, raises TXQ_OVERFLOW. -/
theorem flush_hail_overflow {s : State} (hu : s.work.units = []) (hs : s.work.status = []) (hh : s.work.hail = true) (hn : ¬s.waits .hail)
    (hq : 6 ≤ s.link.queue.length) : flagIn (flush s).alerts.word .txqOverflow = true := by
  have hoffered : hailOffered s = raise .txqOverflow s := by
    rw [hailOffered, hh, if_pos rfl, offerOnce_offers hn, offer_overflow (admits_hail s) hq]
  rw [flush_eq hu hs, State.withWork_alerts]
  exact (offerOnceIf_grows _ .alert _).keptFlags _ (by simp [hoffered])

/-- R145, R169: a HAIL offered to a queue that holds six frames. -/
theorem offerHail_full {a : State} (hw : a.work = Work.empty) (hq : 6 ≤ a.link.queue.length) :
    (settle (offerHail a)).link.queue = a.link.queue
      ∧ ((∀ q ∈ a.unstarted, q.frame ≠ .hail) → flagIn (settle (offerHail a)).alerts.word .txqOverflow = true) := by
  have hu : (offerHail a).work.units = [] := by simp [offerHail, hw, Work.empty]
  have hs : (offerHail a).work.status = [] := by simp [offerHail, hw, Work.empty]
  constructor
  · obtain ⟨more, hmore, -, hnone⟩ := settle_more hs
    rw [unitsOffered_none hu] at hmore hnone
    rw [hmore, hnone hq, List.append_nil]
    rfl
  · intro hn
    have hlink : (refreshLevels (drainTest (offerHail a))).link = a.link := by simp
    have hwaits : ¬(refreshLevels (drainTest (offerHail a))).waits .hail := by
      unfold State.waits State.unstarted
      rw [hlink]
      rintro ⟨q, hmem, hf⟩
      exact hn q hmem hf
    have hhail : (drainTest (offerHail a)).work.hail = true := drainTest_keeps_hail rfl
    rw [settle, tryStart_alerts]
    exact flush_hail_overflow (by simpa using hu) (by simpa using hs) (by simpa using hhail) hwaits (by rwa [hlink])

/-! ### The two timers -/

theorem timerEnded_due {d now : Instant} (h : d ≤ now) : timerEnded (some d) now = true := decide_eq_true h

/-- R173: the end of the LISTEN window. -/
theorem endListen_eq {s : State} (h : s.ctl.run = .listen) :
    endListen s = offerHail (s.withCtl { s.ctl with run := .config, listenDue := none }) := by
  have hchanged : (stateCode .config s.ctl.drain != stateCode s.ctl.run s.ctl.drain) = true := by
    rw [h]
    cases s.ctl.drain <;> rfl
  rw [endListen, setStation]
  exact if_pos hchanged

theorem admits_iff (f : QFrame) (b : State) :
    b.admits f = true
      ↔ match f with
        | .hail => True
        | .status _ => b.ctl.run ≠ .fault ∧ (b.ctl.run ≠ .listen ∨ b.ctl.activity = .muted)
        | .alert => b.ctl.run ≠ .fault ∧ b.ctl.run ≠ .listen ∧ b.ctl.activity ≠ .muted
        | .entry _ | .value _ | .verdict _ _ => SendsUnits b := by
  unfold State.admits SendsUnits
  cases f <;> cases b.ctl.run <;> cases b.ctl.activity <;> simp [admits, QFrame.isUnit]

/-- Settles O30: the admission table case by case; the two timers by the HAIL they offer, with room and in a full queue. -/
theorem hailAndListenTimers : Obligations.HailAndListenTimers := by
  unfold Obligations.HailAndListenTimers
  refine ⟨admits_iff, fun t d s hr hd => ?_⟩
  have hnow : (advance t s).now = max s.now t := by simp
  have hctl : (advance t s).ctl = s.ctl := advance_ctl t s
  have hwork : (advance t s).work = s.work := advance_work t s
  have hhail := event_settles t expireHail hr
  have hlisten := event_settles t expireListen hr
  dsimp only
  rw [← hctl, ← hnow, ← hwork]
  rw [← hnow] at hd
  generalize advance t s = a at hd hhail hlisten ⊢
  constructor
  · intro hdue
    have hbody : expireHail a = offerHail a := if_pos (by rw [hdue, timerEnded_due hd])
    have htail := settle_tail (offerHail a)
    exact ⟨_, hhail.trans (by rw [hbody]), htail, hailDue_of_offerHail htail, offerHail_queued, offerHail_full⟩
  · intro hrun hdue
    have hbody : expireListen a = offerHail (a.withCtl { a.ctl with run := .config, listenDue := none }) := by
      rw [expireListen, hdue, timerEnded_due hd, if_pos ⟨hrun, rfl⟩, endListen_eq hrun]
    obtain ⟨c, hc⟩ : ∃ c, c = a.withCtl { a.ctl with run := .config, listenDue := none } := ⟨_, rfl⟩
    rw [← hc] at hbody ⊢
    obtain ⟨hn, hl, hw, hrunc⟩ : c.now = a.now ∧ c.link = a.link ∧ c.work = a.work ∧ c.ctl.run = .config := by
      subst hc
      exact ⟨rfl, rfl, rfl, rfl⟩
    have hunstarted : c.unstarted = a.unstarted := by rw [State.unstarted, hl, State.unstarted]
    have htail := settle_tail (offerHail c)
    have hconfig : (settle (offerHail c)).ctl.run = .config := by
      rw [htail.ctl, if_neg (by simp [offerHail, hrunc])]
      exact hrunc
    refine ⟨_, hlisten.trans (by rw [hbody]), htail, hconfig, ?_, fun hroom => ?_, fun hempty hfull => ?_⟩
    · rw [hailDue_of_offerHail htail, hn]
    · exact offerHail_queued ⟨hw.trans hroom.1, hl ▸ hroom.2⟩
    · have h := offerHail_full (hw.trans hempty) (hl ▸ hfull)
      rwa [hl, hunstarted] at h

end Sys2Proof.Machine
end

section
/-! Settles O51: the seven QUERY commands (R39, R93, R95, R97, R99, R145, R153, R157, R186, R187). -/

namespace Sys2Proof.Machine

/-! ### The STATUS bodies, cell by cell (R157) -/

theorem stateBody_eq (s : State) (arg : BitVec 4) : stateBody s arg.toNat = s.statusState arg := by
  have hecho : echo 0 arg.toNat = echoCell 0 arg := echo_eq 0 arg
  have hcodes : cellOf [(shownState s, 8), (shownActivity s, 6)] = stateCode s.ctl.run s.ctl.drain ++ s.ctl.activity.code ++ 0#6 :=
    cellOf_eq (by
      simp only [fieldSum_cons, fieldSum_nil, toNat_append_eq_add, shownState_eq, shownActivity_eq, BitVec.toNat_ofNat]
      omega)
  rw [stateBody, hecho, identityCell_eq, hcodes, State.statusState]

theorem alertBody_eq (s : State) (arg : BitVec 4) : alertBody s arg.toNat = s.statusAlertWord arg := by
  have hecho : echo 1 arg.toNat = echoCell 1 arg := echo_eq 1 arg
  have hword : wordOf3 (s.alerts.word ||| 0x7F).toNat = wordCells s.wordOut := wordOf3_eq s.wordOut
  rw [alertBody, hecho, hword, wordOf3_eq, cellOf_bit, State.statusAlertWord]

/-- R165: the statement's active source is the model's. -/
theorem source_eq (s : State) (n : Fin 8) :
    ((s.peers[n]).role.any fun r => sourceRow s r n && (List.finRange 8).all fun m => !(decide (m < n) && sourceRow s r m)) = s.isActiveSource n := by
  unfold State.isActiveSource
  cases (s.peers[n]).role with
  | none => rfl
  | some r =>
    rw [Option.any_some, Bool.eq_iff_iff, beq_iff_eq, activeSource_eq_some_iff]
    simp [or_iff_not_imp_left]

theorem silence_eq (s : State) (n : Fin 8) :
    cellOf [(if (s.peers[n]).heard then min 4095 ((s.now - (s.peers[n]).heardAt) / ms 1) else 0, 0)]
      = BitVec.ofNat 12 (silenceMs s.now s.peers[n]) := cellOf_ofNat _

/-- R157, item 2: the cell of role, state, activity and cause. -/
theorem peerCell_role {x : PeerRow} {n : Nat} {role : BitVec 3} (hrole : n = role.toNat) :
    cellOf [(x.heard.toNat, 11), (n, 8), (x.state.toNat, 4), (x.activity.toNat, 2), (x.cause.toNat, 0)]
      = BitVec.ofBool x.heard ++ role ++ x.state ++ x.activity ++ x.cause :=
  cellOf_eq (by
    simp only [fieldSum_cons, fieldSum_nil, toNat_append_eq_add, BitVec.toNat_ofBool, hrole]
    omega)

/-- R157, item 2: the cell of position, standing and error score. -/
theorem peerCell_standing (s : State) (n : Fin 8) :
    cellOf [((s.peers[n]).position.toNat, 7), (standingCode s n, 4), ((s.peers[n]).errorScore.toNat, 0)]
      = (s.peers[n]).position ++ (s.standing n).code ++ (s.peers[n]).errorScore :=
  cellOf_eq (by
    simp only [fieldSum_cons, fieldSum_nil, toNat_append_eq_add, standingCode_eq]
    omega)

/-- R157, item 2: the two cells of a row's offset. -/
theorem peerCells_offset (known source : Bool) {n : Nat} {off : BitVec 16} (hoff : n = off.toNat) :
    cellOf [(known.toNat, 11), (source.toNat, 10), (n / 4096, 0)] = BitVec.ofBool known ++ BitVec.ofBool source ++ 0#6 ++ off.extractLsb' 12 4
      ∧ cellOf [(n % 4096, 0)] = off.extractLsb' 0 12 := by
  have hlt := off.isLt
  constructor
  · refine cellOf_eq ?_
    simp only [fieldSum_cons, fieldSum_nil, toNat_append_eq_add, BitVec.toNat_ofBool, BitVec.extractLsb'_toNat, Nat.shiftRight_eq_div_pow,
      BitVec.toNat_ofNat, hoff]
    omega
  · exact cellOf_whole (by simp [hoff])

theorem peerBody_eq (s : State) (arg : BitVec 4) (n : Fin 8) (free : Nat → BitVec 16) : peerBody s arg.toNat n free = s.statusPeerRow arg n free := by
  have hecho : echo 2 arg.toNat = echoCell 2 arg := echo_eq 2 arg
  have hrole : (match (s.peers[n]).role with | some c => c.toNat | none => (free 0).toNat % 8)
      = (match (s.peers[n]).role with | some c => c | none => (free 0).extractLsb' 0 3).toNat := by
    cases (s.peers[n]).role <;> simp
  have hoff : (match (s.peers[n]).offset with | some o => o.value.toNat | none => (free 1).toNat)
      = (match (s.peers[n]).offset with | some o => o.value | none => free 1).toNat := by
    cases (s.peers[n]).offset <;> rfl
  obtain ⟨hhigh, hlow⟩ := peerCells_offset (s.peers[n]).offset.isSome (s.isActiveSource n) hoff
  simp only [peerBody, source_eq]
  exact congrArg₂ _ hecho (congrArg₂ _ (peerCell_role hrole) (congrArg₂ _ (peerCell_standing s n) (congrArg₂ _ hhigh (congrArg₂ _ hlow
    (congrArg₂ _ (silence_eq s n) rfl)))))

theorem binTallyBody_eq (s : State) (arg page : BitVec 4) (bin : BitVec 8) (p : Fin 4) (b : Fin 16) (hp : page.toNat = p.val)
    (hb : bin.toNat = b.val + 1) :
    [echo 3 arg.toNat, cellOf [(p.val, 8), (b.val + 1, 0)]] ++ pairOf (s.binTally p b).toNat = s.statusBinTally arg page bin p b := by
  have hecho : echo 3 arg.toNat = echoCell 3 arg := echo_eq 3 arg
  have hplace : cellOf [(p.val, 8), (b.val + 1, 0)] = page ++ bin :=
    cellOf_eq (by simp only [fieldSum_cons, fieldSum_nil, toNat_append_eq_add, hp, hb]; omega)
  rw [hecho, hplace, pairOf_eq, State.statusBinTally]

theorem reasonTallyBody_eq (s : State) (arg : BitVec 4) (k : Fin 15) :
    echo 4 arg.toNat :: pairOf (s.gates.reasonTallies[k]).toNat = s.statusReasonTally arg k := by
  have hecho : echo 4 arg.toNat = echoCell 4 arg := echo_eq 4 arg
  rw [hecho, pairOf_eq, State.statusReasonTally]

theorem entryHead_eq (part : BitVec 4) (tag : BitVec 16) : entryHead part.toNat tag = [echoCell 5 part, tagHigh tag, tagLow tag 0] := by
  have hecho : echo 5 part.toNat = echoCell 5 part := echo_eq 5 part
  have htag : tagPair tag [] = [tagHigh tag, tagLow tag 0] := tagPair_eq tag rfl
  rw [entryHead, hecho, htag]

/-- R157, item 5, part 0: the presence cell. -/
theorem presenceCell_eq (stamp cls coarse verdict bin : Bool) :
    cellOf [(stamp.toNat, 0), (cls.toNat, 1), (coarse.toNat, 2), (verdict.toNat, 3), (bin.toNat, 4)]
      = 0#7 ++ BitVec.ofBool bin ++ BitVec.ofBool verdict ++ BitVec.ofBool coarse ++ BitVec.ofBool cls ++ BitVec.ofBool stamp :=
  cellOf_eq (by
    simp only [fieldSum_cons, fieldSum_nil, toNat_append_eq_add, BitVec.toNat_ofBool, BitVec.toNat_ofNat]
    omega)

theorem shownStage_eq (x : OwnStage) : [OwnStage.none, .measuring, .done, .skipped].idxOf x = x.code.toNat := by cases x <;> rfl

theorem classBits_eq (c : Option EntryClass) : (match c with | some c => shownClass c | none => 0) = (classBits c).toNat := by
  cases c with
  | none => rfl
  | some c => exact shownClass_eq c

theorem stampPageBits_eq (st : Option PageStamp) : (match st with | some st => st.page.val | none => 0) = (stampPageBits st).toNat := by
  cases st with
  | none => rfl
  | some st => exact (Nat.mod_eq_of_lt st.page.isLt).symm

/-- R157, item 5, part 0: the cell of stage, marks, page and class. -/
theorem stageCell_eq (e : Entry) {page cls : Nat} (hpage : page = (stampPageBits e.stamp).toNat) (hcls : cls = (classBits e.cls).toNat) :
    cellOf [([OwnStage.none, .measuring, .done, .skipped].idxOf e.ownStage, 10), (e.assumedPage.toNat, 9), (e.doubt.toNat, 8),
        (e.cold.isSome.toNat, 7), (e.retest.isSome.toNat, 6), (e.hot.isSome.toNat, 5), (page, 3), (cls, 0)]
      = e.ownStage.code ++ BitVec.ofBool e.assumedPage ++ BitVec.ofBool e.doubt ++ BitVec.ofBool e.cold.isSome ++ BitVec.ofBool e.retest.isSome
        ++ BitVec.ofBool e.hot.isSome ++ stampPageBits e.stamp ++ classBits e.cls :=
  cellOf_eq (by
    simp only [fieldSum_cons, fieldSum_nil, toNat_append_eq_add, BitVec.toNat_ofBool, shownStage_eq, hpage, hcls]
    omega)

theorem verdictCell_eq (v : Verdict) : cellOf [(shownReason v.reason, 8), (v.gate.val, 0)] = v.reason.code ++ 0#3 ++ BitVec.ofNat 5 v.gate.val := by
  have hgate := Nat.mod_eq_of_lt (show v.gate.val < 2 ^ 5 by omega)
  refine cellOf_eq ?_
  simp only [fieldSum_cons, fieldSum_nil, toNat_append_eq_add, shownReason_eq, BitVec.toNat_ofNat]
  omega

theorem entryView_eq (tag : BitVec 16) (e : Entry) : entryView tag e = entryPart0 tag e := by
  have hhead : entryHead 0 tag = [echoCell 5 0, tagHigh tag, tagLow tag 0] := entryHead_eq 0 tag
  have hdigest : (match e.stamp with | some st => [st.digest] | none => []) = optCell (e.stamp.map (·.digest)) := by cases e.stamp <;> rfl
  have hverdict : (match e.verdict with | some v => [cellOf [(shownReason v.reason, 8), (v.gate.val, 0)]] | none => [])
      = optCell (e.verdict.map (fun v => v.reason.code ++ 0#3 ++ BitVec.ofNat 5 v.gate.val)) := by
    cases e.verdict with
    | none => rfl
    | some v => exact congrArg (fun c => [c]) (verdictCell_eq v)
  have hbin : (match e.verdict.bind (·.bin) with | some b => [cellOf [(b.val + 1, 0)]] | none => [])
      = optCell ((e.verdict.bind (·.bin)).map (fun b => BitVec.ofNat 12 (binIndex b))) := by
    cases e.verdict.bind (·.bin) with
    | none => rfl
    | some b => exact congrArg (fun c => [c]) (cellOf_ofNat (b.val + 1))
  have hfront := congrArg₂ (· ++ ·) hhead (congrArg₂ List.cons (presenceCell_eq e.stamp.isSome e.cls.isSome e.coarse.isSome e.verdict.isSome
    (e.verdict.bind (·.bin)).isSome) (congrArg (fun c => [c]) (stageCell_eq e (stampPageBits_eq e.stamp) (classBits_eq e.cls))))
  exact congrArg₂ (· ++ ·) (congrArg₂ (· ++ ·) (congrArg₂ (· ++ ·) (congrArg₂ (· ++ ·) hfront hdigest) (shownCoarse_eq e.coarse)) hverdict) hbin

theorem slotView_eq (part : BitVec 4) (tag : BitVec 16) (v : Option HeldValue) : slotView part.toNat tag v = slotPart part tag v := by
  cases v with
  | none => simp only [slotView, slotPart, entryHead_eq, List.cons_append, List.nil_append]
  | some v =>
    have hsource := Nat.mod_eq_of_lt (show v.source.val < 2 ^ 4 by omega)
    have hcell : cellOf [(1, 11), (v.source.val, 7), (shownQuality v.quality, 3)] = 1#1 ++ senderOfNode v.source ++ v.quality.code ++ 0#3 :=
      cellOf_eq (by
        simp only [fieldSum_cons, fieldSum_nil, senderOfNode, toNat_append_eq_add, shownQuality_eq, BitVec.toNat_ofNat, hsource]
        omega)
    simp only [slotView, slotPart, entryHead_eq, hcell, shownFlags_eq, shownFields_eq, List.cons_append, List.nil_append]

theorem entryBodies_eq (s : State) (tag : BitVec 16) : entryBodies s tag = s.statusEntry tag := by
  simp only [entryBodies, State.statusEntry, entryView_eq]
  exact congrArg _ (congrArg₂ _ (slotView_eq 1 tag _) (congrArg₂ _ (slotView_eq 2 tag _) (congrArg₂ _ (slotView_eq 3 tag _) rfl)))

/-- R93: the statement's mean of the samples is the model's. -/
theorem mean_eq_driftK (ring : List Dev) :
    (if ring = [] then none else some (roundedDev (ring.map Dev.toInt).sum ring.length)) = driftK ring := by
  split
  · next h => rw [h, driftK_nil]
  · next h => rw [driftK_mean h]

theorem above_eq (limit : Nat) (ring : List Dev) : (limit != 0 && (driftK ring).any (fun x => decide (limit < x.mag.toNat))) = overLimit limit ring := by
  unfold overLimit
  cases driftK ring <;> rfl

/-- R157, item 6: the cell of the sample count and the marks. -/
theorem driftCell_eq (n : Nat) (base mean above stale : Bool) :
    cellOf [(n % 8, 9), (base.toNat, 8), (mean.toNat, 7), (above.toNat, 6), (stale.toNat, 5)]
      = BitVec.ofNat 3 n ++ BitVec.ofBool base ++ BitVec.ofBool mean ++ BitVec.ofBool above ++ BitVec.ofBool stale ++ 0#5 :=
  cellOf_eq (by
    simp only [fieldSum_cons, fieldSum_nil, toNat_append_eq_add, BitVec.toNat_ofBool, BitVec.toNat_ofNat]
    omega)

theorem driftBody_eq (s : State) (arg : BitVec 4) (k : Fin 4) : driftBody s arg.toNat k = s.statusDriftSlot arg k := by
  have hecho : echo 6 arg.toNat = echoCell 6 arg := echo_eq 6 arg
  have hstale : decide (256 ≤ (s.drift[k]).staleness) = isStale s.drift[k] := rfl
  have hpair : signedOfDev = signedPair := funext signedOfDev_eq
  simp only [driftBody, State.statusDriftSlot, hecho, mean_eq_driftK, above_eq, hstale, driftCell_eq, cellOf_ofNat, signedOpt_eq, hpair]

/-! ### Where a reply goes (R145, R157) -/

/-- R145: behind a reply a command offers at most a HAIL and an ALERT, and neither joins a queue that holds six frames. -/
theorem flush_afterReply_more {s : State} (hu : s.work.units = []) :
    ∃ more, (flush s).link.queue = (offerReply s.work.status s).link.queue ++ more ∧ (∀ q ∈ more, q.frame = .hail ∨ q.frame = .alert)
      ∧ (6 ≤ (offerReply s.work.status s).link.queue.length → more = []) := by
  unfold flush
  rw [hu, List.foldl_nil]
  dsimp only
  generalize offerReply s.work.status s = b
  obtain ⟨m₁, hm₁, hhail⟩ := offerOnceIf_more b.work.hail .hail b
  have hfull₁ := offerOnceIf_full (c := b.work.hail) (f := .hail) (s := b)
  generalize (if b.work.hail = true then offerOnce .hail b else b) = c at hm₁ hfull₁ ⊢
  obtain ⟨m₂, hm₂, halert⟩ := offerOnceIf_more (c.work.alert && c.admits .alert) .alert c
  have hfull₂ := offerOnceIf_full (c := c.work.alert && c.admits .alert) (f := .alert) (s := c)
  refine ⟨m₁ ++ m₂, by rw [State.withWork_link, hm₂, hm₁, List.append_assoc], fun q hq => ?_, fun hlen => ?_⟩
  · rcases List.mem_append.mp hq with hq | hq
    · exact .inl (by rw [hhail q hq])
    · exact .inr (by rw [halert q hq])
  · have h₁ : m₁ = [] := by simpa [hfull₁ hlen] using hm₁
    have h₂ : m₂ = [] := by
      rw [hfull₂ (by rwa [hfull₁ hlen])] at hm₂
      simpa using hm₂
    rw [h₁, h₂]
    rfl

/-- R145, R157: a reply that the station admits and the queue has no room for raises TXQ_OVERFLOW. -/
theorem offerReply_overflow {bodies : List (List Cell)} {s : State} (hne : bodies ≠ []) (had : s.admits (.status []) = true)
    (h : 6 < s.link.queue.length + bodies.length) : offerReply bodies s = raise .txqOverflow s := by
  have hpos := List.length_pos_iff.mpr hne
  have hfree : s.freePlaces < bodies.length := show 6 - s.link.queue.length < bodies.length by omega
  rw [offerReply, if_neg (by simp [hne, had]), if_pos hfree]

/-- R145, R157: a reply without room leaves the frames held, raises TXQ_OVERFLOW, and lets a HAIL and an ALERT alone join them. -/
theorem settle_status_overflow {b : State} (hu : b.work.units = []) (hs : b.work.status ≠ []) (had : b.admits (.status []) = true)
    (h : 6 < b.link.queue.length + b.work.status.length) :
    flagIn (settle b).alerts.word .txqOverflow = true
      ∧ ∃ more, (settle b).link.queue = b.link.queue ++ more ∧ (∀ q ∈ more, q.frame = .hail ∨ q.frame = .alert)
        ∧ (6 ≤ b.link.queue.length → more = []) := by
  have hunits : (refreshLevels (drainTest b)).work.units = [] := by simpa using hu
  have hlink : (refreshLevels (drainTest b)).link = b.link := by simp
  have hstatus : (refreshLevels (drainTest b)).work.status = b.work.status := by simp
  have hadm : (refreshLevels (drainTest b)).admits (.status []) = true := by
    rw [admits_congr (a := drainTest b) (by simp), drainTest_admits, had]
  have hover := offerReply_overflow hs hadm (by rwa [hlink])
  constructor
  · rw [settle, tryStart_alerts]
    refine (flush_afterStatus _).keptFlags _ ?_
    rw [hunits, List.foldl_nil, hstatus, hover]
    simp
  · obtain ⟨more, hq, hkind, hfull⟩ := flush_afterReply_more hunits
    rw [hstatus, hover, raise_link, hlink] at hq hfull
    exact ⟨more, by rw [settle, tryStart_link_queue, hq], hkind, hfull⟩

/-! ### What a QUERY does (R186) -/

theorem query_silent {s : State} (h : s.ctl.run = .listen ∨ s.ctl.run = .fault) (reply : State → State) : query reply s = s := if_pos h

theorem query_replies {s : State} (hl : s.ctl.run ≠ .listen) (hf : s.ctl.run ≠ .fault) (reply : State → State) : query reply s = reply s :=
  if_neg fun h => h.elim hl hf

theorem placeOfCode_some {c : BitVec 4} {k : Fin 15} (h : c.toNat = k.val + 1) : placeOfCode c = some k := by
  unfold placeOfCode
  rw [dif_pos (by omega)]
  simp [h]

theorem stationOfSender_some {m : BitVec 4} {n : Fin 8} (h : m.toNat = n.val) : stationOfSender m = some n := by
  unfold stationOfSender
  rw [dif_pos (by omega)]
  simp [h]

/-- R186: a page or a bin that does not exist. -/
theorem replyBinTally_refuses {page : BitVec 4} {bin : BitVec 8} (h : 4 ≤ page.toNat ∨ bin = 0 ∨ 17 ≤ bin.toNat) {arg : BitVec 4} {s : State} :
    replyBinTally arg page bin s = raise .consoleError s := by
  rw [replyBinTally]
  rcases h with hp | hb
  · rw [pageOfField_none hp]
  · rw [binOfIndex_none (hb.imp_left fun h0 => by rw [h0]; rfl)]
    cases pageOfField page <;> rfl

/-- The reply `bodies`, offered in the state `b` of a station that held `a`, as the statement says it of the state after the command. -/
structure Replied (a b : State) (bodies : List (List Cell)) (u : State) : Prop where
  tail : Tail (offerStatus bodies b) u
  queued : HasRoom bodies.length a → Queued a (bodies.map .status) u
  overflow : a.work = Work.empty → 6 < a.link.queue.length + bodies.length →
    flagIn u.alerts.word .txqOverflow = true
      ∧ ∃ more, u.link.queue = a.link.queue ++ more ∧ (∀ q ∈ more, q.frame = .hail ∨ q.frame = .alert) ∧ (6 ≤ a.link.queue.length → more = [])

theorem replied {a b : State} {bodies : List (List Cell)} (hne : bodies ≠ []) (hlink : b.link = a.link) (hwork : b.work = a.work)
    (had : b.admits (.status []) = true) : Replied a b bodies (settle (offerStatus bodies b)) := by
  have hunits : a.work = Work.empty → (offerStatus bodies b).work.units = [] := fun h => by simp [offerStatus, hwork, h, Work.empty]
  have hstatus : a.work = Work.empty → (offerStatus bodies b).work.status = bodies := fun h => by simp [offerStatus, hwork, h, Work.empty]
  have hl : (offerStatus bodies b).link = a.link := hlink
  have hadm : (offerStatus bodies b).admits (.status []) = true := had
  refine ⟨settle_tail _, fun ⟨hw, hroom⟩ => ?_, fun hw hover => ?_⟩
  · have hst := hstatus hw
    have h := settle_status _ (hunits hw) (by rwa [hst]) hadm (by rwa [hst, hl])
    rwa [hst, Queued, hl] at h
  · have hst := hstatus hw
    have h := settle_status_overflow (hunits hw) (by rwa [hst]) hadm (by rwa [hst, hl])
    rwa [hl] at h

/-- R145: a command that offers nothing itself lets a HAIL and an ALERT alone join the queue. -/
theorem settle_silent {a : State} (hw : a.work = Work.empty) :
    ∃ more, (settle a).link.queue = a.link.queue ++ more ∧ ∀ q ∈ more, q.frame = .hail ∨ q.frame = .alert := by
  obtain ⟨more, hq, hkind, -⟩ := settle_more (a := a) (by simp [hw, Work.empty])
  rw [unitsOffered_none (by simp [hw, Work.empty])] at hq
  exact ⟨more, hq, fun q h => (hkind q h).2⟩

/-- Settles O51. -/
theorem queries : Obligations.Queries := by
  unfold Obligations.Queries
  intro t h arg page bin tag s hr hrx haddr a replies refuses silent
  have hrun : a.ctl.run = s.ctl.run := by rw [consoleState_ctl]
  have hwork : a.work = s.work := consoleState_work t h s
  have hfree : a.freeDraws = s.freeDraws := by simp [a, consoleState]
  have hexec : ∀ act : State → State, event t (obey h act) s = .next (settle (act a)) := event_obey_addressed hr hrx haddr
  constructor
  · intro hl hf
    have hadm : a.admits (.status []) = true := (admits_iff (.status []) a).mpr ⟨by rwa [hrun], .inl (by rwa [hrun])⟩
    have hquery : ∀ reply : State → State, query reply a = reply a := query_replies (by rwa [hrun]) (by rwa [hrun])
    have hreplies : ∀ (c : Instr) (b : State) (bodies : List (List Cell)), bodies ≠ [] → b.link = a.link → b.work = a.work →
        b.admits (.status []) = true → (reply : State → State) → exec c s = event t (obey h (query reply)) s → reply a = offerStatus bodies b →
        replies c b bodies := by
      intro c b bodies hne hbl hbw hba reply hc hreply
      obtain ⟨htail, hqueued, hover⟩ := replied hne hbl hbw hba
      exact ⟨_, hc.trans ((hexec _).trans (by rw [hquery, hreply])), htail, hqueued, fun hw => hover (hwork.trans hw)⟩
    have hrefuses : ∀ (c : Instr) (reply : State → State), exec c s = event t (obey h (query reply)) s → reply a = raise .consoleError a →
        refuses c := by
      intro c reply hc hreply
      exact ⟨_, hc.trans ((hexec _).trans (by rw [hquery, hreply])), settle_tail _⟩
    refine ⟨?state, fun n => ?_, ?alert, fun n hn => ?peer, fun hbad => ?_, fun p b hp hb => ?bin, fun hbad => ?_, fun k hk => ?reason, fun hbad => ?_,
      ?entry, fun k hk => ?drift, fun hbad => ?_⟩
    case state =>
      exact hreplies _ a _ (by simp) rfl rfl hadm (replyState .state arg) rfl (by rw [stateBody_eq]; rfl)
    case alert =>
      exact hreplies _ a _ (by simp) rfl rfl hadm (replyAlertWord arg) rfl (by rw [alertBody_eq]; rfl)
    case peer =>
      refine hreplies _ (a.withFreeDraws (s.freeDraws + 2)) _ (by simp) rfl rfl hadm (replyPeerRow arg) rfl ?_
      rw [peerBody_eq, replyPeerRow, stationOfSender_some hn, ← hfree]
      rfl
    case bin =>
      refine hreplies _ a _ (by simp) rfl rfl hadm (replyBinTally arg page bin) rfl ?_
      have htally : s.binTally p b = a.binTally p b := by rw [State.binTally, State.binTally, consoleState_gates]
      rw [replyBinTally, pageOfField_some hp, binOfIndex_some hb, htally, binTallyBody_eq a arg page bin p b hp hb]
    case reason =>
      refine hreplies _ a _ (by simp) rfl rfl hadm (replyReasonTally arg) rfl ?_
      have htally : s.gates.reasonTallies[k] = a.gates.reasonTallies[k] := by rw [consoleState_gates]
      rw [replyReasonTally, placeOfCode_some hk, htally, reasonTallyBody_eq]
    case entry =>
      exact hreplies _ a _ (by simp [entryBodies]) rfl rfl hadm (replyEntry tag) rfl (by rw [entryBodies_eq]; rfl)
    case drift =>
      exact hreplies _ a _ (by simp) rfl rfl hadm (replyDriftSlot arg) rfl (by rw [driftBody_eq, replyDriftSlot, pageOfField_some hk])
    · exact hrefuses _ (replyState (.undefinedItem n) arg) rfl rfl
    · exact hrefuses _ (replyPeerRow arg) rfl (by rw [replyPeerRow, stationOfSender_console hbad])
    · exact hrefuses _ (replyBinTally arg page bin) rfl (replyBinTally_refuses hbad)
    · exact hrefuses _ (replyReasonTally arg) rfl (by rw [hbad]; rfl)
    · exact hrefuses _ (replyDriftSlot arg) rfl (by rw [replyDriftSlot, pageOfField_none hbad])
  · intro hq
    have hsilent : ∀ (c : Instr) (reply : State → State), exec c s = event t (obey h (query reply)) s → silent c := by
      intro c reply hc
      refine ⟨_, hc.trans ((hexec _).trans (by rw [query_silent (by rwa [hrun])])), settle_tail a, fun hw => settle_silent (hwork.trans hw)⟩
    exact ⟨fun item => hsilent _ (replyState item arg) rfl, hsilent _ (replyAlertWord arg) rfl, hsilent _ (replyPeerRow arg) rfl,
      hsilent _ (replyBinTally arg page bin) rfl, hsilent _ (replyReasonTally arg) rfl, hsilent _ (replyEntry tag) rfl,
      hsilent _ (replyDriftSlot arg) rfl⟩

end Sys2Proof.Machine
end

section
/-! Settles O60: a cell on the line, and a frame laid out on the line and taken from it (R138, R139, R144, R149, R151, R153 to R157). -/

namespace Sys2Proof

/-! ### A cell on the line (R138) -/

theorem foldl_xor_eq (f : Nat → Bool) (l : List Nat) (b : Bool) :
    l.foldl (fun b k => b ^^ f k) b = (b ^^ decide ((l.map f).count true % 2 = 1)) := by
  induction l generalizing b with
  | nil => simp
  | cons k l ih =>
    have hsucc (n : Nat) : decide ((n + 1) % 2 = 1) = !decide (n % 2 = 1) := by
      rw [Bool.eq_iff_iff]
      simp only [decide_eq_true_iff, Bool.not_eq_true', decide_eq_false_iff_not]
      omega
    rw [List.foldl_cons, ih, List.map_cons]
    cases f k
    · simp
    · rw [List.count_cons_self, hsucc]
      cases b <;> simp

/-- R138: the parity bit makes the number of ones odd. -/
theorem count_with_parityBit (c : Cell) : (([11, 10, 9, 8, 7, 6, 5, 4, 3, 2, 1, 0].map (fun k => c.getLsbD k) ++ [parityBit c]).count true) % 2 = 1 := by
  have hones : ([11, 10, 9, 8, 7, 6, 5, 4, 3, 2, 1, 0].map (fun k => c.getLsbD k)).count true = ((List.range 12).map c.getLsbD).count true := by
    rw [← List.count_reverse, ← List.map_reverse]
    rfl
  have hparity : parityBit c = !decide (((List.range 12).map c.getLsbD).count true % 2 = 1) := by rw [parityBit, foldl_xor_eq, Bool.true_xor]
  rw [List.count_append, hones, hparity]
  by_cases h : ((List.range 12).map c.getLsbD).count true % 2 = 1
  · simp [h]
  · simp only [h, decide_false, Bool.not_false, List.count_singleton_self]
    omega

/-- R138: the bits of a cell stand on the line from bit 11 to bit 0, the parity bit behind them. -/
theorem lineCell_eq (c : Cell) :
    lineCell c = .dominant :: ([11, 10, 9, 8, 7, 6, 5, 4, 3, 2, 1, 0].map (fun k => c.getLsbD k) ++ [parityBit c]).map
      (fun b => if b then LineLevel.recessive else LineLevel.dominant) := by
  have hbits : (List.range 13).map (wireCell c).getMsbD
      = [11, 10, 9, 8, 7, 6, 5, 4, 3, 2, 1, 0].map (fun k => c.getLsbD k) ++ [parityBit c] := by
    rw [show List.range 13 = [0, 1, 2, 3, 4, 5, 6, 7, 8, 9, 10, 11, 12] from rfl]
    simp only [List.map_cons, List.map_nil, BitVec.getMsbD_eq_getLsbD, getLsbD_wireCell]
    rfl
  rw [← hbits, List.map_map]
  rfl

/-- The levels read as one number, the last in bit 0. -/
theorem getLsbD_bitsRead (bits : List LineLevel) (i : Nat) (hi : i < bits.length) (h13 : i < 13) :
    (bitsRead bits).getLsbD i = (bits.reverse[i]'(by simpa using hi) == .recessive) := by
  induction bits using List.reverseRecOn generalizing i with
  | nil => simp at hi
  | append_singleton bits b ih =>
    have hread : bitsRead (bits ++ [b]) = (bitsRead bits).shiftConcat (b == .recessive) := by simp [bitsRead]
    rw [hread, BitVec.getLsbD_shiftConcat]
    cases i with
    | zero => simp
    | succ i =>
      have hi' : i < bits.length := by simpa using hi
      simp [ih i hi' (by omega), h13]

theorem bitLevel_beq (b : LineLevel) : bitLevel (b == .recessive) = b := by cases b <;> rfl

/-- R138: thirteen levels are those of the number they spell. -/
theorem levels_of_bitsRead {bits : List LineLevel} (h : bits.length = 13) :
    (List.range 13).map (fun k => bitLevel ((bitsRead bits).getMsbD k)) = bits := by
  refine List.ext_getElem (by simp [h]) fun k hk _ => ?_
  have hk' : k < 13 := by simpa using hk
  have hlast : bits.length - 1 - (12 - k) = k := by omega
  simp only [List.getElem_map, List.getElem_range, BitVec.getMsbD_eq_getLsbD, hk', decide_true, Bool.true_and]
  rw [getLsbD_bitsRead bits (13 - 1 - k) (by omega) (by omega), bitLevel_beq]
  simp [List.getElem_reverse, hlast]

/-- R138: thirteen bits of correct parity are those of the cell in them. -/
theorem wireCell_cellData {w : BitVec 13} (h : parityOk w = true) : wireCell (cellData w) = w := by
  refine BitVec.eq_of_getLsbD_eq fun i hi => ?_
  rw [getLsbD_wireCell]
  split
  · next h0 => rw [h0, ← beq_iff_eq.mp h]
  · next h0 =>
    have hi' : i - 1 < 12 := by omega
    simp [cellData, hi', show 1 + (i - 1) = i by omega]

/-- R138, R149: a cell is read from its own levels alone. -/
theorem readCell_eq_some_iff (w : List LineLevel) (c : Cell) : readCell w = some c ↔ w = lineCell c := by
  refine ⟨fun h => ?_, fun h => h ▸ readCell_lineCell c⟩
  match w, h with
  | .dominant :: bits, h =>
    simp only [readCell] at h
    split at h
    · next hbits =>
      obtain ⟨hlen, hparity⟩ := hbits
      obtain rfl := Option.some.inj h
      rw [lineCell, wireCell_cellData hparity, levels_of_bitsRead hlen]
    · cases h

/-! ### Field forms (R153) -/

/-- A field that lies in the second part of a cell. -/
theorem field_low {m n : Nat} (x : BitVec m) (y : BitVec n) {p len : Nat} (h : p + len ≤ n) : (x ++ y).extractLsb' p len = y.extractLsb' p len :=
  BitVec.extractLsb'_append_eq_of_add_le h

/-- A field that lies in the first part of a cell. -/
theorem field_high {m n : Nat} (x : BitVec m) (y : BitVec n) {p len : Nat} (h : n ≤ p) : (x ++ y).extractLsb' p len = x.extractLsb' (p - n) len :=
  BitVec.extractLsb'_append_eq_of_le h

theorem tagOf_tagPair (tag : BitVec 16) (rest : BitVec 8) : tagOf (tagHigh tag) (tagLow tag rest) = tag := by
  rw [tagOf, tagHigh, tagLow, field_high _ _ (by decide), BitVec.extractLsb'_eq_self]
  exact BitVec.extractLsb'_append_extractLsb'

theorem tagLow_field (tag : BitVec 16) (rest : BitVec 8) {p len : Nat} (h : p + len ≤ 8) :
    (tagLow tag rest).extractLsb' p len = rest.extractLsb' p len := field_low _ _ h

theorem getLsbD_signed (b : Bool) (x : BitVec 11) : (BitVec.ofBool b ++ x).getLsbD 11 = b := by
  rw [BitVec.getLsbD_append, if_neg (by decide)]
  cases b <;> rfl

theorem signedOf_signedPair (d : Dev) : signedOf (BitVec.ofBool d.neg ++ d.mag.extractLsb' 12 11) (d.mag.extractLsb' 0 12) = d := by
  have hneg := getLsbD_signed d.neg (d.mag.extractLsb' 12 11)
  have hmag : (BitVec.ofBool d.neg ++ d.mag.extractLsb' 12 11).extractLsb' 0 11 ++ d.mag.extractLsb' 0 12 = d.mag := by
    rw [field_low _ _ (by decide), BitVec.extractLsb'_eq_self]
    exact BitVec.extractLsb'_append_extractLsb'
  rw [signedOf, hneg, hmag]

theorem countOf_countPair (v : BitVec 16) : countOf (0#8 ++ v.extractLsb' 12 4) (v.extractLsb' 0 12) = v := by
  rw [countOf, field_low _ _ (by decide), BitVec.extractLsb'_eq_self]
  exact BitVec.extractLsb'_append_extractLsb'

theorem wordOf_wordCells (w : BitVec 32) : wordOf (w.extractLsb' 20 12) (w.extractLsb' 8 12) (w.extractLsb' 0 8 ++ 0#4) = w := by
  have hw := w.isLt
  refine BitVec.eq_of_toNat_eq ?_
  simp only [wordOf, Machine.toNat_append_eq_add, BitVec.extractLsb'_toNat, Nat.shiftRight_eq_div_pow, BitVec.toNat_ofNat]
  omega

theorem takeSigned_optSigned (d : Option Dev) (rest : List Cell) : takeSigned d.isSome (optSigned d ++ rest) = some (d, rest) := by
  cases d with
  | none => rfl
  | some d => exact congrArg (fun x => some (some x, rest)) (signedOf_signedPair d)

theorem takeCell_optCell (c : Option Cell) (rest : List Cell) : takeCell c.isSome (optCell c ++ rest) = some (c, rest) := by cases c <;> rfl

theorem bit_zero {m : Nat} (x : BitVec m) (b : Bool) : (x ++ BitVec.ofBool b).getLsbD 0 = b := by
  rw [BitVec.getLsbD_append, if_pos (by decide)]
  cases b <;> rfl

theorem bit_succ {m : Nat} (x : BitVec m) (b : Bool) (i : Nat) : (x ++ BitVec.ofBool b).getLsbD (i + 1) = x.getLsbD i := by
  rw [BitVec.getLsbD_append, if_neg (by omega), Nat.add_sub_cancel]

theorem flagsOf_flagsCell (f : ValueFlags) : flagsOf (flagsCell f) = f := by simp only [flagsOf, flagsCell, bit_zero, bit_succ]

theorem coarseOf_coarseCell (c : Coarse) : coarseOf (coarseCell c) = c := by
  rw [coarseOf, coarseCell, getLsbD_signed, field_low _ _ (by decide), BitVec.extractLsb'_eq_self]

/-- R154: the presence cell of one field. -/
theorem presence_one (a : Bool) : (0#11 ++ BitVec.ofBool a).toNat < 2 ∧ (0#11 ++ BitVec.ofBool a).getLsbD 0 = a := by cases a <;> decide

/-- R154, R156: the presence cell of three fields. -/
theorem presence_three (a b c : Bool) :
    let p := 0#9 ++ BitVec.ofBool c ++ BitVec.ofBool b ++ BitVec.ofBool a
    p.toNat < 8 ∧ p.getLsbD 0 = a ∧ p.getLsbD 1 = b ∧ p.getLsbD 2 = c := by
  revert a b c
  decide

/-! ### Frames (R139, R144) -/

theorem headerCell_length (kind sender : BitVec 4) {len : Nat} (h : len ≤ 15) : ((headerCell kind sender len).extractLsb' 0 4).toNat = len := by
  rw [headerCell, field_low _ _ (by decide), BitVec.extractLsb'_eq_self]
  exact Nat.mod_eq_of_lt (by omega)

theorem headerCell_sender (kind sender : BitVec 4) (len : Nat) : (headerCell kind sender len).extractLsb' 4 4 = sender := by
  rw [headerCell, field_high _ _ (by decide), field_low _ _ (by decide), BitVec.extractLsb'_eq_self]

theorem headerCell_kind (kind sender : BitVec 4) (len : Nat) : (headerCell kind sender len).extractLsb' 8 4 = kind := by
  rw [headerCell, field_high _ _ (by decide), field_high _ _ (by decide), BitVec.extractLsb'_eq_self]

theorem countCells_count (h : FrameHead) : countCell1 h ++ (countCell2 h).extractLsb' 8 4 = h.count := by
  rw [countCell1, countCell2, field_high _ _ (by decide), field_high _ _ (by decide), field_high _ _ (by decide), BitVec.extractLsb'_eq_self]
  exact BitVec.extractLsb'_append_extractLsb'

theorem countCell2_state (h : FrameHead) : (countCell2 h).extractLsb' 4 4 = h.state := by
  rw [countCell2, field_high _ _ (by decide), field_high _ _ (by decide), field_low _ _ (by decide), BitVec.extractLsb'_eq_self]

theorem countCell2_activity (h : FrameHead) : (countCell2 h).extractLsb' 2 2 = h.activity := by
  rw [countCell2, field_high _ _ (by decide), field_low _ _ (by decide), BitVec.extractLsb'_eq_self]

/-- R139, R149: a frame whose length the header can say is read as it was laid out. -/
theorem parseFrame_frameCells {f : RawFrame} (h : f.body.length ≤ 15) : parseFrame (frameCells f) = some f := by
  have hlen := headerCell_length f.kind f.head.sender h
  simp only [frameCells, List.cons_append, parseFrame, hlen, List.take_left, List.drop_left, List.length_append, List.length_singleton, and_self,
    if_true, headerCell_kind, headerCell_sender, countCells_count, countCell2_state, countCell2_activity]

/-! ### Bodies (R154, R155) -/

theorem entryOfBody_entryCells (b : EntryBody) : entryOfBody (entryCells b) = some b := by
  obtain ⟨hp, hc⟩ := presence_one b.coarse.isSome
  have htake : takeCell b.coarse.isSome (optCell (b.coarse.map coarseCell)) = some (b.coarse.map coarseCell, []) := by
    cases b.coarse <;> rfl
  have hcoarse : (b.coarse.map coarseCell).map coarseOf = b.coarse := by
    cases b.coarse with
    | none => rfl
    | some c => exact congrArg some (coarseOf_coarseCell c)
  have hpage : (b.page ++ b.cls ++ 0#3).extractLsb' 6 2 = b.page := by
    rw [field_high _ _ (by decide), field_high _ _ (by decide), BitVec.extractLsb'_eq_self]
  have hcls : (b.page ++ b.cls ++ 0#3).extractLsb' 3 3 = b.cls := by
    rw [field_high _ _ (by decide), field_low _ _ (by decide), BitVec.extractLsb'_eq_self]
  simp only [entryCells, List.cons_append, List.nil_append, entryOfBody, hp, if_true, hc, htake, tagOf_tagPair, hcoarse]
  rw [tagLow_field _ _ (by decide), tagLow_field _ _ (by decide), hpage, hcls]

theorem code_field (code : BitVec 4) : (code ++ 0#4).extractLsb' 4 4 = code := by rw [field_high _ _ (by decide), BitVec.extractLsb'_eq_self]

theorem valueOfBody_valueCells (b : ValueBody) : valueOfBody (valueCells b) = some b := by
  obtain ⟨hp, h0, h1, h2⟩ := presence_three b.deviation.isSome b.temperature.isSome b.tcr.isSome
  have htcr : takeSigned b.tcr.isSome (optSigned b.tcr) = some (b.tcr, []) := by
    simpa using takeSigned_optSigned b.tcr []
  simp only [valueCells, valueFields, List.cons_append, List.nil_append, List.append_assoc, valueOfBody, hp, if_true, h0, h1, h2,
    takeSigned_optSigned, takeCell_optCell, htcr, tagOf_tagPair, flagsOf_flagsCell]
  rw [tagLow_field _ _ (by decide), code_field]

theorem verdictOfBody_verdictCells (b : VerdictBody) : verdictOfBody (verdictCells b) = some b := by
  obtain ⟨hp, hc⟩ := presence_one b.bin.isSome
  have hbin : takeCell b.bin.isSome (optCell b.bin) = some (b.bin, []) := by simpa using takeCell_optCell b.bin []
  simp only [verdictCells, List.cons_append, List.nil_append, verdictOfBody, hp, if_true, hc, hbin, tagOf_tagPair]
  rw [tagLow_field _ _ (by decide), code_field]

theorem hailOfBody_hailCells (b : HailBody) : hailOfBody (hailCells b) = some b := by
  simp (disch := decide) only [hailCells, hailOfBody, field_high, field_low, Nat.reduceSub, BitVec.extractLsb'_eq_self]

/-! ### Console frames (R153, R156) -/

theorem head_targetCell (h : ConsoleHead) (low : BitVec 8) : { frame := h.frame, target := (targetCell h low).extractLsb' 8 4 : ConsoleHead } = h := by
  rw [targetCell, field_high _ _ (by decide), BitVec.extractLsb'_eq_self]

theorem targetCell_field (h : ConsoleHead) (low : BitVec 8) {p len : Nat} (hp : p + len ≤ 8) :
    (targetCell h low).extractLsb' p len = low.extractLsb' p len := field_low _ _ hp

theorem targetCell_bit (h : ConsoleHead) (low : BitVec 8) {i : Nat} (hi : i < 8) : (targetCell h low).getLsbD i = low.getLsbD i := by
  rw [targetCell, BitVec.getLsbD_append, if_pos hi]

theorem high_nibble (a b : BitVec 4) : (a ++ b).extractLsb' 4 4 = a := by rw [field_high _ _ (by decide), BitVec.extractLsb'_eq_self]

theorem low_nibble (a b : BitVec 4) : (a ++ b).extractLsb' 0 4 = b := by rw [field_low _ _ (by decide), BitVec.extractLsb'_eq_self]

/-- R156: the SETUP items by their identifiers. -/
theorem setup_roundTrip (t : Instant) (h : ConsoleHead) (item : BitVec 8) (v : Dev) :
    commandOf t ⟨6, h.frame, targetCell h item :: signedPair v⟩ = some (setupCommand t h item v) := by
  have hstep : commandOf t ⟨6, h.frame, targetCell h item :: signedPair v⟩
      = some (setupCommand t { frame := h.frame, target := (targetCell h item).extractLsb' 8 4 } ((targetCell h item).extractLsb' 0 8)
          (signedOf (BitVec.ofBool v.neg ++ v.mag.extractLsb' 12 11) (v.mag.extractLsb' 0 12))) := rfl
  rw [hstep, head_targetCell, targetCell_field _ _ (by decide), BitVec.extractLsb'_eq_self, signedOf_signedPair]

theorem setupCommand_plain {item : BitVec 8} (hi : plainSetupItem item = true) (t : Instant) (h : ConsoleHead) (v : Dev) :
    setupCommand t h item v = .setup t h item v := by
  simp only [plainSetupItem, Bool.and_eq_true, bne_iff_ne, Bool.not_eq_true', Bool.and_eq_false_iff, decide_eq_false_iff_not] at hi
  obtain ⟨⟨h1, h255⟩, hgate⟩ := hi
  rw [setupCommand, if_neg h1, if_neg h255, dif_neg (by omega)]

theorem setupCommand_gate (t : Instant) (h : ConsoleHead) (g : Fin 16) (v : Dev) :
    setupCommand t h (BitVec.ofNat 8 (g.val + 19)) v = .setupGatePos t h g v := by
  have hval : (BitVec.ofNat 8 (g.val + 19)).toNat = g.val + 19 := Nat.mod_eq_of_lt (show g.val + 19 < 256 by omega)
  have hg : 19 ≤ (BitVec.ofNat 8 (g.val + 19)).toNat ∧ (BitVec.ofNat 8 (g.val + 19)).toNat ≤ 34 := by omega
  have hgate : (BitVec.ofNat 8 (g.val + 19)).toNat - 19 = g.val := by omega
  rw [setupCommand, if_neg (by omega), if_neg (by omega), dif_pos hg]
  exact congrArg (fun x => Instr.setupGatePos t h x v) (Fin.ext hgate)

theorem low_bit (a b : BitVec 4) {i : Nat} (hi : i < 4) : (a ++ b).getLsbD i = b.getLsbD i := by rw [BitVec.getLsbD_append, if_pos hi]

/-- R156: the LOAD of a page parameter. -/
theorem loadParameter_roundTrip (t : Instant) (h : ConsoleHead) (page : BitVec 4) (field : BitVec 12) (v : Dev) :
    commandOf t ⟨7, h.frame, targetCell h (page ++ 0#4) :: field :: signedPair v⟩ = some (.loadParameter t h page field v) := by
  have hstep (c : Cell) : commandOf t ⟨7, h.frame, c :: field :: signedPair v⟩
      = if c.getLsbD 3 then loadBinCommand t { frame := h.frame, target := c.extractLsb' 8 4 } (c.extractLsb' 4 4) (field :: signedPair v)
        else some (.loadParameter t { frame := h.frame, target := c.extractLsb' 8 4 } (c.extractLsb' 4 4) field
          (signedOf (BitVec.ofBool v.neg ++ v.mag.extractLsb' 12 11) (v.mag.extractLsb' 0 12))) := rfl
  have hbit : (targetCell h (page ++ 0#4)).getLsbD 3 = false := (targetCell_bit _ _ (by decide)).trans (low_bit _ _ (by decide))
  rw [hstep, hbit, if_neg (by decide), head_targetCell, targetCell_field _ _ (by decide), high_nibble, signedOf_signedPair]

theorem loadBinCommand_limits (t : Instant) (h : ConsoleHead) (page : BitVec 4) (bin : BitVec 12) (lower upper : Dev) (gate : BitVec 12)
    (capacity : BitVec 16) (lo hi : Option Dev) :
    loadBinCommand t h page (bin :: (0#9 ++ BitVec.ofBool hi.isSome ++ BitVec.ofBool lo.isSome ++ 1#1)
        :: (signedPair lower ++ signedPair upper ++ [gate] ++ countPair capacity ++ optSigned lo ++ optSigned hi))
      = some (.loadBin t h page bin lower upper gate capacity lo hi) := by
  obtain ⟨hp, h0, h1, h2⟩ := presence_three true lo.isSome hi.isSome
  have hone : BitVec.ofBool true = 1#1 := rfl
  have hhi : takeSigned hi.isSome (optSigned hi) = some (hi, []) := by simpa using takeSigned_optSigned hi []
  rw [hone] at hp h0 h1 h2
  simp only [loadBinCommand, signedPair, countPair, List.cons_append, List.nil_append, and_self, if_true, hp, h0, h1, h2,
    takeSigned_optSigned, hhi, signedOf_signedPair, countOf_countPair]

/-- R156: a LOAD of a bin. -/
theorem loadBin_roundTrip (t : Instant) (h : ConsoleHead) (page : BitVec 4) (cell : Cell) (rest : List Cell) :
    commandOf t ⟨7, h.frame, targetCell h (page ++ 8#4) :: cell :: rest⟩ = loadBinCommand t h page (cell :: rest) := by
  have hbit : (targetCell h (page ++ 8#4)).getLsbD 3 = true := (targetCell_bit _ _ (by decide)).trans (low_bit _ _ (by decide))
  have hstep (c : Cell) (hc : c.getLsbD 3 = true) : commandOf t ⟨7, h.frame, c :: cell :: rest⟩
      = loadBinCommand t { frame := h.frame, target := c.extractLsb' 8 4 } (c.extractLsb' 4 4) (cell :: rest) := if_pos hc
  rw [hstep _ hbit, head_targetCell, targetCell_field _ _ (by decide), high_nibble]

/-- R156: a CLEAR, by its form. -/
theorem clear_roundTrip (t : Instant) (h : ConsoleHead) (form low : BitVec 4) (cell : Cell) (rest : List Cell) :
    commandOf t ⟨10, h.frame, targetCell h (form ++ low) :: cell :: rest⟩ = clearCommand t h form (cell :: rest) := by
  have hstep (c : Cell) : commandOf t ⟨10, h.frame, c :: cell :: rest⟩
      = clearCommand t { frame := h.frame, target := c.extractLsb' 8 4 } (c.extractLsb' 4 4) (cell :: rest) := rfl
  rw [hstep, head_targetCell, targetCell_field _ _ (by decide), high_nibble]

/-- R156, R186: a QUERY, by its item. -/
theorem query_roundTrip (t : Instant) (h : ConsoleHead) (item arg : BitVec 4) (rest : List Cell) :
    commandOf t ⟨14, h.frame, targetCell h (item ++ arg) :: rest⟩ = queryCommand t h item arg rest := by
  have hstep (c : Cell) : commandOf t ⟨14, h.frame, c :: rest⟩
      = queryCommand t { frame := h.frame, target := c.extractLsb' 8 4 } (c.extractLsb' 4 4) (c.extractLsb' 0 4) rest := rfl
  rw [hstep, head_targetCell, targetCell_field _ _ (by decide), targetCell_field _ _ (by decide), high_nibble, low_nibble]

theorem pair_fields (page : BitVec 4) (bin : BitVec 8) : (page ++ bin : Cell).extractLsb' 8 4 = page ∧ (page ++ bin : Cell).extractLsb' 0 8 = bin := by
  constructor
  · rw [field_high _ _ (by decide), BitVec.extractLsb'_eq_self]
  · rw [field_low _ _ (by decide), BitVec.extractLsb'_eq_self]

theorem clearCommand_undefined (t : Instant) (h : ConsoleHead) (form : Fin 14) :
    clearCommand t h (BitVec.ofNat 4 (form.val + 2)) [0] = some (.clearAlertFlags t h (.undefinedForm form)) := by
  have hval : (BitVec.ofNat 4 (form.val + 2)).toNat = form.val + 2 := Nat.mod_eq_of_lt (show form.val + 2 < 16 by omega)
  have hform : (BitVec.ofNat 4 (form.val + 2)).toNat - 2 = form.val := by omega
  rw [clearCommand, if_neg (by omega), if_neg (by omega)]
  exact congrArg (fun x => some (Instr.clearAlertFlags t h (.undefinedForm x))) (Fin.ext hform)

theorem queryCommand_undefined (t : Instant) (h : ConsoleHead) (arg : BitVec 4) (n : Fin 9) :
    queryCommand t h (BitVec.ofNat 4 (n.val + 7)) arg [] = some (.queryState t h (.undefinedItem n) arg) := by
  fin_cases n <;> rfl

/-- R177: the command of a RUN/HALT mode. -/
def modeCommand (t : Instant) (h : ConsoleHead) (mode : Nat) : Option Instr :=
  match mode with
  | 0 => some (.run t h)
  | 1 => some (.halt t h .halt)
  | 2 => some (.drain t h)
  | _ => some (.halt t h .undefinedMode)

/-- R156, R177: a RUN/HALT, by its mode. -/
theorem mode_roundTrip (t : Instant) (h : ConsoleHead) (low : BitVec 8) :
    commandOf t ⟨2, h.frame, [targetCell h low]⟩ = modeCommand t h (low.extractLsb' 0 2).toNat := by
  have hstep (c : Cell) : commandOf t ⟨2, h.frame, [c]⟩
      = modeCommand t { frame := h.frame, target := c.extractLsb' 8 4 } (c.extractLsb' 0 2).toNat := rfl
  rw [hstep, head_targetCell, targetCell_field _ _ (by decide)]

/-- R156: a MUTE, by its lowest bit. -/
theorem mute_roundTrip (t : Instant) (h : ConsoleHead) (low : BitVec 8) :
    commandOf t ⟨12, h.frame, [targetCell h low]⟩ = some (if low.getLsbD 0 then .mute t h else .unmute t h) := by
  have hstep (c : Cell) : commandOf t ⟨12, h.frame, [c]⟩
      = some (if c.getLsbD 0 then .mute t { frame := h.frame, target := c.extractLsb' 8 4 }
          else .unmute t { frame := h.frame, target := c.extractLsb' 8 4 }) := rfl
  rw [hstep, head_targetCell, targetCell_bit _ _ (by decide)]

theorem lock_roundTrip (t : Instant) (h : ConsoleHead) (page low : BitVec 4) (digest : BitVec 12) :
    commandOf t ⟨8, h.frame, [targetCell h (page ++ low), digest]⟩ = some (.lock t h page digest) := by
  have hstep (c : Cell) : commandOf t ⟨8, h.frame, [c, digest]⟩
      = some (.lock t { frame := h.frame, target := c.extractLsb' 8 4 } (c.extractLsb' 4 4) digest) := rfl
  rw [hstep, head_targetCell, targetCell_field _ _ (by decide), high_nibble]

theorem erase_roundTrip (t : Instant) (h : ConsoleHead) (page low : BitVec 4) :
    commandOf t ⟨9, h.frame, [targetCell h (page ++ low)]⟩ = some (.erase t h page) := by
  have hstep (c : Cell) : commandOf t ⟨9, h.frame, [c]⟩
      = some (.erase t { frame := h.frame, target := c.extractLsb' 8 4 } (c.extractLsb' 4 4)) := rfl
  rw [hstep, head_targetCell, targetCell_field _ _ (by decide), high_nibble]

theorem mask_roundTrip (t : Instant) (h : ConsoleHead) (w : BitVec 32) (master : Bool) :
    commandOf t ⟨11, h.frame, targetCell h (0#7 ++ BitVec.ofBool master) :: wordCells w⟩ = some (.mask t h w master) := by
  have hstep (c : Cell) : commandOf t ⟨11, h.frame, c :: wordCells w⟩
      = some (.mask t { frame := h.frame, target := c.extractLsb' 8 4 }
          (wordOf (w.extractLsb' 20 12) (w.extractLsb' 8 12) (w.extractLsb' 0 8 ++ 0#4)) (c.getLsbD 0)) := rfl
  rw [hstep, head_targetCell, wordOf_wordCells, targetCell_bit _ _ (by decide), bit_zero]

theorem restart_roundTrip (t : Instant) (h : ConsoleHead) (low : BitVec 8) :
    commandOf t ⟨13, h.frame, [targetCell h low]⟩ = some (.restart t h) := by
  have hstep (c : Cell) : commandOf t ⟨13, h.frame, [c]⟩ = some (.restart t { frame := h.frame, target := c.extractLsb' 8 4 }) := rfl
  rw [hstep, head_targetCell]

/-- R134, R156: a CLEAR of form 0. -/
theorem clearCommand_bin (t : Instant) (h : ConsoleHead) (page : BitVec 4) (bin : BitVec 8) :
    clearCommand t h 0 [page ++ bin] = some (.binClear t h page bin) := by
  obtain ⟨hpage, hbin⟩ := pair_fields page bin
  have hstep (c : Cell) : clearCommand t h 0 [c] = some (.binClear t h (c.extractLsb' 8 4) (c.extractLsb' 0 8)) := rfl
  rw [hstep, hpage, hbin]

/-- R156, R183: a CLEAR of form 1. -/
theorem clearCommand_flags (t : Instant) (h : ConsoleHead) (w : BitVec 32) :
    clearCommand t h 1 (wordCells w) = some (.clearAlertFlags t h (.flags w)) :=
  congrArg (fun w => some (Instr.clearAlertFlags t h (.flags w))) (wordOf_wordCells w)

/-- R156, R186: a QUERY of item 3. -/
theorem queryCommand_bin (t : Instant) (h : ConsoleHead) (arg page : BitVec 4) (bin : BitVec 8) :
    queryCommand t h 3 arg [page ++ bin] = some (.queryBinTally t h arg page bin) := by
  obtain ⟨hpage, hbin⟩ := pair_fields page bin
  have hstep (c : Cell) : queryCommand t h 3 arg [c] = some (.queryBinTally t h arg (c.extractLsb' 8 4) (c.extractLsb' 0 8)) := rfl
  rw [hstep, hpage, hbin]

/-! ### Every command that is a frame (R151) -/

/-- R154 to R157: the body of a frame is that of its command alone. -/
theorem commandOf_encodeRaw {c : Instr} {f : RawFrame} (hw : c.wellFormed = true) (hf : encodeRaw c = some f) : commandOf c.instant f = some c := by
  cases c with
  | entryReceived t h b => cases hf; exact congrArg (Option.map _) (entryOfBody_entryCells b)
  | valueReceived t h b => cases hf; exact congrArg (Option.map _) (valueOfBody_valueCells b)
  | verdictReceived t h b => cases hf; exact congrArg (Option.map _) (verdictOfBody_verdictCells b)
  | hailReceived t h b => cases hf; exact congrArg (Option.map _) (hailOfBody_hailCells b)
  | alertFrameReceived t h w => cases hf; exact congrArg (fun w => some (Instr.alertFrameReceived t h w)) (wordOf_wordCells w)
  | statusReceived t h body => cases hf; exact if_pos hw
  | run t h => cases hf; exact mode_roundTrip t h 0
  | halt t h mode =>
    cases mode with
    | halt => cases hf; exact mode_roundTrip t h 1
    | undefinedMode => cases hf; exact mode_roundTrip t h 3
  | drain t h => cases hf; exact mode_roundTrip t h 2
  | setup t h item v => cases hf; exact (setup_roundTrip t h item v).trans (congrArg some (setupCommand_plain hw t h v))
  | setupPosition t h v => cases hf; exact setup_roundTrip t h 1 v
  | setupGatePos t h g v => cases hf; exact (setup_roundTrip t h _ v).trans (congrArg some (setupCommand_gate t h g v))
  | done t h v => cases hf; exact setup_roundTrip t h 255 v
  | loadParameter t h page field v => cases hf; exact loadParameter_roundTrip t h page field v
  | loadBin t h page bin lower upper gate capacity lo hi =>
    cases hf; exact (loadBin_roundTrip t h page bin _).trans (loadBinCommand_limits t h page bin lower upper gate capacity lo hi)
  | loadBinRemove t h page bin => cases hf; exact loadBin_roundTrip t h page bin [0]
  | lock t h page digest => cases hf; exact lock_roundTrip t h page 0 digest
  | erase t h page => cases hf; exact erase_roundTrip t h page 0
  | binClear t h page bin => cases hf; exact (clear_roundTrip t h 0 0 _ []).trans (clearCommand_bin t h page bin)
  | clearAlertFlags t h form =>
    cases form with
    | flags w => cases hf; exact (clear_roundTrip t h 1 0 _ _).trans (clearCommand_flags t h w)
    | undefinedForm form => cases hf; exact (clear_roundTrip t h _ 0 0 []).trans (clearCommand_undefined t h form)
  | mask t h word master => cases hf; exact mask_roundTrip t h word master
  | mute t h => cases hf; exact mute_roundTrip t h 1
  | unmute t h => cases hf; exact mute_roundTrip t h 0
  | restart t h => cases hf; exact restart_roundTrip t h 0
  | queryState t h item arg =>
    cases item with
    | state => cases hf; exact query_roundTrip t h 0 arg []
    | undefinedItem n => cases hf; exact (query_roundTrip t h _ arg []).trans (queryCommand_undefined t h arg n)
  | queryAlertWord t h arg => cases hf; exact query_roundTrip t h 1 arg []
  | queryPeerRow t h arg => cases hf; exact query_roundTrip t h 2 arg []
  | queryBinTally t h arg page bin => cases hf; exact (query_roundTrip t h 3 arg _).trans (queryCommand_bin t h arg page bin)
  | queryReasonTally t h arg => cases hf; exact query_roundTrip t h 4 arg []
  | queryEntry t h arg tag => cases hf; exact (query_roundTrip t h 5 arg _).trans (congrArg (fun x => some (Instr.queryEntry t h arg x)) (tagOf_tagPair tag 0))
  | queryDriftSlot t h arg => cases hf; exact query_roundTrip t h 6 arg []
  | _ => cases hf

/-- R139: the body of a frame fits the length field of its header. -/
theorem frameForm (c : Instr) : Laws.FrameForm.Statement c := by
  cases c with
  | entryReceived t h body => exact Laws.FrameForm.entryReceived t h body
  | valueReceived t h body => exact Laws.FrameForm.valueReceived t h body
  | verdictReceived t h body => exact Laws.FrameForm.verdictReceived t h body
  | hailReceived t h body => exact Laws.FrameForm.hailReceived t h body
  | alertFrameReceived t h word => exact Laws.FrameForm.alertFrameReceived t h word
  | statusReceived t h body => exact Laws.FrameForm.statusReceived t h body
  | run t h => exact Laws.FrameForm.run t h
  | halt t h mode => exact Laws.FrameForm.halt t h mode
  | drain t h => exact Laws.FrameForm.drain t h
  | setup t h item v => exact Laws.FrameForm.setup t h item v
  | setupPosition t h v => exact Laws.FrameForm.setupPosition t h v
  | setupGatePos t h g v => exact Laws.FrameForm.setupGatePos t h g v
  | done t h v => exact Laws.FrameForm.done t h v
  | loadParameter t h page field v => exact Laws.FrameForm.loadParameter t h page field v
  | loadBin t h page bin lower upper gate capacity lo hi => exact Laws.FrameForm.loadBin t h page bin lower upper gate capacity lo hi
  | loadBinRemove t h page bin => exact Laws.FrameForm.loadBinRemove t h page bin
  | lock t h page digest => exact Laws.FrameForm.lock t h page digest
  | erase t h page => exact Laws.FrameForm.erase t h page
  | binClear t h page bin => exact Laws.FrameForm.binClear t h page bin
  | clearAlertFlags t h form => exact Laws.FrameForm.clearAlertFlags t h form
  | mask t h word master => exact Laws.FrameForm.mask t h word master
  | mute t h => exact Laws.FrameForm.mute t h
  | unmute t h => exact Laws.FrameForm.unmute t h
  | restart t h => exact Laws.FrameForm.restart t h
  | queryState t h item arg => exact Laws.FrameForm.queryState t h item arg
  | queryAlertWord t h arg => exact Laws.FrameForm.queryAlertWord t h arg
  | queryPeerRow t h arg => exact Laws.FrameForm.queryPeerRow t h arg
  | queryBinTally t h arg page bin => exact Laws.FrameForm.queryBinTally t h arg page bin
  | queryReasonTally t h arg => exact Laws.FrameForm.queryReasonTally t h arg
  | queryEntry t h arg tag => exact Laws.FrameForm.queryEntry t h arg tag
  | queryDriftSlot t h arg => exact Laws.FrameForm.queryDriftSlot t h arg
  | _ => exact Laws.FrameForm.of_none rfl

/-- R149: a frame is taken from its cells as the command it is. -/
theorem decodeFrame_encodeFrame {c : Instr} {cells : List Cell} (hw : c.wellFormed = true) (hc : encodeFrame c = some cells) :
    decodeFrame c.instant cells = some c := by
  obtain ⟨f, hf, rfl⟩ := Option.map_eq_some_iff.mp hc
  obtain ⟨-, hlen⟩ := frameForm c f hw hf
  rw [decodeFrame, parseFrame_frameCells hlen]
  exact commandOf_encodeRaw hw hf

/-- R138: cells that the line carries whole are read as they were sent. -/
theorem readCells_lineCells (cells : List Cell) :
    (cells.map lineCell).all (fun w => (readCell w).isSome) = true ∧ (cells.map lineCell).filterMap readCell = cells := by
  constructor
  · simp [readCell_lineCell]
  · rw [List.filterMap_map]
    exact (List.filterMap_congr fun c _ => readCell_lineCell c).trans List.filterMap_some

/-- Settles O60. -/
theorem frameRoundTrip : Obligations.FrameRoundTrip := by
  unfold Obligations.FrameRoundTrip
  refine ⟨fun c => ⟨parityBit c, count_with_parityBit c, lineCell_eq c⟩, readCell_eq_some_iff, fun c cells hw hc => ?_⟩
  obtain ⟨hall, hread⟩ := readCells_lineCells cells
  refine (if_pos hall).trans ?_
  rw [hread, decodeFrame_encodeFrame hw hc, Option.getD_some]

end Sys2Proof
end

section
/-! Settles O31 and O37: the standby test and what asks for it: the expiry of a silence timer, and a HAIL, an ALERT or a STATUS from another station (R63, R147, R151, R159, R161, R163 to R165, R167, R169, R185). -/

namespace Sys2Proof.Machine

/-! ### The standby test (R167) -/

/-- R165, R167: the rows that the standby test looks at, in the statement's terms. -/
theorem lowerQualifies_iff (b : State) : b.lowerQualifies = true ↔ ∃ m : Fin 8, m < b.ctl.node ∧ sourceRow b b.ctl.role m = true := by
  unfold State.lowerQualifies
  rw [allNodes_eq_finRange]
  simp [sourceRow_eq]

theorem tested_standsBy {a : State} (hrun : a.ctl.run ≠ .fault) (hact : a.ctl.activity = .active) (hl : a.lowerQualifies = true) :
    tested a = stoodBy a := by rw [tested, if_neg hrun, if_pos ⟨hact, hl⟩]

theorem tested_takesOver {a : State} (hrun : a.ctl.run ≠ .fault) (hact : a.ctl.activity = .standby) (hl : a.lowerQualifies = false) :
    tested a = tookOver a := by rw [tested, if_neg hrun, if_neg (by simp [hact]), if_pos ⟨hact, hl⟩]

/-- R167: FAULT, and each activity that the lower rows bear out. -/
theorem tested_stays {a : State}
    (h : a.ctl.run = .fault ∨ (a.ctl.activity = .active ∧ a.lowerQualifies = false) ∨ (a.ctl.activity = .standby ∧ a.lowerQualifies = true)
      ∨ a.ctl.activity = .muted) : tested a = a := by
  rcases h with hrun | ⟨hact, hl⟩ | ⟨hact, hl⟩ | hact
  · rw [tested, if_pos hrun]
  all_goals
    rw [← standbyTest_eq]
    exact standbyTest_stays (by simp [*]) (by simp [*])

theorem tested_peers (a : State) : (tested a).peers = a.peers := by rw [← standbyTest_eq, standbyTest_peers]

theorem tested_now (a : State) : (tested a).now = a.now := by rw [← standbyTest_eq, standbyTest_now]

theorem settle_peerTests {a : State} (h : a.realignBy = none) : settle (peerTests a) = settle (tested a) := by
  rw [peerTests_tested h, settle_refreshLevels]

/-! ### The entry to STANDBY (R63, R167) -/

theorem stoodBy_eng (a : State) : (stoodBy a).eng = (discarded a).eng := by simp [stoodBy]

theorem stoodBy_idx (a : State) : (stoodBy a).idx = (discarded a).idx := by simp [stoodBy]

theorem stoodBy_status (a : State) : (stoodBy a).work.status = a.work.status := by simp [stoodBy]

theorem stoodBy_activity (a : State) : (stoodBy a).ctl.activity = .standby := rfl

/-! ### PEER_SILENCE (R161) -/

/-- R163, R183: a SILENT row raises PEER_SILENT at the end of the command. -/
theorem Tail.peerSilent {a u : State} (ht : Tail a u) {n : Fin 8} (h : a.standing n = .silent) : flagIn u.alerts.word .peerSilent = true := by
  have hstands : a.levelStands .peerSilent = true := by
    simp only [State.levelStands, List.any_eq_true, beq_iff_eq]
    exact ⟨n, mem_allNodes n, h⟩
  rw [ht.flags _ (by decide), hstands, Bool.or_true]

/-- Settles O31: the rows, the command without effect, then the silence taken by what the standby test makes of it. -/
theorem peerSilence : Obligations.PeerSilence := by
  unfold Obligations.PeerSilence
  refine ⟨lowerQualifies_iff, fun t n s hr => ?_⟩
  intro a b
  have hnode : a.ctl.node = s.ctl.node := by simp [a]
  have hpeers : a.peers = s.peers := advance_peers t s
  have hsilent : a.standing n = .silent ↔ (s.peers[n]).heard = true ∧ (s.peers[n]).heardAt + ms 1000 ≤ max s.now t := by
    rw [standing_silent_iff, hpeers, show a.now = _ from advance_now t s]
  have hevent : exec (.peerSilence t n) s = .next (settle (silencePeer n a)) := event_settles t (silencePeer n) hr
  refine ⟨fun hnone => ⟨_, hevent, tail_of_eq (silencePeer_not ?_)⟩, fun hn hheard hdue hopen hrealign => ?_⟩
  · rw [hnode, hsilent, hpeers]
    rintro ⟨hn, ⟨hheard, hdue⟩, hopen⟩
    rcases hnone with h | h | h | h
    · exact hn h
    · exact Bool.noConfusion (hheard.symm.trans h)
    · exact absurd hdue (Nat.not_le.mpr h)
    · exact Bool.noConfusion (hopen.symm.trans h)
  · have hctl : b.ctl = s.ctl := by simp [b, a]
    have htaken : silencePeer n a = peerTests b := by
      rw [silencePeer_due (by rwa [hnode]) (hsilent.mpr ⟨hheard, hdue⟩) (by rwa [hpeers]), hpeers]
    rw [htaken, settle_peerTests hrealign] at hevent
    have htail : Tail (tested b) (settle (tested b)) := settle_tail _
    refine ⟨_, hevent, htail.peerSilent (n := n) ?_, fun hrun hact hl => ?_, fun hrun hact hl => ?_, fun hstays => ?_⟩
    · rw [standing_silent_iff, tested_peers, tested_now]
      simpa [b, a] using And.intro hheard hdue
    · rw [tested_takesOver (by rwa [hctl]) (by rwa [hctl]) hl, tookOver, hctl]
      exact settle_tail _
    · rw [← hctl] at hrun hact
      have hnone := standbyTest_noUnits hrun hact hl
      rw [standbyTest_eq, tested_standsBy hrun hact hl] at hnone
      rw [tested_standsBy hrun hact hl, settle_eng, settle_idx, stoodBy_eng, stoodBy_idx]
      refine ⟨settle_tail _, by rw [settle_ctl_activity, stoodBy_activity], discarded_ctx b, fun hctx => ?_, fun hwork => ?_⟩
      · rw [discarded_running (a := b) (by simpa [b, a] using hctx)]
        exact ⟨rfl, rfl, rfl⟩
      · exact settle_noUnits (by rw [stoodBy_status, show b.work = s.work by simp [b, a], hwork]; rfl) (stoodBy_activity b) hnone
    · rw [tested_stays (by rwa [hctl])]
      exact settle_tail b

/-! ### Station frames (R159) -/

/-- R159, R185: a station kind whose content goes nowhere but into the sender's row. -/
theorem event_heard {t : Instant} {h : FrameHead} {hail : Option HailBody} {n : Fin 8} {m : Mark} {s b : State} (hr : s.resetHeld = false)
    (hrx : s.link.rx = some m) (hs : h.sender = BitVec.ofNat 4 n.val) (hn : n ≠ s.ctl.node) (hrow : rowHeard t n h hail m s = b)
    (hrealign : b.realignBy = none) : ∃ u, event t (takeFrame h hail id) s = .next u ∧ Tail (tested b) u := by
  refine ⟨_, event_settles t _ hr, ?_⟩
  rw [takeFrame_station hail id hrx hs hn, hrow]
  exact peerTests_tail hrealign

/-- Settles O37: STATUS and ALERT, HAIL, and the row that a unit record finds. -/
theorem stationFrameHeard : Obligations.StationFrameHeard := by
  unfold Obligations.StationFrameHeard
  intro t h n m s hr hrx hs hn row score off row' b after
  have hafter : rowHeard t n h none m s = after := rowHeard_eq hn none
  refine ⟨fun hrealign => ⟨fun body => ?_, fun word => ?_⟩, fun body => ?_, hafter, fun hrealign => ?_⟩
  · exact event_heard hr hrx hs hn hafter hrealign
  · exact event_heard hr hrx hs hn hafter hrealign
  · intro hail hrealign
    exact event_heard hr hrx hs hn (rowHeard_eq hn (some body)) hrealign
  · rw [heardState, hafter, peerTests_tested hrealign]

end Sys2Proof.Machine
end

section
/-! Settles O43: RUN, HALT and DRAIN by station state, role and drain mark (R169, R177, R178). -/

namespace Sys2Proof.Machine

/-- R169: a change of the state code offers a HAIL. -/
theorem setStation_moves {st : StationState} {drain : Bool} {s : State} (h : stateCode st drain ≠ stateCode s.ctl.run s.ctl.drain) :
    setStation st drain s = offerHail (s.withCtl { s.ctl with run := st, drain := drain }) := if_pos (bne_iff_ne.mpr h)

/-- R169: a station that keeps state and drain mark offers nothing. -/
theorem setStation_same (s : State) : setStation s.ctl.run s.ctl.drain s = s := if_neg (by simp)

/-! ### RUN (R177) -/

theorem runMode_keeps {b : State} (h : b.ctl.run = .listen ∨ b.ctl.run = .fault ∨ b.ctl.run = .run ∧ b.ctl.drain = false) : runMode b = b := by
  unfold runMode
  rcases h with h | h | ⟨h, hd⟩
  · rw [h]
  · rw [h]
  · rw [h]
    have hsame := setStation_same b
    rwa [h, hd] at hsame

theorem runMode_refused {b : State} (h : b.ctl.run = .config ∨ (b.ctl.run = .ready ∨ b.ctl.run = .halt) ∧ b.anyLocked = false) :
    runMode b = raise .runRefused b := by
  unfold runMode
  rcases h with h | ⟨h | h, hl⟩ <;> rw [h]
  all_goals exact if_neg (by simp [hl])

theorem runMode_runs {b : State} (h : (b.ctl.run = .ready ∨ b.ctl.run = .halt) ∧ b.anyLocked = true ∨ b.ctl.run = .run) :
    runMode b = setStation .run false b := by
  unfold runMode
  rcases h with ⟨h | h, hl⟩ | h <;> rw [h]
  all_goals exact if_pos hl

/-! ### HALT (R177) -/

theorem haltMode_ignored {b : State} (h : b.ctl.run = .listen ∨ b.ctl.run = .fault) (m : HaltMode) : haltMode m b = b := by
  unfold haltMode
  rcases h with h | h <;> rw [h]

theorem haltMode_halted {b : State} (h : b.ctl.run = .halt) : haltMode .halt b = b := by
  unfold haltMode
  rw [h]

theorem haltMode_refused {b : State} (h : b.ctl.run = .config ∨ b.ctl.run = .ready) : haltMode .halt b = raise .consoleError b := by
  unfold haltMode
  rcases h with h | h <;> rw [h]

theorem haltMode_halts {b : State} (h : b.ctl.run = .run) : haltMode .halt b = setStation .halt false b := by
  unfold haltMode
  rw [h]

theorem haltMode_undefined {b : State} (hl : b.ctl.run ≠ .listen) (hf : b.ctl.run ≠ .fault) : haltMode .undefinedMode b = raise .consoleError b := by
  unfold haltMode
  split
  · exact absurd ‹_› hl
  · exact absurd ‹_› hf
  · rfl
  all_goals rename_i hm; cases hm

/-! ### DRAIN (R178) -/

theorem drainMode_ignored {b : State} (h : b.ctl.run = .listen ∨ b.ctl.run = .fault ∨ b.ctl.run = .halt) : drainMode b = b := by
  unfold drainMode
  rcases h with h | h | h <;> rw [h]

theorem drainMode_refused {b : State} (h : b.ctl.run = .config ∨ b.ctl.run = .ready) : drainMode b = raise .consoleError b := by
  unfold drainMode
  rcases h with h | h <;> rw [h]

/-- R178: PROBE and SORT have nothing to drain. -/
theorem drainMode_halts {b : State} (h : b.ctl.run = .run) (hrole : b.role = some .probe ∨ b.role = some .sort) :
    drainMode b = setStation .halt false b := by
  unfold drainMode
  rcases hrole with hrole | hrole <;> rw [h, hrole]

theorem drainMode_drains {b : State} (h : b.ctl.run = .run) (hrole : b.role = some .precise ∨ b.role = some .retest ∨ b.role = some .thermal) :
    drainMode b = setStation .run true b := by
  unfold drainMode
  rcases hrole with hrole | hrole | hrole <;> rw [h, hrole]

/-- Settles O43, frame by frame. -/
theorem runHaltDrain : Obligations.RunHaltDrain := by
  unfold Obligations.RunHaltDrain
  intro t h s hr hrx haddr a moved refused
  have hctl : a.ctl = s.ctl := consoleState_ctl t h s
  have hrole : a.role = roleOfCode s.ctl.role := congrArg (fun c : RunControl => roleOfCode c.role) hctl
  have hlocked : a.anyLocked = true ↔ ∃ p : Fin 4, (s.pages[p]).state = .locked := by
    rw [anyLocked_iff, show a.pages = s.pages from consoleState_pages t h s]
  have hmoves {st : StationState} {drain : Bool} (hcode : stateCode st drain ≠ stateCode s.ctl.run s.ctl.drain) :
      setStation st drain a = moved st drain := by
    rw [setStation_moves (by rwa [hctl]), hctl]
  -- from RUN, with or without the drain mark
  have hhalts (hrun : s.ctl.run = .run) : setStation .halt false a = moved .halt false :=
    hmoves (by rw [hrun]; cases s.ctl.drain <;> decide)
  have hacts := fun act => event_obey_addressed (t := t) hr hrx haddr act
  refine ⟨⟨_, hacts runMode, fun hkeeps => ?_, fun hrefused => ?_, fun hrun hpage => ?_, fun hrun hdrain => ?_⟩,
    ⟨_, hacts (haltMode .halt), fun hkeeps => ?_, fun hrefused => ?_, fun hrun => ?_⟩,
    ⟨_, hacts (haltMode .undefinedMode), fun hignored => ?_, fun hl hf => ?_⟩,
    ⟨_, hacts drainMode, fun hkeeps => ?_, fun hrefused => ?_, fun hrun hat => ?_, fun hrun hdrain hat => ?_⟩⟩ <;>
    refine tail_of_eq ?_
  · exact runMode_keeps (by rwa [hctl])
  · refine runMode_refused ?_
    rw [hctl]
    exact hrefused.imp_right fun ⟨hrun, hnone⟩ => ⟨hrun, Bool.eq_false_iff.mpr fun hl => (hlocked.mp hl).elim hnone⟩
  · refine (runMode_runs (.inl ⟨by rwa [hctl], hlocked.mpr hpage⟩)).trans (hmoves ?_)
    rcases hrun with hrun | hrun <;> rw [hrun] <;> cases s.ctl.drain <;> decide
  · refine (runMode_runs (.inr (by rwa [hctl]))).trans (hmoves ?_)
    rw [hrun, hdrain]
    decide
  · rcases or_assoc.mpr hkeeps with hignored | hhalted
    · exact haltMode_ignored (by rwa [hctl]) _
    · exact haltMode_halted (by rwa [hctl])
  · exact haltMode_refused (by rwa [hctl])
  · exact (haltMode_halts (by rwa [hctl])).trans (hhalts hrun)
  · exact haltMode_ignored (by rwa [hctl]) _
  · exact haltMode_undefined (by rwa [hctl]) (by rwa [hctl])
  · exact drainMode_ignored (by rwa [hctl])
  · exact drainMode_refused (by rwa [hctl])
  · exact (drainMode_halts (by rwa [hctl]) (by rwa [hrole])).trans (hhalts hrun)
  · refine (drainMode_drains (by rwa [hctl]) (by rwa [hrole])).trans (hmoves ?_)
    rw [hrun, hdrain]
    decide

end Sys2Proof.Machine
end

section
/-! Settles O59: what a command can do to the configuration items, to FAULT, and to node and role. -/

namespace Sys2Proof.Machine

/-! ### The changes of a command -/

/-- R175, R180: the items, node and role are the same in both states, and FAULT with its reason is not left. -/
structure ConfigKept (s u : State) : Prop where
  items : u.ctl.items = s.ctl.items := by simp
  node : u.ctl.node = s.ctl.node := by simp
  role : u.ctl.role = s.ctl.role := by simp
  fault : s.ctl.run = .fault → u.ctl.run = .fault := by simp
  reason : s.ctl.run = .fault → u.ctl.faultReason = s.ctl.faultReason := by simp

/-- R175: the commands that write a configuration item. -/
def writesItem : Instr → Bool
  | .setup .. | .setupPosition .. | .setupGatePos .. => true
  | _ => false

/-- R175: what a command other than a hard reset can do to them: nothing, or the write of a SETUP command in CONFIG. -/
inductive ConfigChange (c : Instr) (s u : State) : Prop
  | kept (h : ConfigKept s u)
  | written (hc : writesItem c = true) (hr : s.ctl.run = .config) (hnode : u.ctl.node = s.ctl.node) (hrole : u.ctl.role = s.ctl.role)

theorem ConfigKept.of_ctl {s u : State} (h : u.ctl = s.ctl) : ConfigKept s u := by
  constructor <;> simp [h]

theorem ConfigKept.refl (s : State) : ConfigKept s s := .of_ctl rfl

theorem ConfigKept.trans {a b c : State} (h₁ : ConfigKept a b) (h₂ : ConfigKept b c) : ConfigKept a c where
  items := h₂.items.trans h₁.items
  node := h₂.node.trans h₁.node
  role := h₂.role.trans h₁.role
  fault hf := h₂.fault (h₁.fault hf)
  reason hf := (h₂.reason (h₁.fault hf)).trans (h₁.reason hf)

/-- What comes before a change and leaves Run Control alone, and what comes after it and leaves items and FAULT alone, is no part of it. -/
theorem ConfigChange.within {c : Instr} {a b u v : State} (h₁ : b.ctl = a.ctl) (h : ConfigChange c b u) (h₂ : ConfigKept u v) :
    ConfigChange c a v := by
  cases h with
  | kept h => exact .kept (((ConfigKept.of_ctl h₁).trans h).trans h₂)
  | written hc hr hnode hrole =>
    exact .written hc (h₁ ▸ hr) (h₂.node.trans (hnode.trans (by rw [h₁]))) (h₂.role.trans (hrole.trans (by rw [h₁])))

/-- The operation leaves items, node and role alone, and does not leave FAULT. -/
def KeepsConfig (f : State → State) : Prop := ∀ s, ConfigKept s (f s)

/-! ### The operations that change the station state -/

/-- R178: a drain that is complete leads from RUN to HALT. -/
theorem drainTest_keepsConfig : KeepsConfig drainTest := fun s => { fault := fun hf => by simp [drainTest, hf] }

theorem settle_keepsConfig : KeepsConfig settle := fun s =>
  (drainTest_keepsConfig s).trans (.of_ctl (by simp [settle]))

/-- R174: a duplicate-node report leads to FAULT from LISTEN alone. -/
theorem duplicateReport_keepsConfig : KeepsConfig duplicateReport := fun s =>
  { fault := fun hf => by simp [duplicateReport, hf], reason := fun hf => by simp [duplicateReport, hf] }

/-- R16, R178: of the peer tests the realign alone can change the station state, and there is none in FAULT. -/
theorem peerTests_keepsConfig : KeepsConfig peerTests := by
  intro s
  cases hd : (standbyTest (refreshLevels s)).realignBy with
  | none => exact { fault := fun hf => by simpa [peerTests, realignTest, hd] using hf }
  | some d => exact { fault := fun hf => absurd hf (by simpa using StepKept.realignBy_run hd) }

theorem runMode_keepsConfig : KeepsConfig runMode := fun s => { fault := fun hf => by simp [runMode, hf] }

theorem haltMode_keepsConfig (m : HaltMode) : KeepsConfig (haltMode m) := fun s => { fault := fun hf => by simp [haltMode, hf] }

theorem drainMode_keepsConfig : KeepsConfig drainMode := fun s => { fault := fun hf => by simp [drainMode, hf] }

theorem restartStation_keepsConfig : KeepsConfig restartStation := fun s => { fault := fun hf => by simp [restartStation, hf] }

theorem expireListen_keepsConfig : KeepsConfig expireListen := fun s => { fault := fun hf => by simp [expireListen, hf] }

theorem finishSetup_keepsConfig {s : State} (hr : s.ctl.run = .config) : ConfigKept s (finishSetup s) :=
  { fault := fun hf => absurd (hr.symm.trans hf) (by decide) }

theorem muteFrame_keepsConfig {act : State → State} (ha : KeepsConfig act) : KeepsConfig (muteFrame act) := by
  intro s
  unfold muteFrame
  split
  · exact .refl s
  · exact ha s

/-! ### Frames taken -/

theorem modifyRow_peerTests_keepsConfig (n : Fin 8) (f : PeerRow → PeerRow) (s : State) : ConfigKept s (peerTests (modifyRow n f s)) :=
  (ConfigKept.of_ctl (by simp)).trans (peerTests_keepsConfig _)

theorem silencePeer_keepsConfig (n : Fin 8) : KeepsConfig (silencePeer n) := by
  intro s
  unfold silencePeer
  split
  · exact modifyRow_peerTests_keepsConfig _ _ s
  · exact .refl s

theorem discardFrame_keepsConfig (sender : Option (BitVec 4)) : KeepsConfig (discardFrame sender) := by
  intro s
  have hended : ConfigKept s (endFrame sender s) := .of_ctl (by simp)
  unfold discardFrame countDiscard
  split
  · refine hended.trans ?_
    split
    · split
      · exact .refl _
      · exact modifyRow_peerTests_keepsConfig _ _ _
    · exact .refl _
  · exact .refl s

/-- R174: a collision after the header cell is a duplicate-node report. -/
theorem collide_keepsConfig : KeepsConfig collide := by
  intro s
  cases hx : s.link.tx with
  | none => exact .of_ctl (by simp [collide, hx])
  | some x =>
    have hstopped : ConfigKept s (stopDriving x s) := .of_ctl rfl
    have hcollide : collide s = if x.won then duplicateReport (stopDriving x s) else stopDriving x s := by
      unfold collide
      rw [hx]
      rfl
    rw [hcollide]
    split
    · exact hstopped.trans (duplicateReport_keepsConfig _)
    · exact hstopped

theorem takeFrame_keepsConfig (h : FrameHead) (hail : Option HailBody) {content : State → State} (hc : KeepsConfig content) :
    KeepsConfig (takeFrame h hail content) := by
  intro s
  have hended : ConfigKept s (endFrame (some h.sender) s) := .of_ctl (by simp)
  unfold takeFrame actOnFrame
  split
  · refine hended.trans ?_
    split
    · exact hc _
    · split
      · exact duplicateReport_keepsConfig _
      · exact (modifyRow_peerTests_keepsConfig _ _ _).trans (hc _)
  · exact .refl s

/-- R166: in FAULT the content of a unit record goes nowhere. -/
theorem fromActiveSource_keepsConfig (h : FrameHead) {content : Fin 8 → Role → State → State}
    (hitems : ∀ n r a, (content n r a).ctl.items = a.ctl.items) (hnode : ∀ n r a, (content n r a).ctl.node = a.ctl.node)
    (hrole : ∀ n r a, (content n r a).ctl.role = a.ctl.role) : KeepsConfig (fromActiveSource h content) := by
  intro s
  unfold fromActiveSource
  split
  · exact .refl s
  · split
    · split
      · rename_i hactive
        have hrun : s.ctl.run ≠ .fault := by simp_all
        exact ⟨hitems _ _ s, hnode _ _ s, hrole _ _ s, fun hf => absurd hf hrun, fun hf => absurd hf hrun⟩
      · exact .refl s
    · exact .refl s

/-- R151: under the number of a station no frame is obeyed. -/
theorem addressed_of_station {h : ConsoleHead} {n : Fin 8} (hn : stationOfSender h.frame.sender = some n) (s : State) : s.addressed h = false := by
  have hsmall : ¬8 ≤ h.frame.sender.toNat := fun h8 => by simp [stationOfSender_console h8] at hn
  simp [State.addressed, isConsole, hsmall]

/-- R151: a console frame is obeyed where it has ended, or it does what a frame without content does. -/
theorem obey_cases (h : ConsoleHead) (act : State → State) (s : State) :
    obey h act s = act (endFrame (some h.frame.sender) s) ∨ ConfigKept s (obey h act s) := by
  cases hs : stationOfSender h.frame.sender with
  | some n =>
    have hignored : obey h act s = takeFrame h.frame none id s := by simp [obey, takeFrame, actOnFrame, hs, addressed_of_station hs]
    exact .inr (hignored ▸ takeFrame_keepsConfig h.frame none (fun a => .refl a) s)
  | none =>
    cases hrx : s.link.rx with
    | none => exact .inr (by rw [obey, takeFrame_none hrx]; exact .refl s)
    | some m =>
      have htaken : obey h act s = if (endFrame (some h.frame.sender) s).addressed h then act (endFrame (some h.frame.sender) s)
          else endFrame (some h.frame.sender) s := by simp [obey, takeFrame, actOnFrame, hrx, hs]
      rw [htaken]
      split
      · exact .inl rfl
      · exact .inr (.of_ctl (by simp))

/-! ### Every command -/

/-- The operation does to Run Control what the command `c` can do to it. -/
def ChangesConfig (c : Instr) (f : State → State) : Prop := ∀ s, ConfigChange c s (f s)

theorem KeepsConfig.changes {f : State → State} (hf : KeepsConfig f) (c : Instr) : ChangesConfig c f := fun s => .kept (hf s)

theorem ChangesConfig.event {c : Instr} {body : State → State} (hb : ChangesConfig c body) {t : Instant} {s u : State}
    (he : event t body s = .next u) : ConfigChange c s u := by
  cases he
  split
  · exact .kept (.of_ctl (by simp))
  · exact (hb _).within (by simp) (settle_keepsConfig _)

theorem ChangesConfig.obey {c : Instr} {act : State → State} (ha : ChangesConfig c act) (h : ConsoleHead) : ChangesConfig c (obey h act) := by
  intro s
  rcases obey_cases h act s with hobeyed | hkept
  · rw [hobeyed]
    exact (ha _).within (by simp) (.refl _)
  · exact .kept hkept

/-- R175: outside CONFIG a SETUP frame writes nothing. -/
theorem changesConfig_setupFrame {c : Instr} (b : Bool) {act : State → State} (ha : ∀ s, s.ctl.run = .config → ConfigChange c s (act s)) :
    ChangesConfig c (setupFrame b act) := by
  intro s
  by_cases hr : s.ctl.run = .config
  · rw [setupFrame_config hr]
    split
    · exact .kept (.refl s)
    · exact ha s hr
  · refine .kept (.of_ctl ?_)
    cases hs : s.ctl.run <;> simp [setupFrame, hs] at hr ⊢

/-- R175, R180: what a command does to the items, to FAULT, and to node and role. -/
theorem exec_config {c : Instr} {s u : State} (he : exec c s = .next u) (hreset : ∀ t cause node role page, c ≠ .hardReset t cause node role page) :
    ConfigChange c s u := by
  have plain {c : Instr} {body : State → State} (hb : ∀ a, (body a).ctl = a.ctl) : ChangesConfig c body := fun a => .kept (.of_ctl (hb a))
  have writes {c : Instr} {act : State → State} (hc : writesItem c = true) (b : Bool) (hnode : ∀ a, (act a).ctl.node = a.ctl.node)
      (hrole : ∀ a, (act a).ctl.role = a.ctl.role) : ChangesConfig c (setupFrame b act) :=
    changesConfig_setupFrame b fun a hr => .written hc hr (hnode a) (hrole a)
  cases c with
  | hardReset t cause node role page => exact absurd rfl (hreset t cause node role page)
  | indexEvent t pins =>
    cases he
    split
    · exact .kept ((ConfigKept.of_ctl (by simp)).trans (settle_keepsConfig (indexEffect pins (advance t s))))
    · exact .kept (.of_ctl (by simp))
  | resetAssert t => cases he; exact .kept (.of_ctl (by simp))
  | hailTimerExpiry t => exact ChangesConfig.event (fun a => .kept {}) he
  | listenExpiry t => exact (expireListen_keepsConfig.changes _).event he
  | peerSilence t n => exact ((silencePeer_keepsConfig n).changes _).event he
  | collision t => exact (collide_keepsConfig.changes _).event he
  | frameDiscard t sender => exact ((discardFrame_keepsConfig sender).changes _).event he
  | entryReceived t hd b => exact ((takeFrame_keepsConfig hd none (fromActiveSource_keepsConfig hd (by simp) (by simp) (by simp))).changes _).event he
  | valueReceived t hd b => exact ((takeFrame_keepsConfig hd none (fromActiveSource_keepsConfig hd (by simp) (by simp) (by simp))).changes _).event he
  | verdictReceived t hd b => exact ((takeFrame_keepsConfig hd none (fromActiveSource_keepsConfig hd (by simp) (by simp) (by simp))).changes _).event he
  | hailReceived t hd b => exact ((takeFrame_keepsConfig hd _ .refl).changes _).event he
  | alertFrameReceived t hd w => exact ((takeFrame_keepsConfig hd none .refl).changes _).event he
  | statusReceived t hd b => exact ((takeFrame_keepsConfig hd none .refl).changes _).event he
  | run t hd => exact ((runMode_keepsConfig.changes _).obey hd).event he
  | halt t hd m => exact (((haltMode_keepsConfig m).changes _).obey hd).event he
  | drain t hd => exact ((drainMode_keepsConfig.changes _).obey hd).event he
  | setup t hd item v => exact ((writes rfl _ (by simp) (by simp)).obey hd).event he
  | setupPosition t hd v => exact ((writes rfl _ (by simp) (by simp)).obey hd).event he
  | setupGatePos t hd g v => exact ((writes rfl _ (by simp) (by simp)).obey hd).event he
  | done t hd v => exact ((changesConfig_setupFrame _ fun a hr => .kept (finishSetup_keepsConfig hr)).obey hd).event he
  | loadParameter t hd page field v => exact ((plain fun a => recipeFrame_ctl _ _ a (by simp)).obey hd).event he
  | loadBin t hd page bin lower upper gate capacity lo hi => exact ((plain fun a => recipeFrame_ctl _ _ a (by simp)).obey hd).event he
  | loadBinRemove t hd page bin => exact ((plain fun a => recipeFrame_ctl _ _ a (by simp)).obey hd).event he
  | lock t hd page digest => exact ((plain fun a => recipeFrame_ctl _ _ a (by simp)).obey hd).event he
  | erase t hd page => exact ((plain fun a => recipeFrame_ctl _ _ a (by simp)).obey hd).event he
  | binClear t hd page bin => exact ((plain (by simp)).obey hd).event he
  | clearAlertFlags t hd form => exact ((plain (by simp)).obey hd).event he
  | mask t hd word master => exact ((plain (by simp)).obey hd).event he
  | mute t hd => exact (((muteFrame_keepsConfig fun a => {}).changes _).obey hd).event he
  | unmute t hd => exact (((muteFrame_keepsConfig fun a => {}).changes _).obey hd).event he
  | restart t hd => exact ((restartStation_keepsConfig.changes _).obey hd).event he
  | queryState t hd item arg => exact ((plain fun a => query_ctl _ a (by simp)).obey hd).event he
  | queryAlertWord t hd arg => exact ((plain fun a => query_ctl _ a (by simp)).obey hd).event he
  | queryPeerRow t hd arg => exact ((plain fun a => query_ctl _ a (by simp)).obey hd).event he
  | queryBinTally t hd arg page bin => exact ((plain fun a => query_ctl _ a (by simp)).obey hd).event he
  | queryReasonTally t hd arg => exact ((plain fun a => query_ctl _ a (by simp)).obey hd).event he
  | queryEntry t hd arg tag => exact ((plain fun a => query_ctl _ a (by simp)).obey hd).event he
  | queryDriftSlot t hd arg => exact ((plain fun a => query_ctl _ a (by simp)).obey hd).event he
  | _ => exact (plain (by simp)).event he

/-- Settles O59: items are written by SETUP in CONFIG alone, and FAULT, node and role stay but for a hard reset. -/
theorem itemsAndFaultStay : Obligations.ItemsAndFaultStay := by
  unfold Obligations.ItemsAndFaultStay
  intro c s u he hreset
  cases exec_config he hreset with
  | kept h => exact ⟨fun _ => h.items, fun _ _ _ => h.items, fun hf => ⟨h.fault hf, h.reason hf⟩, h.node, h.role⟩
  | written hc hr hnode hrole =>
    refine ⟨fun hne => absurd hr hne, fun hs hp hg => ?_, fun hf => absurd (hr.symm.trans hf) (by decide), hnode, hrole⟩
    cases c with
    | setup t h item v => exact absurd rfl (hs t h item v)
    | setupPosition t h v => exact absurd rfl (hp t h v)
    | setupGatePos t h g v => exact absurd rfl (hg t h g v)
    | _ => simp [writesItem] at hc

end Sys2Proof.Machine
end

section
/-! Settles O4, O5 and O6: the hard reset and the state it leads to, in LISTEN and in FAULT. -/

namespace Sys2Proof.Machine

/-! ### The end of a command where nothing is left to raise, drain or start -/

/-- R163, R183: with no peer heard, no drift held and no tally counted no level condition stands. -/
theorem levelStands_blank {a : State} (hpeers : a.peers = Vector.replicate 8 PeerRow.cleared)
    (hdrift : a.drift = Vector.replicate 4 DriftSlot.cleared) (htallies : a.gates.binTallies = Vector.replicate 4 (Vector.replicate 16 0))
    (f : AlertFlag) : a.levelStands f = false := by
  have hrow : ∀ n : Fin 8, a.peers[n] = PeerRow.cleared := fun n => by rw [hpeers, Fin.getElem_fin, Vector.getElem_replicate]
  have hslot : ∀ k : Fin 4, a.drift[k] = DriftSlot.cleared := fun k => by rw [hdrift, Fin.getElem_fin, Vector.getElem_replicate]
  have hstanding : ∀ n, a.standing n = .absent := fun n => by rw [State.standing, hrow]; rfl
  have htally : ∀ p b, a.binTally p b = 0 := fun p b => by simp [State.binTally, htallies]
  cases f with
  | peerSilent => simp [State.levelStands, hstanding]
  | peerDistrusted => simp [State.levelStands, hrow, PeerRow.cleared]
  | indexDoubt => simp [State.levelStands, hstanding]
  | driftLimit => simp [State.levelStands, hslot, DriftSlot.cleared, overLimit, driftK]
  | driftStale => simp [State.levelStands, hslot, DriftSlot.cleared, isStale, Config.staleLimit]
  | binFull =>
    rw [Bool.eq_false_iff]
    intro h
    obtain ⟨q, x, -, hcapacity, hfull⟩ := (anyBinFull_iff a).mp h
    exact hcapacity (hfull.symm.trans (htally q x.index))
  | _ => rfl

theorem refreshLevels_blank {a : State} (h : ∀ f, a.levelStands f = false) : refreshLevels a = a := by
  simp [refreshLevels, levelFlags, raiseIf, h]

/-- R140, R178, R183: without a drain, a level condition or an idle line a command ends with its offers alone. -/
theorem settle_offers {a : State} (hdrain : a.ctl.drain = false) (hlevels : ∀ f, a.levelStands f = false) (hidle : a.link.lineIdle = false) :
    settle a = flush a := by
  have hundrained : drainTest a = a := by simp [drainTest, hdrain]
  have hunstarted : tryStart (flush a) = flush a := by
    unfold tryStart
    split
    · rfl
    · rw [if_neg]
      simp [State.mayStart, hidle]
  rw [settle, hundrained, refreshLevels_blank hlevels, hunstarted]

/-- R145, R169: a HAIL and nothing else, offered to an empty queue. -/
theorem flush_hail {s : State} (hw : s.work = { Work.empty with hail := true }) (hq : s.link.queue = []) :
    flush s = (enqueue [.hail] s).withWork Work.empty := by
  have hwaits : ¬s.waits .hail := by
    rintro ⟨q, hmem, -⟩
    have := unstarted_subset hmem
    rw [hq] at this
    cases this
  have hoffered : hailOffered s = enqueue [.hail] s := by
    rw [hailOffered, hw, if_pos rfl, offerOnce_offers hwaits, offer_room (admits_hail s) (by rw [hq]; decide)]
  have halert : (enqueue [.hail] s).work.alert = false := by simp [enqueue, hw, Work.empty]
  rw [flush_eq (by rw [hw]; rfl) (by rw [hw]; rfl), hoffered, halert, Bool.false_and, if_neg (by decide)]

/-! ### The hard reset (R172) -/

theorem clearAll_levelStands (t : Instant) (cause : HardCause) (node role : BitVec 3) (page : BitVec 2) (s : State) (f : AlertFlag) :
    (clearAll t cause node role page s).levelStands f = false := levelStands_blank rfl rfl rfl f

theorem exec_hardReset (t : Instant) (cause : HardCause) (node role : BitVec 3) (page : BitVec 2) (s : State) :
    exec (.hardReset t cause node role page) s = .next (settle (startUp (clearAll t cause node role page s))) := rfl

/-- R172, R173, R169: with a valid role the station enters LISTEN, its HAIL in the queue. -/
theorem hardReset_listens (t : Instant) (cause : HardCause) (node role : BitVec 3) (page : BitVec 2) (s : State)
    (h : (roleOfCode role).isSome = true) :
    exec (.hardReset t cause node role page) s
      = .next ((enqueue [.hail] (enterListen (clearAll t cause node role page s))).withWork Work.empty) := by
  let a := enterListen (clearAll t cause node role page s)
  have hlevels : ∀ f, a.levelStands f = false := levelStands_blank rfl rfl rfl
  have hstart : startUp (clearAll t cause node role page s) = a := if_pos h
  have hsettled : settle a = (enqueue [.hail] a).withWork Work.empty := (settle_offers rfl hlevels rfl).trans (flush_hail rfl rfl)
  rw [exec_hardReset, hstart, hsettled]

/-- Settles O5. -/
theorem hardResetEntersListen : Obligations.HardResetEntersListen := by
  unfold Obligations.HardResetEntersListen
  intro t cause node role page s h
  refine ⟨_, hardReset_listens t cause node role page s h, ?_⟩
  exact ⟨rfl, rfl, rfl, rfl, rfl, rfl, rfl, rfl, rfl, rfl, rfl, rfl, rfl, rfl, rfl, rfl, rfl, rfl⟩

/-- R147, R172, R180: without a valid role the station enters FAULT, the one HAIL of that state in the queue. -/
theorem hardReset_faults (t : Instant) (cause : HardCause) (node role : BitVec 3) (page : BitVec 2) (s : State) (h : roleOfCode role = none) :
    exec (.hardReset t cause node role page) s
      = .next ((enqueue [.hail] (enterFault .badRole (clearAll t cause node role page s))).withWork Work.empty) := by
  let a := enterFault .badRole (clearAll t cause node role page s)
  have hlevels : ∀ f, a.levelStands f = false := fun f => (enterFault_levelStands _ _ f).trans (clearAll_levelStands t cause node role page s f)
  have hstart : startUp (clearAll t cause node role page s) = a := by
    refine if_neg ?_
    rw [show (clearAll t cause node role page s).role = none from h]
    decide
  have hdrain : a.ctl.drain = false := by rw [enterFault_ctl]; rfl
  have hqueue : a.link.queue = [] := by simp [a, enterFault, keepQueued]
  have hflushed : flush a = (enqueue [.hail] a).withWork Work.empty := flush_fault rfl rfl rfl rfl hqueue
  rw [exec_hardReset, hstart, settle_offers hdrain hlevels (by simp [a, enterFault, clearAll, State.cleared]), hflushed]

/-- R174, R180: the flag of the entry to FAULT is raised in the alert word. -/
theorem enterFault_badRole_word (b : State) (h : b.alerts.word = 0) : (enterFault .badRole b).alerts.word = AlertFlag.badRole.bit := by
  have hraised {a : State} (ha : a.alerts.word = 0) : (raise .badRole a).alerts.word = AlertFlag.badRole.bit := by
    rw [raise_clear (by rw [ha]; rfl), State.withWork_alerts, State.withAlerts_alerts, ha]
    exact BitVec.zero_or
  exact hraised (by simpa using h)

/-- Settles O6. -/
theorem hardResetBadRole : Obligations.HardResetBadRole := by
  unfold Obligations.HardResetBadRole
  intro t cause node role page s h
  let b := clearAll t cause node role page s
  refine ⟨_, hardReset_faults t cause node role page s h, rfl, rfl, enterFault_badRole_word b rfl, ?alert, ?hold, rfl, ?queue, ?role, ?ctx, ?firings⟩
  case alert => simp [State.assertsAlert, enqueue, clearAll, State.cleared, enterFault_ctl]
  case hold => simp [State.pullsHold, enqueue, enterFault_idx]
  case queue => simp [enqueue, enterFault, keepQueued]
  case role => simp [enqueue, clearAll, State.cleared]
  case ctx => simp [enqueue, enterFault, discardSequence_ctx]
  case firings => simp [enqueue, enterFault, setMeasReq, clearFirings, setFiringReq]

/-- Settles O4: the straps low and the cause POWER are operands of a hard reset with a valid role. -/
theorem resetState : Obligations.ResetState := by
  unfold Obligations.ResetState
  exact ⟨rfl, rfl, rfl, rfl, reset_pages, rfl, rfl, rfl, rfl, rfl, rfl, hardReset_listens 0 .powerUp 0 0 0 State.reset rfl⟩

end Sys2Proof.Machine
end

section
/-! Settles O44: the plain items of SETUP, each with its clamp. -/

namespace Sys2Proof.Machine

/-! ### The item of an identifier (R175) -/

/-- R175: identifiers 2 to 5 are STD_CERT of the four slots. -/
theorem writeItem_stdCert {item : BitVec 8} {k : Fin 4} (h : item.toNat = k.val + 2) (v : Dev) (x : Items) :
    writeItem item v x = some { x with stdCert := x.stdCert.set k (clampSigned Config.termMax v) k.isLt } := by
  match k with
  | 0 => obtain rfl : item = 2 := BitVec.eq_of_toNat_eq (by simpa using h); rfl
  | 1 => obtain rfl : item = 3 := BitVec.eq_of_toNat_eq (by simpa using h); rfl
  | 2 => obtain rfl : item = 4 := BitVec.eq_of_toNat_eq (by simpa using h); rfl
  | 3 => obtain rfl : item = 5 := BitVec.eq_of_toNat_eq (by simpa using h); rfl

/-- R175: the table lists identifiers 1 to 39 alone. -/
theorem writeItem_unlisted {item : BitVec 8} (h : item.toNat = 0 ∨ 40 ≤ item.toNat) (v : Dev) (x : Items) : writeItem item v x = none := by
  have hgates : ¬(19 ≤ item.toNat ∧ item.toNat ≤ 34) := by omega
  unfold writeItem
  split
  case h_24 => exact dif_neg hgates
  all_goals omega

/-- R175: POSITION and the GATE_POS items are no plain items, and so is DONE. -/
theorem plainSetupItem_iff (item : BitVec 8) :
    plainSetupItem item = true ↔ item.toNat ≠ 1 ∧ ¬(19 ≤ item.toNat ∧ item.toNat ≤ 34) ∧ item.toNat ≠ 255 := by
  simp only [plainSetupItem, Bool.and_eq_true, bne_iff_ne, Bool.not_eq_true', Bool.and_eq_false_iff, decide_eq_false_iff_not]
  omega

theorem plain_movesLimit {item : BitVec 8} (h : plainSetupItem item = true) : movesLimit item = false := by
  obtain ⟨hposition, hgates, -⟩ := (plainSetupItem_iff item).mp h
  simp [movesLimit, hposition]
  omega

/-- R175: of the SORT gates group the plain items are 35 to 39. -/
theorem plain_isSortItem {item : BitVec 8} (h : plainSetupItem item = true) : isSortItem item = true ↔ 35 ≤ item.toNat ∧ item.toNat ≤ 39 := by
  obtain ⟨-, hgates, -⟩ := (plainSetupItem_iff item).mp h
  simp only [isSortItem, Bool.and_eq_true, decide_eq_true_eq]
  omega

/-! ### An item in CONFIG -/

theorem setupItem_written {item : BitVec 8} {v : Dev} {a : State} {x : Items} (hm : movesLimit item = false)
    (hw : writeItem item v a.ctl.items = some x) : setupItem item v a = a.withCtl { a.ctl with items := x } := by
  rw [setupItem, hw, hm]
  rfl

theorem setupItem_unlisted {item : BitVec 8} {a : State} (hdone : item.toNat ≠ 255) (h : item.toNat = 0 ∨ 40 ≤ item.toNat) (v : Dev) :
    setupItem item v a = raise .consoleError a := by
  rw [setupItem, writeItem_unlisted h]
  exact if_neg hdone

/-- Settles O44: by state and role, then item by item. -/
theorem setupItems : Obligations.SetupItems := by
  unfold Obligations.SetupItems
  intro t h item v s hr hrx ha hplain a unsigned signed sortOnly
  obtain ⟨u, he, ht⟩ := setup_tail (t := t) hr hrx ha (isSortItem item) (setupItem item v)
  obtain ⟨hignored, hrefused⟩ := setup_turnedAway ht
  have hctl : a.ctl = s.ctl := consoleState_ctl t h s
  have hrole : a.role = roleOfCode s.ctl.role := by rw [State.role, hctl]
  have hsort : isSortItem item = true ↔ sortOnly := plain_isSortItem hplain
  have hconfig (hrun : s.ctl.run = .config) := setupFrame_config (s := a) (hctl ▸ hrun) (isSortItem item) (setupItem item v)
  refine ⟨u, he, hignored, hrefused, fun hrun hs hne => ?aside, fun hrun hi => ?unlisted, fun hrun hs => ?written⟩
  case aside =>
    rwa [hconfig hrun, if_pos ⟨hsort.mpr hs, by rwa [hrole]⟩] at ht
  case unlisted =>
    have hrange : item.toNat = 0 ∨ 40 ≤ item.toNat := hi.imp_left fun h0 => by rw [h0]; rfl
    have hno : ¬sortOnly := by omega
    rwa [hconfig hrun, if_neg (fun hb => hno (hsort.mp hb.1)), setupItem_unlisted ((plainSetupItem_iff item).mp hplain).2.2 hrange] at ht
  case written =>
    intro items i
    rw [hconfig hrun, if_neg (fun hb => hb.2 (hrole ▸ hs (hsort.mp hb.1)))] at ht
    have hwritten {x : Items} (hw : writeItem item v s.ctl.items = some x) : Tail (items x) u := by
      rw [setupItem_written (plain_movesLimit hplain) (by rwa [hctl])] at ht
      rwa [hctl] at ht
    refine ⟨fun k hk => hwritten (writeItem_stdCert hk v _), ?_, ?_, ?_, ?_, ?_, ?_, ?_, ?_, ?_, ?_, ?_, ?_, ?_, ?_, ?_, ?_, ?_, ?fallback⟩
    case fallback =>
      rintro rfl
      have hclamp : clampGate (clampUnsigned 0 16 v) = Fin.ofNat 17 (unsigned 0 16) := clampGate_clampUnsigned v
      rw [← hclamp]
      exact hwritten rfl
    all_goals
      rintro rfl
      exact hwritten rfl

end Sys2Proof.Machine
end

section
/-! Settles O50: what a RESTART clears, where it leads, and its HAIL. -/

namespace Sys2Proof.Machine

/-! ### What a RESTART clears (R38, R42, R63, R98, R137, R147, R158, R182) -/

@[simp] theorem restartClears_table (a : State) : (restartClears a).table = { entries := [], lastRemoved := none } := by
  simp [restartClears, emptyTable]

@[simp] theorem restartClears_drift (a : State) : (restartClears a).drift = Vector.replicate 4 DriftSlot.cleared := by
  simp [restartClears, clearRecords, DriftSlot.cleared]

@[simp] theorem restartClears_peers (a : State) : (restartClears a).peers = Vector.replicate 8 PeerRow.cleared := by
  simp [restartClears, clearRecords]

@[simp] theorem restartClears_gates (a : State) :
    (restartClears a).gates
      = { firings := [], drivers := Vector.replicate 16 .idle, binTallies := Vector.replicate 4 (Vector.replicate 16 0),
          reasonTallies := Vector.replicate 15 0 } := by
  simp [restartClears, clearTallies, clearFirings, setFiringReq]

@[simp] theorem restartClears_word (a : State) : (restartClears a).alerts.word = 0 := by simp [restartClears, clearWordAll]

@[simp] theorem restartClears_idx (a : State) : (restartClears a).idx = { a.idx with measReq := false, firingReq := false } := by
  simp [restartClears, clearFirings, setFiringReq, releaseEngine, setMeasReq]

/-- R57: the instant of the turn-off is recorded where the excitation was on. -/
theorem turnOff_eng (a : State) :
    (turnOff a).eng = { a.eng with excitation := .off, lastOff := if a.eng.excitation = .off then a.eng.lastOff else some a.now } := by
  unfold turnOff
  split
  · rename_i h
    rw [← h]
  · rfl

/-- R63: the measurement is discarded and the relays are released; the ADC channels stay. -/
@[simp] theorem restartClears_eng (a : State) :
    (restartClears a).eng
      = { ctx := none, recentPage := a.eng.recentPage, excitation := .off
          lastOff := if a.eng.excitation = .off then a.eng.lastOff else some a.now, relays := ⟨none, false, false⟩
          channels := a.eng.channels } := by
  simp [restartClears, releaseEngine, turnOff_eng]

theorem restartClears_link (a : State) : (restartClears a).link = { (keepQueued (fun _ => false) a).link with deferral := .no } := by
  simp [restartClears, emptyQueue, keepQueued, emptyTable]

@[simp] theorem restartClears_queue (a : State) : (restartClears a).link.queue = [] := by simp [restartClears_link, keepQueued]

@[simp] theorem restartClears_deferral (a : State) : (restartClears a).link.deferral = .no := by simp [restartClears_link]

theorem restartClears_tx_none {a : State} (htx : a.link.tx = none) : (restartClears a).link.tx = none := by
  simp [restartClears_link, keepQueued, htx]

/-- R141, R147: a claim that is won stays on the line. -/
theorem restartClears_tx_won {a : State} {x : Tx} (htx : a.link.tx = some x) (hw : x.won = true) : (restartClears a).link.tx = some x := by
  simp [restartClears_link, keepQueued, htx, hw]

/-- R147, R149: a claim still in its header cell stops, and the station follows the line from that header's start. -/
theorem restartClears_tx_stopped {a : State} {x : Tx} (htx : a.link.tx = some x) (hw : x.won = false) (hq : a.link.queue ≠ []) :
    (restartClears a).link.tx = none ∧ (restartClears a).link.rx = some x.mark := by
  obtain ⟨q, rest, hq⟩ := List.exists_cons_of_ne_nil hq
  simp [restartClears_link, keepQueued, htx, hw, hq]

/-! ### Where a RESTART leads (R169, R179) -/

/-- R169, R179: whether the RESTART changes state code or activity, or enters LISTEN again. -/
def restartHails (c : RunControl) : Bool :=
  match c.run with
  | .run | .halt | .listen => true
  | .config | .ready | .fault => c.activity != .active

theorem restartHails_iff (c : RunControl) :
    restartHails c = true ↔ c.run = .run ∨ c.run = .halt ∨ c.run = .listen ∨ c.activity ≠ .active := by
  unfold restartHails
  split <;> simp_all

/-- R179: Run Control after a RESTART. -/
def restartCtl (now : Instant) (c : RunControl) : RunControl :=
  { c with
    cause := .restart, activity := .active, run := restartState c.run, drain := false
    listenDue := if c.run = .listen then some (now + Config.listenWindow) else c.listenDue
    hailDue := if restartHails c then some (now + Config.hailPeriod) else c.hailDue }

/-- R179: the station after a RESTART, its HAIL offered. -/
def restarted (a : State) : State :=
  ((restartClears a).withCtl (restartCtl a.now a.ctl)).withWork { a.work with hail := restartHails a.ctl || a.work.hail }

/-- R179: state by state and activity by activity, with and without a drain. -/
theorem restartStation_eq {a : State} (hf : a.ctl.run ≠ .fault) : restartStation a = restarted a := by
  have hctl : (restartClears a).ctl = a.ctl := restartClears_ctl a
  have hnow : (restartClears a).now = a.now := restartClears_now a
  have hwork : (restartClears a).work = a.work := restartClears_work a
  unfold restartStation restarted
  rw [if_neg hf, ← hctl, ← hnow, ← hwork]
  rw [← hctl] at hf
  generalize restartClears a = b at hf ⊢
  rcases b with ⟨now, held, idx, table, eng, drift, pages, gates, link, peers, ctl, alerts, work, draws, pending⟩
  rcases ctl with ⟨node, role, st, reason, drain, activity, cause, listenDue, hailDue, items⟩
  cases st with
  | fault => exact absurd rfl hf
  | run => cases activity <;> cases drain <;> rfl
  | _ => cases activity <;> rfl

theorem restartStation_fault {a : State} (hf : a.ctl.run = .fault) : restartStation a = a := if_pos hf

/-! ### The end of the command -/

/-- R164, R183: no level condition stands after a RESTART. -/
theorem restarted_levelStands (a : State) (f : AlertFlag) : (restarted a).levelStands f = false :=
  levelStands_blank (a := restarted a) (restartClears_peers a) (restartClears_drift a) (by simp [restarted]) f

/-- R183: nothing is left to raise after a RESTART, and on a line that is not idle nothing starts. -/
theorem settle_restarted {a : State} (hidle : a.link.lineIdle = false) : settle (restarted a) = flush (restarted a) :=
  settle_offers rfl (restarted_levelStands a) (by simpa [restarted] using hidle)

/-- R145, R169: what a RESTART leaves in the queue it has emptied. -/
theorem restarted_queue {a : State} (hidle : a.link.lineIdle = false) (hw : a.work = Work.empty) :
    (settle (restarted a)).link.queue = if restartHails a.ctl then [{ frame := .hail, waiting := 0 }] else [] := by
  have hqueue : (restarted a).link.queue = [] := restartClears_queue a
  have hwork : (restarted a).work = { Work.empty with hail := restartHails a.ctl } := by simp [restarted, hw, Work.empty]
  rw [settle_restarted hidle]
  cases hh : restartHails a.ctl with
  | true =>
    rw [flush_hail (hh ▸ hwork) hqueue]
    simp [enqueue, hqueue]
  | false =>
    have hnone : hailOffered (restarted a) = restarted a := if_neg (by simp [hwork, hh])
    have halert : (restarted a).work.alert = false := by rw [hwork]; rfl
    rw [flush_eq (by rw [hwork]; rfl) (by rw [hwork]; rfl), hnone, halert]
    simp [hqueue]

/-- R140: on a line that is not idle the end of the command starts no header cell. -/
theorem restarted_line {a u : State} (hidle : a.link.lineIdle = false) (ht : Tail (restarted a) u) :
    u.link.tx = (restartClears a).link.tx ∧ u.link.rx = (restartClears a).link.rx ∧ u.link.lineIdle = false ∧ u.link.deferral = .no := by
  have hstopped : (restarted a).mayStart = false := by simp [State.mayStart, restarted, hidle]
  rcases ht.line with ⟨-, htx, hline, -, hdefer⟩ | ⟨hstarts, -⟩
  · exact ⟨htx, ht.rx, by simp [hline, restarted, hidle], hdefer.trans (restartClears_deferral a)⟩
  · rw [hstopped] at hstarts
    cases hstarts

/-- R179: Run Control at the end of the command; no drain is left to complete. -/
theorem restarted_ctl {a u : State} (ht : Tail (restarted a) u) : u.ctl = restartCtl a.now a.ctl := ht.ctl

/-- R179: the state a RESTART leads to. -/
theorem restartCtl_run {now : Instant} {c : RunControl} :
    (c.run = .config → (restartCtl now c).run = .config)
      ∧ (c.run = .ready ∨ c.run = .run ∨ c.run = .halt → (restartCtl now c).run = .ready)
      ∧ (c.run = .listen → (restartCtl now c).run = .listen ∧ (restartCtl now c).listenDue = some (now + ms 600)) := by
  have hrun : (restartCtl now c).run = restartState c.run := rfl
  refine ⟨fun h => by rw [hrun, h]; rfl, fun h => ?_, fun h => ⟨by rw [hrun, h]; rfl, if_pos h⟩⟩
  rcases h with h | h | h <;> rw [hrun, h] <;> rfl

/-- Settles O50: FAULT ignores a RESTART; in every other state block by block, then the line and queue, then where it leads. -/
theorem restart : Obligations.Restart := by
  unfold Obligations.Restart
  intro t h s hr hrx haddr a hails
  have hctl : a.ctl = s.ctl := consoleState_ctl t h s
  have hnow : a.now = max s.now t := consoleState_now t h s
  have heng : a.eng = s.eng := consoleState_eng t h s
  have hidx : a.idx = s.idx := consoleState_idx t h s
  have hal : a.alerts = s.alerts := consoleState_alerts t h s
  have hpages : a.pages = s.pages := consoleState_pages t h s
  have hidle : a.link.lineIdle = false := rfl
  have hhails : restartHails s.ctl = true ↔ hails := restartHails_iff s.ctl
  refine ⟨_, event_obey_addressed hr hrx haddr restartStation, fun hf => ?_, fun hf => ?_⟩
  · exact tail_of_eq (restartStation_fault (by rwa [hctl]))
  · have hrestarted : restartStation a = restarted a := restartStation_eq (by rwa [hctl])
    have ht : Tail (restarted a) (settle (restartStation a)) := tail_of_eq hrestarted
    have hqueue := fun hw => restarted_queue hidle ((consoleState_work t h s).trans hw)
    rw [← hrestarted, hctl] at hqueue
    generalize settle (restartStation a) = u at ht hqueue
    obtain ⟨htx, hrx', hline, hdefer⟩ := restarted_line hidle ht
    have huctl : u.ctl = restartCtl (max s.now t) s.ctl := hctl ▸ hnow ▸ restarted_ctl ht
    rw [huctl]
    refine ⟨ht.table.trans (restartClears_table a), ?eng, ht.drift.trans (restartClears_drift a), ht.gates.trans (restartClears_gates a),
      ht.peers.trans (restartClears_peers a), fun f ho => ?flags, ?mask, ?master, ?pages, ?idx, rfl, rfl, rfl, rfl, rfl, rfl, hdefer, hline,
      fun x hx hw => ?won, fun x hx hw hq => ?stopped, fun hx => ?undriven, fun hh => ⟨if_pos (hhails.mpr hh), fun hw => ?hail⟩,
      fun hh => ⟨if_neg (mt hhails.mp hh), fun hw => ?silent⟩, restartCtl_run⟩
    case eng =>
      rw [← heng, ← hnow]
      exact ht.eng.trans (restartClears_eng a)
    case flags =>
      rw [ht.flags f ho, restarted_levelStands, show (restarted a).alerts.word = 0 from restartClears_word a, Bool.or_false]
      exact BitVec.getLsbD_zero
    case mask => exact ht.mask.trans ((restartClears_alerts_mask a).trans (by rw [hal]))
    case master => exact ht.master.trans ((restartClears_alerts_master a).trans (by rw [hal]))
    case pages => exact ht.pages.trans ((restartClears_pages a).trans hpages)
    case idx =>
      rw [← hidx]
      exact ht.idx.trans (restartClears_idx a)
    case won => exact htx.trans (restartClears_tx_won hx hw)
    case stopped =>
      rw [htx, hrx']
      exact restartClears_tx_stopped hx hw hq
    case undriven => exact htx.trans (restartClears_tx_none hx)
    case hail => rw [hqueue hw, if_pos (hhails.mpr hh)]
    case silent => rw [hqueue hw, if_neg (mt hhails.mp hh)]

end Sys2Proof.Machine
end

section
/-! Settles O2 and O1: every command answers a next state in every state, keeps the waiting commands, and moves the clock forward alone; a step takes the command at the front. -/

namespace Sys2Proof.Machine

/-! ### The operations that leave clock and waiting commands alone -/

/-- The clock and the waiting commands are the same in both states. -/
structure ClockKept (s u : State) : Prop where
  now : u.now = s.now := by simp
  pending : u.pending = s.pending := by simp

/-- The operation leaves the clock and the waiting commands alone. -/
def KeepsClock (f : State → State) : Prop := ∀ s, ClockKept s (f s)

namespace KeepsClock

theorem takeFrame (h : FrameHead) (hail : Option HailBody) {content : State → State} (hc : KeepsClock content) :
    KeepsClock (takeFrame h hail content) := fun s =>
  ⟨takeFrame_now h hail content s fun a => (hc a).now, takeFrame_pending h hail content s fun a => (hc a).pending⟩

/-- R151: a console frame that is not for this station is taken and not obeyed. -/
theorem obey (h : ConsoleHead) {act : State → State} (ha : KeepsClock act) : KeepsClock (obey h act) :=
  takeFrame h.frame none fun s => by split <;> [exact ha s; exact {}]

theorem fromActiveSource (h : FrameHead) {content : Fin 8 → Role → State → State} (hc : ∀ n r, KeepsClock (content n r)) :
    KeepsClock (fromActiveSource h content) := fun s =>
  ⟨fromActiveSource_now h content s fun n r a => (hc n r a).now, fromActiveSource_pending h content s fun n r a => (hc n r a).pending⟩

theorem setupFrame (sortItem : Bool) {act : State → State} (ha : KeepsClock act) : KeepsClock (setupFrame sortItem act) := fun s =>
  ⟨setupFrame_now sortItem act s fun a => (ha a).now, setupFrame_pending sortItem act s fun a => (ha a).pending⟩

theorem recipeFrame (page : BitVec 4) {act : Fin 4 → State → State} (ha : ∀ p, KeepsClock (act p)) : KeepsClock (recipeFrame page act) := fun s =>
  ⟨recipeFrame_now page act s fun p a => (ha p a).now, recipeFrame_pending page act s fun p a => (ha p a).pending⟩

theorem muteFrame {act : State → State} (ha : KeepsClock act) : KeepsClock (muteFrame act) := fun s =>
  ⟨muteFrame_now act s fun a => (ha a).now, muteFrame_pending act s fun a => (ha a).pending⟩

theorem query {reply : State → State} (hr : KeepsClock reply) : KeepsClock (query reply) := fun s =>
  ⟨query_now reply s fun a => (hr a).now, query_pending reply s fun a => (hr a).pending⟩

end KeepsClock

/-! ### Every command -/

/-- The outcome is a next state: the waiting commands are those of `s`, and the clock stands at `t`, or where it stood if that is later. -/
def AnswersAt (t : Instant) (s : State) (o : Host.Outcome State Fault Refusal) : Prop :=
  ∃ u, o = .next u ∧ u.pending = s.pending ∧ u.now = max s.now t

/-- What leaves clock and waiting commands alone may follow the start of a command. -/
theorem answersAt_of_advance {t : Instant} {s u : State} (h : ClockKept (advance t s) u) : AnswersAt t s (.next u) :=
  ⟨u, rfl, by simp [h.pending], by simp [h.now]⟩

/-- R172: also while RESET is held low, where the command has no effect. -/
theorem KeepsClock.event {body : State → State} (hb : KeepsClock body) (t : Instant) (s : State) : AnswersAt t s (event t body s) := by
  refine answersAt_of_advance ?_
  split
  · exact {}
  · exact { now := by simp [(hb _).now], pending := by simp [(hb _).pending] }

/-- R1: whether or not the edge is accepted. -/
theorem execIndexEvent_answersAt (t : Instant) (pins : BitVec 2) (s : State) : AnswersAt t s (execIndexEvent t pins s) := by
  refine answersAt_of_advance ?_
  split <;> exact {}

theorem execResetAssert_answersAt (t : Instant) (s : State) : AnswersAt t s (execResetAssert t s) := answersAt_of_advance {}

theorem clearAll_now (t : Instant) (cause : HardCause) (node role : BitVec 3) (page : BitVec 2) (s : State) :
    (clearAll t cause node role page s).now = max s.now t := rfl

/-- R172: the hard reset clears every block, but neither the model's clock nor its waiting commands. -/
theorem execHardReset_answersAt (t : Instant) (cause : HardCause) (node role : BitVec 3) (page : BitVec 2) (s : State) :
    AnswersAt t s (execHardReset t cause node role page s) :=
  ⟨_, rfl, by simp, by simp [clearAll_now]⟩

/-- Every command answers a next state in which the clock stands at its instant, or where it stood if that is later. -/
theorem exec_answersAt (c : Instr) (s : State) : AnswersAt c.instant s (exec c s) := by
  cases c with
  | indexEvent t pins => exact execIndexEvent_answersAt t pins s
  | resetAssert t => exact execResetAssert_answersAt t s
  | hardReset t cause node role page => exact execHardReset_answersAt t cause node role page s
  | entryReceived t h b => exact ((KeepsClock.fromActiveSource h fun _ _ _ => {}).takeFrame h none).event t s
  | valueReceived t h b => exact ((KeepsClock.fromActiveSource h fun _ _ _ => {}).takeFrame h none).event t s
  | verdictReceived t h b => exact ((KeepsClock.fromActiveSource h fun _ _ _ => {}).takeFrame h none).event t s
  | hailReceived t h b => exact (KeepsClock.takeFrame h _ fun _ => {}).event t s
  | alertFrameReceived t h w => exact (KeepsClock.takeFrame h _ fun _ => {}).event t s
  | statusReceived t h b => exact (KeepsClock.takeFrame h _ fun _ => {}).event t s
  | run t h => exact (KeepsClock.obey h fun _ => {}).event t s
  | halt t h m => exact (KeepsClock.obey h fun _ => {}).event t s
  | drain t h => exact (KeepsClock.obey h fun _ => {}).event t s
  | setup t h item v => exact ((KeepsClock.setupFrame _ fun _ => {}).obey h).event t s
  | setupPosition t h v => exact ((KeepsClock.setupFrame _ fun _ => {}).obey h).event t s
  | setupGatePos t h g v => exact ((KeepsClock.setupFrame _ fun _ => {}).obey h).event t s
  | done t h v => exact ((KeepsClock.setupFrame _ fun _ => {}).obey h).event t s
  | loadParameter t h page field v => exact ((KeepsClock.recipeFrame page fun _ _ => {}).obey h).event t s
  | loadBin t h page bin lower upper gate capacity lo hi => exact ((KeepsClock.recipeFrame page fun _ _ => {}).obey h).event t s
  | loadBinRemove t h page bin => exact ((KeepsClock.recipeFrame page fun _ _ => {}).obey h).event t s
  | lock t h page digest => exact ((KeepsClock.recipeFrame page fun _ _ => {}).obey h).event t s
  | erase t h page => exact ((KeepsClock.recipeFrame page fun _ _ => {}).obey h).event t s
  | binClear t h page bin => exact (KeepsClock.obey h fun _ => {}).event t s
  | clearAlertFlags t h form => exact (KeepsClock.obey h fun _ => {}).event t s
  | mask t h word master => exact (KeepsClock.obey h fun _ => {}).event t s
  | mute t h => exact ((KeepsClock.muteFrame fun _ => {}).obey h).event t s
  | unmute t h => exact ((KeepsClock.muteFrame fun _ => {}).obey h).event t s
  | restart t h => exact (KeepsClock.obey h fun _ => {}).event t s
  | queryState t h item arg => exact ((KeepsClock.query fun _ => {}).obey h).event t s
  | queryAlertWord t h arg => exact ((KeepsClock.query fun _ => {}).obey h).event t s
  | queryPeerRow t h arg => exact ((KeepsClock.query fun _ => {}).obey h).event t s
  | queryBinTally t h arg page bin => exact ((KeepsClock.query fun _ => {}).obey h).event t s
  | queryReasonTally t h arg => exact ((KeepsClock.query fun _ => {}).obey h).event t s
  | queryEntry t h arg tag => exact ((KeepsClock.query fun _ => {}).obey h).event t s
  | queryDriftSlot t h arg => exact ((KeepsClock.query fun _ => {}).obey h).event t s
  | _ => exact KeepsClock.event (fun _ => {}) _ s

/-- Settles O2: every command answers a next state in every state, keeps the waiting commands, and never turns the clock back. -/
theorem everyCommandCompletes : Obligations.EveryCommandCompletes := by
  unfold Obligations.EveryCommandCompletes
  intro c s
  obtain ⟨u, hnext, hpending, hnow⟩ := exec_answersAt c s
  exact ⟨u, hnext, hpending, hnow ▸ le_max_left s.now c.instant⟩

/-! ### A step -/

theorem step_of_pending_cons {s : State} {c : Instr} {rest : List Instr} (h : s.pending = c :: rest) : step s = exec c (s.withPending rest) := by
  unfold step
  rw [h]

theorem step_of_pending_nil {s : State} (h : s.pending = []) : step s = .next s := by
  unfold step
  rw [h]

/-- Settles O1: a step runs the command at the front of the queue with the queue's rest, and idles on an empty queue. -/
theorem stepTakesFrontCommand : Obligations.StepTakesFrontCommand := by
  unfold Obligations.StepTakesFrontCommand
  exact fun s => ⟨fun c rest => step_of_pending_cons, step_of_pending_nil⟩

end Sys2Proof.Machine
end
